-- ==== Sys2Proof/Word.lean ====
section
/-!
DEFINITION. Words, bytes and the plainest helpers over them: the little-endian order of R3 and the sorted
association lists that hold the model's sparse state.
-/
namespace Sys2Proof

/-- A Umavi instruction word or a 64-bit register (R240). -/
abbrev Word := BitVec 64

/-- One byte (R3). -/
abbrev Byte := BitVec 8

/-- Little-endian bytes of the value `v`: `n` bytes, the lowest address first (R3). -/
def bytesOf : Nat → Nat → List Byte
  | 0, _ => []
  | n + 1, v => BitVec.ofNat 8 v :: bytesOf n (v / 256)

/-- The value of a little-endian list of bytes (R3). -/
def valueOf : List Byte → Nat
  | [] => 0
  | b :: bs => b.toNat + 256 * valueOf bs

/-- A sparse map from numbers, as a list of pairs. -/
abbrev NMap (α : Type) := List (Nat × α)

namespace NMap

/-- The entry of key `k`, if listed. -/
def find? {α : Type} : NMap α → Nat → Option α
  | [], _ => none
  | (j, a) :: m, k => if j = k then some a else find? m k

/-- The entry of key `k`, or the default. -/
def getD {α : Type} (m : NMap α) (k : Nat) (d : α) : α := (m.find? k).getD d

/-- Sets key `k`, keeping ascending order. -/
def set {α : Type} : NMap α → Nat → α → NMap α
  | [], k, a => [(k, a)]
  | (j, b) :: m, k, a =>
    if j = k then (k, a) :: m
    else if k < j then (k, a) :: (j, b) :: m
    else (j, b) :: set m k a

/-- Removes key `k`. -/
def erase {α : Type} (m : NMap α) (k : Nat) : NMap α := m.filter fun p => p.1 != k

/-- Applies `f` to the entry of key `k`, where it is listed. -/
def modify {α : Type} : NMap α → Nat → (α → α) → NMap α
  | [], _, _ => []
  | (j, b) :: m, k, f => if j = k then (j, f b) :: m else (j, b) :: modify m k f

/-- The listed values in key order. -/
def values {α : Type} (m : NMap α) : List α := m.map Prod.snd

/-- The listed keys in order. -/
def keys {α : Type} (m : NMap α) : List Nat := m.map Prod.fst

end NMap

/-- Bits [hi:lo] of a natural number (R3). -/
def bits (v hi lo : Nat) : Nat := (v / 2 ^ lo) % 2 ^ (hi + 1 - lo)

/-- Bit n of a natural number (R3). -/
def bit (v n : Nat) : Bool := v.testBit n

/-- `v` with bits [hi:lo] replaced by the low bits of `x`. -/
def setBits (v hi lo x : Nat) : Nat :=
  v - bits v hi lo * 2 ^ lo + (x % 2 ^ (hi + 1 - lo)) * 2 ^ lo

/-- SExt(x, n) of R46 as an integer: the n low bits of `x` read as two's complement. -/
def sext (n : Nat) (x : Nat) : Int :=
  let y := x % 2 ^ n
  if 2 * y < 2 ^ n then (y : Int) else (y : Int) - (2 ^ n : Nat)

/-- An integer's low n bits (R46). -/
def wrapN (n : Nat) (x : Int) : Nat := (x % ((2 ^ n : Nat) : Int)).toNat

end Sys2Proof
end

