-- ==== Sys2Proof/Config.lean ====
section
/-!
DEFINITION. What the spec leaves open, as opaque constants without a value (log 2): a statement about one holds for
every value of it. Each is applied to a counter that State advances, or to the operands the open value depends on.
-/
namespace Sys2Proof.Config

/-- A free natural number, fresh for each value of the counter: the choice among independent events, and every result
the spec does not state (log 2). UNVERIFIED by nature; safe: nothing constrains it. -/
opaque freeNat : Nat → Nat

/-- The SHA-384 digest of a message, which the spec names and does not compute (R159, R402; log 2). -/
opaque sha384 : List Byte → List Byte

/-- The SHA-384-signing and checking operations of the root of trust (ECDSA P-384), whose keys never leave it: the
signature of a message under key number `k` (R401). -/
opaque sign : Nat → List Byte → List Byte

/-- Whether a signature verifies under the public half of key `k` (R401). -/
opaque verify : Nat → List Byte → List Byte → Bool

/-- The numbers of the Clebuga root's key and of the device identity key, which are made at manufacture (R401). -/
opaque rootKey : Nat
opaque deviceKey : Nat

/-- The number of the attestation key that a start makes from the device identity key and measurement 0 (R401). -/
opaque attestationKey : Nat → List Byte → Nat

/-- The X.509 certificate of a key's public half in DER form, signed by another key (R401). -/
opaque certificate : Nat → Nat → List Byte

end Sys2Proof.Config
end

