-- ==== Sys2Proof/Machine/Float.lean ====
section
/-!
DEFINITION. Exact floating-point arithmetic and its one rounding (R48 to R68), and the exact mathematical functions of
R304 by bounds that decide the rounding. Everything is integer arithmetic on magnitudes.
-/
namespace Sys2Proof.Machine

/-- An exact value: NaN (signalling or not), an infinity, or ±(m + θ) × 2^e, with θ = 0, or 0 < θ < 1 when `sticky`. -/
inductive FVal where
  | nan (sig : Bool)
  | inf (neg : Bool)
  | fin (neg : Bool) (m : Nat) (e : Int) (sticky : Bool)
  deriving DecidableEq, Repr

/-- A format of R48: exponent and mantissa bits, bias, and kind 0 with infinities and NaNs, 1 E4M3, 2 E2M1. -/
structure Fmt where
  eb : Nat
  mb : Nat
  bias : Nat
  kind : Nat
  deriving DecidableEq, Repr

/-- The format of a type code (R48, R254); 14 is E2M1. -/
def fmtOf (ty : Nat) : Fmt :=
  match ty with
  | 5 => ⟨11, 52, 1023, 0⟩
  | 6 => ⟨5, 10, 15, 0⟩
  | 7 => ⟨8, 7, 127, 0⟩
  | 8 => ⟨4, 3, 7, 1⟩
  | 9 => ⟨5, 2, 15, 0⟩
  | 14 => ⟨2, 1, 1, 2⟩
  | _ => ⟨8, 23, 127, 0⟩

/-- The canonical NaN (R48). -/
def Fmt.cnan (f : Fmt) : Nat := if f.kind = 1 then 0x7F else (2 ^ (f.eb + 1) - 1) * 2 ^ (f.mb - 1)

/-- The code of the largest finite magnitude (R48). -/
def Fmt.maxCode (f : Fmt) : Nat :=
  if f.kind = 0 then (2 ^ f.eb - 1) * 2 ^ f.mb - 1
  else if f.kind = 1 then 0x7E else 7

/-- Significand and exponent of the largest finite magnitude. -/
def Fmt.maxSig (f : Fmt) : Nat := f.maxCode % 2 ^ f.mb + 2 ^ f.mb
def Fmt.maxExp (f : Fmt) : Int := (f.maxCode / 2 ^ f.mb : Nat) - (f.bias : Int) - f.mb

/-- The least unit's exponent: emin − p + 1. -/
def Fmt.minUnit (f : Fmt) : Int := 1 - (f.bias : Int) - f.mb

/-- Decode (R68): the exact value of bits in a format; with ftz, subnormals read as signed zero (R60). -/
def fdecode (ty x : Nat) (ftz : Bool) : FVal :=
  let f := fmtOf ty
  let m := x % 2 ^ f.mb
  let e := x / 2 ^ f.mb % 2 ^ f.eb
  let neg := (x / 2 ^ (f.mb + f.eb)) % 2 == 1
  if f.kind = 0 && e = 2 ^ f.eb - 1 then
    if m = 0 then .inf neg else .nan (m < 2 ^ (f.mb - 1))
  else if f.kind = 1 && e = 15 && m = 7 then .nan false
  else if e = 0 then .fin neg (if ftz then 0 else m) f.minUnit false
  else .fin neg (m + 2 ^ f.mb) ((e : Int) - f.bias - f.mb) false

/-- Floor of log2 of a positive number. -/
def log2i (m : Nat) : Int := (Nat.log2 m : Nat)

/-- RoundInt (R57) of (m + θ) / 2^k: the floor, and whether the value is inexact. `draw` holds the high 32 bits of the
stochastic draw. -/
def roundInt (m k : Nat) (sticky neg : Bool) (rm draw : Nat) : Nat × Bool :=
  let f := m / 2 ^ k
  let r := m % 2 ^ k
  let pos := r != 0 || sticky
  let twice := 2 * r
  let above := twice > 2 ^ k || (twice == 2 ^ k && sticky)
  let tie := twice == 2 ^ k && !sticky
  let up :=
    match rm with
    | 1 => false
    | 2 => pos && !neg
    | 3 => pos && neg
    | 4 => above || tie
    | 5 =>
      let d := r * 2 ^ 32
      let t := draw * 2 ^ k
      d > t || (d == t && sticky)
    | _ => above || (tie && f % 2 == 1)
  (if up then f + 1 else f, pos)

/-- Flag bits of LSTAT (R104). -/
def fINV : BitVec 32 := 1
def fDZ : BitVec 32 := 2
def fOVF : BitVec 32 := 4
def fUNF : BitVec 32 := 8
def fINX : BitVec 32 := 16

/-- The sign bit of a format. -/
def signBits (f : Fmt) (neg : Bool) : Nat := if neg then 2 ^ (f.eb + f.mb) else 0

/-- Round (R56): bits in the format and the flags raised. -/
def fround (x : FVal) (ty rm : Nat) (sat ftz : Bool) (draw : Nat) : Nat × BitVec 32 :=
  let f := fmtOf ty
  match x with
  | .nan _ => if f.kind = 2 then (0, fINV) else (f.cnan, 0)
  | .inf neg =>
    if f.kind = 0 then (signBits f neg + (2 ^ f.eb - 1) * 2 ^ f.mb, 0)
    else if sat || f.kind = 2 then (signBits f neg + f.maxCode, 0)
    else (f.cnan, fINV)
  | .fin neg m e st =>
    if m = 0 && !st then (signBits f neg, 0)
    else
      let top := log2i m + e
      let emin : Int := 1 - (f.bias : Int)
      let ue := max top emin - f.mb
      -- (m + θ) × 2^e in units of 2^ue; a very small value is capped so that no decision changes
      let k := (ue - e).toNat
      let k := min k (Nat.log2 m + 40)
      let m := m * 2 ^ (e - ue).toNat
      let (y, inexact) := roundInt m k st neg rm draw
      let tooBig := if f.maxExp < ue then true else y > f.maxSig * 2 ^ (f.maxExp - ue).toNat
      if tooBig then
        if sat || rm = 1 || (rm = 2 && neg) || (rm = 3 && !neg) then (signBits f neg + f.maxCode, fOVF ||| fINX)
        else if f.kind = 0 then (signBits f neg + (2 ^ f.eb - 1) * 2 ^ f.mb, fOVF ||| fINX)
        else if f.kind = 1 then (f.cnan, fOVF ||| fINX ||| fINV)
        else (signBits f neg + f.maxCode, fOVF ||| fINX)
      else if ftz && top < emin then (signBits f neg, fUNF ||| fINX)
      else
        let code := ((ue - f.minUnit).toNat) * 2 ^ f.mb + y
        let flags := if inexact then (if code < 2 ^ f.mb then fINX ||| fUNF else fINX) else 0
        (signBits f neg + code, flags)

/-! ### Exact operations (R58, R59, R65, R299) -/

def FVal.isNan : FVal → Bool
  | .nan _ => true
  | _ => false

/-- FINV of a signalling operand (R58). -/
def FVal.sigFlag : FVal → BitVec 32
  | .nan true => fINV
  | _ => 0

def FVal.isNeg : FVal → Bool
  | .nan _ => false
  | .inf n => n
  | .fin n _ _ _ => n

def FVal.isZero : FVal → Bool
  | .fin _ m _ st => m == 0 && !st
  | _ => false

def FVal.neg : FVal → FVal
  | .nan s => .nan s
  | .inf n => .inf (!n)
  | .fin n m e st => .fin (!n) m e st

/-- The integer value of a finite term in units of 2^lo. -/
def FVal.scaled (lo : Int) : FVal → Int
  | .fin n m e _ =>
    let v : Int := (m : Int) * (2 ^ (e - lo).toNat : Nat)
    if n then -v else v
  | _ => 0

def FVal.exp : FVal → Int
  | .fin _ _ e _ => e
  | _ => 0

/-- The sign of an exactly zero sum (R59). -/
def zeroSumNeg (ts : List FVal) (rm : Nat) : Bool :=
  !ts.isEmpty && (ts.all FVal.isNeg || (rm == 3 && !ts.all fun t => !t.isNeg))

/-- ExactSum (R65) with its flags: invalid for opposite infinities; a signalling NaN sets FINV (R58). -/
def exactSum (ts : List FVal) (rm : Nat) : FVal × BitVec 32 :=
  let sig := ts.foldl (fun a t => a ||| t.sigFlag) 0
  let pinf := ts.any fun t => t == .inf false
  let ninf := ts.any fun t => t == .inf true
  if pinf && ninf then (.nan false, fINV)
  else if ts.any FVal.isNan then (.nan false, sig)
  else
    if pinf then (.inf false, 0)
    else if ninf then (.inf true, 0)
    else
      let nz := ts.filter fun t => !t.isZero
      let lo := nz.foldl (fun a t => min a t.exp) ((nz.head?).elim 0 FVal.exp)
      let v : Int := nz.foldl (fun a t => a + t.scaled lo) (0 : Int)
      if v = 0 then (.fin (zeroSumNeg ts rm) 0 0 false, 0)
      else (.fin (v < 0) v.natAbs lo false, 0)

/-- An exact product (R58, R59). -/
def fmul (a b : FVal) : FVal × BitVec 32 :=
  let sig := a.sigFlag ||| b.sigFlag
  let inv := (match a with | .inf _ => b.isZero | _ => false) || (match b with | .inf _ => a.isZero | _ => false)
  if inv then (.nan false, fINV)
  else if a.isNan || b.isNan then (.nan false, sig)
  else
    let neg := a.isNeg != b.isNeg
    match a, b with
    | .fin _ m e _, .fin _ m' e' _ => (.fin neg (m * m') (e + e') false, 0)
    | _, _ => (.inf neg, 0)

/-- A product used as a term: its invalid case makes the sum NaN (R299). -/
def fmulAdd (a b c : FVal) (rm : Nat) : FVal × BitVec 32 :=
  let (p, pf) := fmul a b
  let (x, f) := exactSum [p, c] rm
  (x, f ||| pf)

/-- A dot product c + Σ aᵢ bᵢ (R299). -/
def fdot (c : FVal) (ps : List (FVal × FVal)) (rm : Nat) : FVal × BitVec 32 :=
  let prods := ps.map fun p => fmul p.1 p.2
  let (x, f) := exactSum (c :: prods.map Prod.fst) rm
  (x, prods.foldl (fun a p => a ||| p.2) f)

/-- A quotient (R58), floor and remainder at 128 bits. -/
def fdiv (a b : FVal) : FVal × BitVec 32 :=
  let neg := a.isNeg != b.isNeg
  if a.isNan || b.isNan then (.nan false, a.sigFlag ||| b.sigFlag)
  else match a, b with
  | .inf _, .inf _ => (.nan false, fINV)
  | .inf _, _ => (.inf neg, 0)
  | _, .inf _ => (.fin neg 0 0 false, 0)
  | .fin _ m e _, .fin _ m' e' _ =>
    if m' = 0 then (if m = 0 then (.nan false, fINV) else (.inf neg, fDZ))
    else if m = 0 then (.fin neg 0 0 false, 0)
    else
      let sh := 128 + Nat.log2 m'
      let n := m * 2 ^ sh
      (.fin neg (n / m') (e - e' - sh) (n % m' != 0), 0)
  | _, _ => (.nan false, 0)

/-- Integer square root by bits from 2^k down: `acc` is the root so far. -/
def isqrtAux : Nat → Nat → Nat → Nat
  | 0, _, acc => acc
  | k + 1, n, acc =>
    let t := acc + 2 ^ k
    isqrtAux k n (if t * t ≤ n then t else acc)

/-- ⌊√n⌋. -/
def isqrt (n : Nat) : Nat := isqrtAux (Nat.log2 n / 2 + 1) n 0

/-- A square root (R304). -/
def fsqrtV (a : FVal) : FVal × BitVec 32 :=
  match a with
  | .nan sg => (.nan false, if sg then fINV else 0)
  | .inf n => if n then (.nan false, fINV) else (.inf false, 0)
  | .fin n m e _ =>
    if m = 0 then (.fin n 0 0 false, 0)
    else if n then (.nan false, fINV)
    else
      let odd := (e % 2).toNat
      let m' := m * 2 ^ (200 + odd)
      let r := isqrt m'
      (.fin false r ((e - 200 - odd) / 2) (r * r != m'), 0)

/-- A reciprocal square root (R304): ⌊√(2^2K / m)⌋. -/
def frsqrtV (a : FVal) : FVal × BitVec 32 :=
  match a with
  | .nan sg => (.nan false, if sg then fINV else 0)
  | .inf n => if n then (.nan false, fINV) else (.fin false 0 0 false, 0)
  | .fin n m e _ =>
    if m = 0 then (.inf n, fDZ)
    else if n then (.nan false, fINV)
    else
      let odd := (e % 2).toNat
      let m' := m * 2 ^ odd
      let kk := 160 + Nat.log2 m'
      let r := isqrt (2 ^ (2 * kk) / m')
      (.fin false r (-((e - odd) / 2) - kk) (r * r * m' != 2 ^ (2 * kk)), 0)

/-- A reciprocal (R304). -/
def frcpV (a : FVal) : FVal × BitVec 32 :=
  match a with
  | .fin n 0 _ _ => (.inf n, fDZ)
  | a => fdiv (.fin false 1 0 false) a

/-! ### Exact functions by bounds (R304)

Fixed-point numbers with `prec` fraction bits. Each series is summed with floors; its error, that of π in the reduction of the largest
argument included, stays below 2^144 units. -/

/-- Fraction bits of the fixed-point values. -/
def prec : Nat := 448

/-- Fixed-point product. -/
def fxMul (a b : Nat) : Nat := a * b / 2 ^ prec

/-- Σ z^(2i+1) / (2i+1) by the term z^(2i+1): atanh for `alt` false, atan for `alt` true. -/
def atanSeries : Nat → Bool → Nat → Nat → Nat → Int → Int
  | 0, _, _, _, _, acc => acc
  | n + 1, alt, z2, term, i, acc =>
    let t : Int := (term / (2 * i + 1) : Nat)
    atanSeries n alt z2 (fxMul term z2) (i + 1) (if alt && i % 2 == 1 then acc - t else acc + t)

/-- ln 2 = 2 atanh(1/3). -/
def ln2 : Nat :=
  let z := 2 ^ prec / 3
  2 * (atanSeries 150 false (fxMul z z) z 0 0).toNat

/-- π = 16 atan(1/5) − 4 atan(1/239) (Machin). -/
def piFx : Nat :=
  let a := 2 ^ prec / 5
  let b := 2 ^ prec / 239
  (16 * atanSeries 110 true (fxMul a a) a 0 0 - 4 * atanSeries 40 true (fxMul b b) b 0 0).toNat

/-- Σ xⁱ / i! from the term in hand. -/
def expSeries : Nat → Nat → Nat → Nat → Nat → Nat
  | 0, _, _, _, acc => acc
  | n + 1, x, term, i, acc => expSeries n x (fxMul term x / (i + 1)) (i + 1) (acc + term)

/-- e^x for 0 ≤ x < 1. -/
def expFx (x : Nat) : Nat := expSeries 100 x (2 ^ prec) 0 0

/-- Alternating series Σ (−1)ⁱ x^(2i+c) / (2i+c)!: cosine for c = 0, sine for c = 1. -/
def trigSeries : Nat → Nat → Nat → Nat → Int → Int
  | 0, _, _, _, acc => acc
  | n + 1, x2, term, i, acc =>
    trigSeries n x2 (fxMul term x2 / ((i + 1) * (i + 2))) (i + 2)
      (if i / 2 % 2 == 1 then acc - (term : Int) else acc + term)

/-- sine and cosine of 0 ≤ x < 2. -/
def sinFx (x : Nat) : Nat := (trigSeries 60 (fxMul x x) x 1 0).toNat
def cosFx (x : Nat) : Int := trigSeries 60 (fxMul x x) (2 ^ prec) 0 0

/-- Fixed-point value of a finite magnitude m × 2^e, floored. -/
def toFx (m : Nat) (e : Int) : Nat := m * 2 ^ (e + prec).toNat / 2 ^ (-(e + prec)).toNat

/-- A value known to 2^144 units of 2^-prec, as a multiple of the first of the units 2^192, 2^256, 2^320 on which both bounds agree, plus a
part of it (DEDUCED, log 112: on no argument do they all disagree). -/
def decided (neg : Bool) (v : Nat) (e : Int) : FVal :=
  let d := (([192, 256, 320] : List Nat).find? fun d => (v - 2 ^ 144) / 2 ^ d == (v + 2 ^ 144) / 2 ^ d).getD 192
  .fin neg (v / 2 ^ d) (e - prec + d) true

/-- Just below, or just above, m × 2^e by less than a 2^-50 part. -/
def justBelow (neg : Bool) (m : Nat) (e : Int) : FVal := .fin neg (m * 2 ^ 50 - 1) (e - 50) true
def justAbove (neg : Bool) (m : Nat) (e : Int) : FVal := .fin neg (m * 2 ^ 50) (e - 50) true

/-- A positive value too small to change any rounding decision but its sign. -/
def tiny (neg : Bool) : FVal := .fin neg 1 (-4000) true

/-- log2 of the magnitude's leading bit. -/
def topOf (m : Nat) (e : Int) : Int := log2i m + e

/-- 2^a (R304). -/
def exp2V (neg : Bool) (m : Nat) (e : Int) : FVal :=
  if 12 ≤ topOf m e then (if neg then tiny false else .fin false 1 4000 false)
  else if topOf m e < -60 then
    (if neg then justBelow false (2 ^ 10) (-10) else justAbove false (2 ^ 10) (-10))
  else
    -- a = n + f with 0 ≤ f < 1, exact in fixed point
    let x := toFx m e
    let n := x / 2 ^ prec
    let fr := x % 2 ^ prec
    if fr = 0 then .fin false 1 (if neg then -(n : Int) else n) false
    else if neg then decided false (expFx (fxMul (2 ^ prec - fr) ln2)) (-(n : Int) - 1)
    else decided false (expFx (fxMul fr ln2)) n

/-- log2 a for a > 0 (R304). -/
def log2V (m : Nat) (e : Int) : FVal :=
  let t := topOf m e
  if m = 2 ^ Nat.log2 m then .fin (t < 0) t.natAbs 0 false
  else
    -- f in (1, 2): z = (f − 1) / (f + 1)
    let f := toFx m (-(log2i m))
    let z := (f - 2 ^ prec) * 2 ^ prec / (f + 2 ^ prec)
    let lnf := 2 * (atanSeries 150 false (fxMul z z) z 0 0).toNat
    let v : Int := (lnf * 2 ^ prec / ln2 : Nat) + t * (2 ^ prec : Nat)
    decided (v < 0) v.natAbs 0

/-- The quadrant and the remainder of a finite magnitude by π/2, the range reduced exactly (R304). -/
def reduceTrig (m : Nat) (e : Int) : Nat × Nat :=
  let half := piFx / 2
  let x := toFx m e
  (x / half, x % half)

/-- sin a (`c` 0) and cos a (`c` 1) for finite a (R304). -/
def trigV (c : Nat) (neg : Bool) (m : Nat) (e : Int) : FVal :=
  if topOf m e < -40 then
    (if c = 0 then justBelow neg m e else justBelow false (2 ^ 10) (-10))
  else
    let (q, x) := reduceTrig m e
    let k := (q + c) % 4
    let v : Int := if k % 2 == 0 then Int.ofNat (sinFx x) else cosFx x
    let sgn := (decide (2 ≤ k) != (c == 0 && neg)) != decide (v < 0)
    decided sgn v.natAbs 0

/-- e^−x for x ≥ 0 in fixed point, as (significand, binary exponent): e^−x = s × 2^−k with s in (1/2, 1]. -/
def expNeg (x : Nat) : Nat × Nat :=
  let k := x / ln2
  let r := x - k * ln2
  -- e^−r = 2 · e^(ln2 − r) / 4 … as e^(ln2 − r) / 2
  (expFx (ln2 - r) / 2, k)

/-- tanh a for finite non-zero a (R304). -/
def tanhV (neg : Bool) (m : Nat) (e : Int) : FVal :=
  if topOf m e < -40 then justBelow neg m e
  else if 6 ≤ topOf m e then justBelow neg (2 ^ 10) (-10)
  else
    let (sg, k) := expNeg (2 * toFx m e)
    let ex := sg / 2 ^ k
    decided neg ((2 ^ prec - ex) * 2 ^ prec / (2 ^ prec + ex)) 0

/-- 1 / (1 + e^−a) for finite non-zero a (R304). -/
def sigmV (neg : Bool) (m : Nat) (e : Int) : FVal :=
  if topOf m e < -60 then (if neg then justBelow false (2 ^ 10) (-11) else justAbove false (2 ^ 10) (-11))
  else if !neg && 7 ≤ topOf m e then justBelow false (2 ^ 10) (-10)
  else if 9 ≤ topOf m e then tiny false
  else
    let (sg, k) := expNeg (toFx m e)
    let ex := sg / 2 ^ k
    if neg then decided false (sg * 2 ^ prec / (2 ^ prec + ex)) (-(k : Int))
    else decided false (2 ^ prec * 2 ^ prec / (2 ^ prec + ex)) 0

/-- The special functions of one argument. -/
inductive Special where
  | exp2 | log2 | sin | cos | tanh | sigm
  deriving DecidableEq, Repr

/-- A special function's value, between the bounds that fix its rounding, and flags (R304). -/
def specialV (fn : Special) (a : FVal) : FVal × BitVec 32 :=
  let one : FVal := .fin false 1 0 false
  let zero : FVal := .fin false 0 0 false
  match fn, a with
  | _, .nan sg => (.nan false, if sg then fINV else 0)
  | .exp2, .inf n => (if n then zero else .inf false, 0)
  | .log2, .inf n => if n then (.nan false, fINV) else (.inf false, 0)
  | .sin, .inf _ => (.nan false, fINV)
  | .cos, .inf _ => (.nan false, fINV)
  | .tanh, .inf n => (.fin n 1 0 false, 0)
  | .sigm, .inf n => (if n then zero else one, 0)
  | fn, .fin n m e _ =>
    if m = 0 then
      match fn with
      | .exp2 | .cos => (one, 0)
      | .log2 => (.inf true, fDZ)
      | .sin | .tanh => (a, 0)
      | .sigm => (.fin false 1 (-1) false, 0)
    else match fn with
    | .exp2 => (exp2V n m e, 0)
    | .log2 => if n then (.nan false, fINV) else (log2V m e, 0)
    | .sin => (trigV 0 n m e, 0)
    | .cos => (trigV 1 n m e, 0)
    | .tanh => (tanhV n m e, 0)
    | .sigm => (sigmV n m e, 0)

/-! ### Comparison, minimum and maximum (R300, R301) -/

/-- a < b for values that are not NaN; `zeros` orders −0 below +0. -/
def fless (zeros : Bool) (a b : FVal) : Bool :=
  match a, b with
  | .inf n, .inf n' => n && !n'
  | .inf n, _ => n
  | _, .inf n => !n
  | .fin n m e _, .fin n' m' e' _ =>
    if m = 0 && m' = 0 then zeros && n && !n'
    else
      let lo := min e e'
      decide ((FVal.fin n m e false).scaled lo < (FVal.fin n' m' e' false).scaled lo)
  | _, _ => false

/-- `fmin` and `fmax` (R300), with FINV only for a signalling operand. -/
def fminmax (isMax : Bool) (a b : FVal) : FVal × BitVec 32 :=
  let f := a.sigFlag ||| b.sigFlag
  if a.isNan && b.isNan then (.nan false, f)
  else if a.isNan then (b, f)
  else if b.isNan then (a, f)
  else if isMax then (if fless true a b then b else a, f)
  else (if fless true b a then b else a, f)

/-- Mix64 and StochBits (R62). -/
def mix64 (z : Nat) : Nat :=
  let z := z % 2 ^ 64
  let z := ((z ^^^ (z / 2 ^ 30)) * 0xBF58476D1CE4E5B9) % 2 ^ 64
  let z := ((z ^^^ (z / 2 ^ 27)) * 0x94D049BB133111EB) % 2 ^ 64
  z ^^^ (z / 2 ^ 31)

/-- The high 32 bits of StochBits(seed, l, j) (R57, R62). -/
def stochHigh (seed l j : Nat) : Nat := mix64 (seed + 0x9E3779B97F4A7C15 * (32 * j + l + 1)) / 2 ^ 32

/-- SRSEED after an issue in stochastic mode (R62). -/
def nextSeed (seed : Nat) : Nat := (seed + 0x9E3779B97F4A7C15 * 128) % 2 ^ 64

/-- ToInt (R64): the integer and the flags, for a range lo to hi. -/
def toInt (x : FVal) (lo hi : Int) (rm draw : Nat) : Int × BitVec 32 :=
  match x with
  | .nan _ => (0, fINV)
  | .inf n => (if n then lo else hi, fINV)
  | .fin n m e st =>
    let k := min (-e).toNat (Nat.log2 m + 40)
    let m' := if 200 < e then (if m = 0 then 0 else 2 ^ 200) else m * 2 ^ e.toNat
    let (y, inexact) := roundInt m' k st n rm draw
    let v : Int := if n then -(y : Int) else y
    if v < lo then (lo, fINV)
    else if hi < v then (hi, fINV)
    else (v, if inexact then fINX else 0)

end Sys2Proof.Machine
end

