-- ==== Sys2Proof/Syntax.lean ====
section
/-!
DEFINITION. The syntax of the model: the word formats of R245 to R253 with their raw fields, and one constructor of
`Instr` for each row of spec/opcode_table.json: the Umavi instructions, the gauge instructions of R232, and the
hardware and host events, whose operands are plain numbers that name their subject.
-/
namespace Sys2Proof

/-- The V3 word (R245, R246). Field widths as the rule lays them out, highest bit first. -/
structure WordV3 where
  guard : BitVec 4
  dst : BitVec 11
  sa : BitVec 11
  sb : BitVec 11
  ctla : BitVec 3
  ctlb : BitVec 3
  ty : BitVec 4
  md : BitVec 9
  deriving DecidableEq, Repr

/-- The VI word (R247). Field widths as the rule lays them out, highest bit first. -/
structure WordVI where
  guard : BitVec 4
  dst : BitVec 11
  sa : BitVec 11
  ctla : BitVec 3
  type3 : BitVec 3
  imm24 : BitVec 24
  deriving DecidableEq, Repr

/-- The two words of V4 (R248). Field widths as the rule lays them out, highest bit first. -/
structure WordV4 where
  guard : BitVec 4
  dst : BitVec 11
  sa : BitVec 11
  sb : BitVec 11
  ctla : BitVec 3
  ctlb : BitVec 3
  ty : BitVec 4
  md : BitVec 9
  sc : BitVec 11
  ctlc : BitVec 3
  xmod : BitVec 18
  imm32 : BitVec 32
  deriving DecidableEq, Repr

/-- The M word (R249). Field widths as the rule lays them out, highest bit first. -/
structure WordM where
  guard : BitVec 4
  data : BitVec 11
  brec : BitVec 5
  index : BitVec 11
  ctl : BitVec 3
  size : BitVec 3
  order : BitVec 3
  scope : BitVec 2
  ofs : BitVec 14
  deriving DecidableEq, Repr

/-- The two words of MA (R250). Field widths as the rule lays them out, highest bit first. -/
structure WordMA where
  guard : BitVec 4
  data : BitVec 11
  brec : BitVec 5
  index : BitVec 11
  ctl : BitVec 3
  size : BitVec 3
  order : BitVec 3
  scope : BitVec 2
  ofs : BitVec 14
  aop : BitVec 5
  atype : BitVec 4
  arnd : BitVec 3
  res : BitVec 11
  ret : BitVec 1
  ctlr : BitVec 3
  cmp : BitVec 11
  rsv : BitVec 26
  deriving DecidableEq, Repr

/-- The S word (R251). Field widths as the rule lays them out, highest bit first. -/
structure WordS where
  guard : BitVec 4
  sd : BitVec 6
  sa : BitVec 6
  sb : BitVec 6
  im : BitVec 2
  imm32 : BitVec 32
  deriving DecidableEq, Repr

/-- The two words of E (R252). Field widths as the rule lays them out, highest bit first. -/
structure WordE where
  gslot : BitVec 4
  ge : BitVec 1
  xf : BitVec 1
  s1 : BitVec 6
  s2 : BitVec 6
  s3 : BitVec 6
  s4 : BitVec 6
  s5 : BitVec 6
  ext : BitVec 20
  imm64 : BitVec 64
  deriving DecidableEq, Repr

/-- The B word (R253). Field widths as the rule lays them out, highest bit first. -/
structure WordB where
  guard : BitVec 4
  ofs20 : BitVec 20
  ovl : BitVec 16
  rsv : BitVec 16
  deriving DecidableEq, Repr

/-- The two words of BM (R253). Field widths as the rule lays them out, highest bit first. -/
structure WordBM where
  guard : BitVec 4
  p0 : BitVec 4
  t0 : BitVec 20
  p1 : BitVec 4
  t1 : BitVec 20
  rsv : BitVec 4
  p2 : BitVec 4
  t2 : BitVec 20
  p3 : BitVec 4
  t3 : BitVec 20
  rsv2 : BitVec 16
  deriving DecidableEq, Repr

/-- A site's outcome of stage 2, as the tests measure it (R406, R407). -/
structure SiteResult where
  site : Nat
  /-- every stage 2 step passed, or passed when rerun -/
  pass : Bool
  /-- the read-back test of every stack passes at the saved settings -/
  readBack : Bool
  /-- every port trains at the saved eye settings within 50 µs -/
  eye : Bool
  /-- the 2-bit code of each core (R161) -/
  cores : List Nat
  /-- training, eye and test results as the record stores them -/
  record : List Byte
  /-- ports that lock to a reference from their far end -/
  links : List Nat
  deriving DecidableEq, Repr

/-- What the receiver of a port finds (R202, R204): 0 an uncorrectable codeword, 1 a gap in the sequence numbers, 2 a corrected codeword;
and the first flit it lacks. -/
structure CodewordFault where
  port : Nat
  kind : Nat
  seq : Nat
  deriving DecidableEq, Repr

/-- A measuring window of a wavelength source that has ended, and its bit errors (R199). -/
structure SourceWindow where
  source : Nat
  errors : Nat
  deriving DecidableEq, Repr

/-- Where a clock reference is lost (R171, R172): 0 at the island's parent link, 1 on the transmit side of its forwarder, 2 on the receive
side; node 24 is the reference itself. -/
structure ClockLoss where
  island : Nat
  side : Nat
  deriving DecidableEq, Repr

/-- A router's check of a table, and whether a fault of its own makes it reject (R174). -/
structure RouterCheck where
  node : Nat
  fault : Bool
  deriving DecidableEq, Repr

/-- What a start finds: the firmware image (R404), the populated sites (R10), and the (node, port) of links that do not lock (R173). -/
structure PanelFound where
  image : List (BitVec 8)
  sites : List Nat
  dead : List (Nat × Nat)
  deriving DecidableEq, Repr

/-- An error that an HBM4E stack finds at an address, corrected or not (R410). -/
structure HbmError where
  address : Nat
  corrected : Bool
  deriving DecidableEq, Repr

/-- For whom an image is loaded: partition, island, address space and job (R263 to R266). -/
structure LoadPlace where
  part : Nat
  island : Nat
  asid : Nat
  job : Nat
  deriving DecidableEq, Repr

/-- Whose function reaches a gauge's memory: the partition and the gauge (R237). -/
structure GaugeReach where
  part : Nat
  gauge : Nat
  deriving DecidableEq, Repr

/-- A packet that enters the panel from outside its routers: over a fibre port (R208), or made by software of the control-die cores at
node 24 (R16). -/
structure OutPacket where
  /-- node where it enters, and the fibre port of arrival -/
  node : Nat
  port : Option Nat
  /-- 0 `put` data, 1 `get` request, 2 `ratom`, 3 `notify`; answers to a packet of this panel: 4 completion, 5 `get` data, 6 `ratom`
  result, 7 error notice, 8 retry notice -/
  kind : Nat
  /-- number of the packet that it answers; of a request, its source node over a fibre port, else its software's own number -/
  answers : Nat
  /-- over a fibre port, the node of the panel at which its route ends; of software's transfer, the rank that it names (R16) -/
  dest : Nat
  /-- route word, hops used, and the reverse path of those hops; software's transfer takes its route from the rank's entry -/
  route : Nat
  hop : Nat
  back : List Nat
  job : Nat
  part : Nat
  win : Nat
  ofs : Nat
  payload : List Byte
  len : Nat
  tcen : Bool
  tcwin : Nat
  tcofs : Nat
  /-- operation, type, rounding, operand and comparand of a `ratom` -/
  aop : Nat
  ty : Nat
  rnd : Nat
  d : Nat
  cmp : Nat
  ret : Bool
  cls : Nat
  deriving DecidableEq, Repr

/-- What a router forwards: a packet of the machine, or one that enters it. -/
inductive Forwarded where
  | packet (id : Nat)
  | entering (o : OutPacket)
  deriving DecidableEq, Repr

/-- The system registers of R106 that software writes by name. -/
inductive RegName where
  | coreStat | corePipe | islDstat | lkpQbase | lkpQtail | lkpQhead | lkpQctl | lkpGridctl | mapkRqbase | mapkRqtail | mapkRqhead | islLease | islCohmode | clkStat | lkpTstage | lkpTupd | optPstat | optPctl | optPerr | optPfar | optFocfg | optLasa | optLasb | islNctr | corePmc | islPmc | corePmsel | islPmsel | tgpAtt | tgpAdrop | tgpGwin | tgpScnt | tgpBud | islFqbase | islFqtail | islFqhead | islFqstat | islReplay | partCfg | partSlice | partShare | partBud | partTok | partToff | partPres | partIpres | rotMeas | rotPmeas | rotAtreq | rotAtbuf | rotCert | startCtl | startStat | hbmErr | pwrIsl | pwrPanel
  deriving DecidableEq, Repr

/-- One constructor per row of spec/opcode_table.json; its docstring is the row's own step. -/
inductive Instr where
  /-- Adds two integer sources in each admitted lane and narrows the result once under R47. (R272) -/
  | iadd (w : WordV3)
  /-- Subtracts two integer sources in each admitted lane with one narrowing. (R272) -/
  | isub (w : WordV3)
  /-- Multiplies two integer sources in each admitted lane with one narrowing. (R272) -/
  | imul (w : WordV3)
  /-- Writes the upper w bits of the exact 2w-bit product. (R272) -/
  | imulh (w : WordV3)
  /-- Computes A times B plus C exactly and narrows it once. (R272) -/
  | imad (w : WordV4)
  /-- Adds a 24-bit immediate to an integer source, wrapping. (R273) -/
  | iaddi (w : WordVI)
  /-- Multiplies an integer source by a 24-bit immediate, wrapping. (R273) -/
  | imuli (w : WordVI)
  /-- Issues a truncating integer divide that empties its destination and returns after the instruction latency. (R274) -/
  | idiv (w : WordV3)
  /-- Issues a truncating integer remainder that empties its destination and returns after the instruction latency. (R274) -/
  | irem (w : WordV3)
  /-- Writes the lesser of two integer sources by the type's signedness. (R272) -/
  | imin (w : WordV3)
  /-- Writes the greater of two integer sources by the type's signedness. (R272) -/
  | imax (w : WordV3)
  /-- Writes the absolute value of an integer source with one narrowing. (R272) -/
  | iabs (w : WordV3)
  /-- Writes the negation of an integer source with one narrowing. (R272) -/
  | ineg (w : WordV3)
  /-- Adds a four-element 8-bit dot product to a 32-bit accumulator source. (R272) -/
  | idot4 (w : WordV4)
  /-- Writes the bitwise AND of two sources. (R278) -/
  | and (w : WordV3)
  /-- Writes the bitwise OR of two sources. (R278) -/
  | or (w : WordV3)
  /-- Writes the bitwise exclusive OR of two sources. (R278) -/
  | xor (w : WordV3)
  /-- Writes the bitwise complement of a source. (R278) -/
  | not (w : WordV3)
  /-- Writes the bitwise AND of a source and an extended immediate. (R278) -/
  | andi (w : WordVI)
  /-- Writes the bitwise OR of a source and an extended immediate. (R278) -/
  | ori (w : WordVI)
  /-- Writes the bitwise exclusive OR of a source and an extended immediate. (R278) -/
  | xori (w : WordVI)
  /-- Computes any three-input bitwise function from an 8-entry truth table. (R279) -/
  | lut3 (w : WordV4)
  /-- Shifts a source left by an unsigned amount. (R280) -/
  | shl (w : WordV3)
  /-- Shifts a source right logically by an unsigned amount. (R280) -/
  | shr (w : WordV3)
  /-- Shifts a source right arithmetically by an unsigned amount. (R280) -/
  | sra (w : WordV3)
  /-- Extracts 32 consecutive bits from the 64-bit join of two sources. (R281) -/
  | extr (w : WordV4)
  /-- Extracts a bit field, zero- or sign-extended. (R282) -/
  | bfx (w : WordV3)
  /-- Inserts a bit field of one source into another. (R282) -/
  | bfi (w : WordV4)
  /-- Reverses the bit order of a source. (R283) -/
  | brev (w : WordV3)
  /-- Counts the 1 bits of a source. (R283) -/
  | popc (w : WordV3)
  /-- Counts the leading zero bits of a source. (R283) -/
  | clz (w : WordV3)
  /-- Counts the trailing zero bits of a source. (R283) -/
  | ctz (w : WordV3)
  /-- Sets a predicate to the truth of an integer relation between two sources. (R284) -/
  | icmp (w : WordV3)
  /-- Sets a predicate to the truth of an integer relation between a source and an immediate. (R285) -/
  | icmpi (w : WordVI)
  /-- Selects one of two sources by a predicate, carrying all their dependencies. (R286) -/
  | sel (w : WordV4)
  /-- Writes a predicate from a logic operation on two predicates. (R287) -/
  | plop (w : WordV3)
  /-- Copies a value between v, p and s registers as OP selects. (R288) -/
  | mov (w : WordV3)
  /-- Writes a 24-bit immediate constant to a v register. (R289) -/
  | movi (w : WordVI)
  /-- Writes a 32-bit immediate constant to a v register or pair. (R289) -/
  | movw (w : WordV4)
  /-- Converts between integer types with one narrowing. (R290) -/
  | icvt (w : WordV3)
  /-- Forms a 64-bit address from a base pair and a shifted index. (R291) -/
  | lea (w : WordV3)
  /-- Writes a buffer record from two s registers. (R295) -/
  | brec (w : WordS)
  /-- Reads one half of a buffer record into an s register. (R295) -/
  | bget (w : WordS)
  /-- Adds two scalar operands modulo 2^64. (R293) -/
  | sadd (w : WordS)
  /-- Subtracts two scalar operands modulo 2^64. (R293) -/
  | ssub (w : WordS)
  /-- Multiplies two scalar operands modulo 2^64. (R293) -/
  | smul (w : WordS)
  /-- Writes the bitwise AND of two scalar operands. (R293) -/
  | sand (w : WordS)
  /-- Writes the bitwise OR of two scalar operands. (R293) -/
  | sor (w : WordS)
  /-- Writes the bitwise exclusive OR of two scalar operands. (R293) -/
  | sxor (w : WordS)
  /-- Shifts a scalar operand left. (R293) -/
  | sshl (w : WordS)
  /-- Shifts a scalar operand right logically. (R293) -/
  | sshr (w : WordS)
  /-- Shifts a scalar operand right arithmetically. (R293) -/
  | ssra (w : WordS)
  /-- Writes the lesser of two scalar operands, signed or unsigned. (R293) -/
  | smin (w : WordS)
  /-- Writes the greater of two scalar operands, signed or unsigned. (R293) -/
  | smax (w : WordS)
  /-- Sets a q predicate from a relation between two s registers. (R293) -/
  | scmp (w : WordS)
  /-- Writes a scalar operand to an s register. (R293) -/
  | smov (w : WordS)
  /-- Selects one of two s registers by a q predicate. (R293) -/
  | ssel (w : WordS)
  /-- Writes a q predicate from a logic operation on two q predicates. (R293) -/
  | qlop (w : WordS)
  /-- Adds two floating-point sources with one rounding. (R299) -/
  | fadd (w : WordV3)
  /-- Subtracts two floating-point sources with one rounding. (R299) -/
  | fsub (w : WordV3)
  /-- Multiplies two floating-point sources with one rounding. (R299) -/
  | fmul (w : WordV3)
  /-- Computes a fused multiply-add with one rounding. (R299) -/
  | ffma (w : WordV4)
  /-- Writes the lesser floating-point source without rounding. (R300) -/
  | fmin (w : WordV3)
  /-- Writes the greater floating-point source without rounding. (R300) -/
  | fmax (w : WordV3)
  /-- Writes the magnitude of a floating-point source. (R300) -/
  | fabs (w : WordV3)
  /-- Writes the negation of a floating-point source. (R300) -/
  | fneg (w : WordV3)
  /-- Issues a floating-point divide to the special-function unit, returning after its latency. (R304) -/
  | fdiv (w : WordV3)
  /-- Issues a square root to the special-function unit. (R304) -/
  | fsqrt (w : WordV3)
  /-- Issues a reciprocal square root to the special-function unit. (R304) -/
  | frsqrt (w : WordV3)
  /-- Issues a reciprocal to the special-function unit. (R304) -/
  | frcp (w : WordV3)
  /-- Sets a predicate from a floating-point relation. (R301) -/
  | fcmp (w : WordV3)
  /-- Writes a one-hot mask of the class of a floating-point source. (R302) -/
  | fclass (w : WordV3)
  /-- Adds a floating immediate to a source with rne. (R299) -/
  | faddi (w : WordVI)
  /-- Multiplies a source by a floating immediate with rne. (R299) -/
  | fmuli (w : WordVI)
  /-- Adds a two-element 16-bit dot product to an f32 source with one rounding. (R299) -/
  | fdot2 (w : WordV4)
  /-- Adds a four-element FP8 dot product to an f32 source with one rounding. (R299) -/
  | fdot4 (w : WordV4)
  /-- Rounds a floating-point source to an integral value. (R303) -/
  | fround (w : WordV3)
  /-- Converts between floating-point formats with one rounding. (R307) -/
  | fcvt (w : WordV3)
  /-- Converts a floating-point source to an integer type, clamping. (R308) -/
  | f2i (w : WordV3)
  /-- Converts an integer source to a floating-point format. (R308) -/
  | i2f (w : WordV3)
  /-- Rounds two f32 sources and places them in a packed register. (R309) -/
  | fpack (w : WordV4)
  /-- Writes one packed element of a source as an exact f32. (R310) -/
  | funpack (w : WordV3)
  /-- Multiplies a floating-point source by a power of two with one rounding. (R299) -/
  | fscale (w : WordV3)
  /-- Issues a base-2 exponential to the special-function unit. (R304) -/
  | fexp2 (w : WordV3)
  /-- Issues a base-2 logarithm to the special-function unit. (R304) -/
  | flog2 (w : WordV3)
  /-- Issues a sine to the special-function unit. (R304) -/
  | fsin (w : WordV3)
  /-- Issues a cosine to the special-function unit. (R304) -/
  | fcos (w : WordV3)
  /-- Issues a hyperbolic tangent to the special-function unit. (R304) -/
  | ftanh (w : WordV3)
  /-- Issues a logistic sigmoid to the special-function unit. (R304) -/
  | fsigm (w : WordV3)
  /-- Writes the sign of a source or copies a sign onto a magnitude. (R300) -/
  | fsgn (w : WordV3)
  /-- Writes the fractional part of a floating-point source. (R299) -/
  | ffrac (w : WordV3)
  /-- Computes an E8M0 block scale from a largest magnitude. (R311) -/
  | fmxsc (w : WordV3)
  /-- Collective that gives each lane the value of a source lane within its tile. (R315) -/
  | shfl (w : WordV3)
  /-- Collective that writes a predicate from all, any or uniform over the contributors. (R316) -/
  | vote (w : WordV3)
  /-- Collective that writes a mask of the contributors whose predicate is true. (R316) -/
  | ballot (w : WordV3)
  /-- Writes the mask of lanes in the tile whose key equals the lane's own. (R316) -/
  | matchLanes (w : WordV3)
  /-- Exchanges a value with a partner lane of the quad. (R317) -/
  | qswap (w : WordV3)
  /-- Broadcasts one quad lane's value to its quad. (R317) -/
  | qbcast (w : WordV3)
  /-- Collective reduction over the contributors of each tile. (R316) -/
  | wred (w : WordV3)
  /-- Collective inclusive or exclusive scan over the contributors of each tile. (R316) -/
  | wscan (w : WordV3)
  /-- Sets the warp's tile width from its next issue. (R318) -/
  | tilew (w : WordVI)
  /-- Writes one lane's value into an s register. (R319) -/
  | rdlane (w : WordV3)
  /-- Writes an s register into one lane's v register. (R319) -/
  | wrlane (w : WordV3)
  /-- Writes the mask of the issuing group's member lanes. (R319) -/
  | grpmask (w : WordV3)
  /-- Issues a global load through a buffer record, emptying the destination until the data returns. (R322) -/
  | ldg (w : WordM)
  /-- Issues a global load that stalls on unwritten ONCE words until written or timed out. (R323) -/
  | ldgWait (w : WordM)
  /-- Stores to global memory through a buffer record. (R324) -/
  | stg (w : WordM)
  /-- Loads from the data area of the thread's lane-private slice. (R111) -/
  | ldl (w : WordM)
  /-- Stores to the data area of the thread's lane-private slice. (R111) -/
  | stl (w : WordM)
  /-- Loads from the block's scratchpad window. (R112) -/
  | lds (w : WordM)
  /-- Stores to the block's scratchpad window. (R112) -/
  | sts (w : WordM)
  /-- Loads from cluster memory of the cluster group. (R113) -/
  | ldc (w : WordM)
  /-- Stores to cluster memory of the cluster group. (R113) -/
  | stc (w : WordM)
  /-- Loads from the grid's berm window. (R114) -/
  | ldbm (w : WordM)
  /-- Stores to the grid's berm window. (R114) -/
  | stbm (w : WordM)
  /-- Performs a global atomic RMW per admitted lane in ascending lane order, near or far. (R328) -/
  | atom (w : WordMA)
  /-- Performs an atomic RMW per lane on the block's scratchpad. (R328) -/
  | atoms (w : WordMA)
  /-- Performs an atomic RMW per lane on cluster memory. (R328) -/
  | atomc (w : WordMA)
  /-- Issues one scalar global load for the group into an s register. (R325) -/
  | sldg (w : WordM)
  /-- Performs an unordered global reduction with no returned value. (R329) -/
  | red (w : WordMA)
  /-- Places each lane's contribution in the pipe's reduction buffer for a later drain. (R329) -/
  | redOrd (w : WordMA)
  /-- Drains the warp's ordered-reduction entries and holds the group until applied. (R330) -/
  | redflush (w : WordV3)
  /-- Produces a fence event with the given order and scope in each admitted lane. (R331) -/
  | fence (w : WordM)
  /-- Collective that orders events across the lanes of each tile. (R332) -/
  | fenceLanes (w : WordV3)
  /-- Waits for the warp's earlier ovld commands and discards fetched words. (R334) -/
  | fenceFetch (w : WordV3)
  /-- Writes back dirty EX and PV words of the named regions. (R326) -/
  | wb (w : WordM)
  /-- Writes back dirty words and drops every span of the named regions. (R326) -/
  | inv (w : WordM)
  /-- Arrives at block barrier n. (R333) -/
  | bar (w : WordV3)
  /-- Loads a 16-byte buffer record from the scratchpad into a b register. (R325) -/
  | ldrec (w : WordM)
  /-- Sends GETS for named words of global regions as a hint. (R326) -/
  | pref (w : WordM)
  /-- Branches the admitted lanes to a relative header. (R337) -/
  | br (w : WordB)
  /-- Branches each admitted lane to the first of up to four targets whose predicate holds. (R338) -/
  | brm (w : WordBM)
  /-- Pushes a frame and transfers the admitted lanes to an ENTRY header. (R339) -/
  | call (w : WordB)
  /-- Pushes a frame and transfers each lane to a register-named ENTRY header. (R339) -/
  | callr (w : WordV3)
  /-- Pushes a far frame and transfers to an ENTRY header of another overlay's slot. (R339) -/
  | fcall (w : WordB)
  /-- Pops each admitted lane's frame and continues at its return point. (R341) -/
  | ret (w : WordV3)
  /-- Transfers each lane to a register-named header in its slot. (R337) -/
  | jmpr (w : WordV3)
  /-- Ends each admitted lane, which becomes a helper or Exited. (R341) -/
  | exit (w : WordV3)
  /-- Occupies its issue with no other effect. (R341) -/
  | nop (w : WordV3)
  /-- Branches every member lane when a q predicate holds. (R338) -/
  | brq (w : WordB)
  /-- Enqueues a command loading a compressed B tile into the weight buffer. (R352) -/
  | wbload (w : WordE)
  /-- Enqueues a matrix loop of K-steps into accumulator tiles. (R358) -/
  | mloop (w : WordE)
  /-- Enqueues a matrix loop whose K-step count comes from S5. (R355) -/
  | mloopc (w : WordE)
  /-- Reads accumulator tile rows into v registers, which fill after a latency. (R351) -/
  | accrd (w : WordV4)
  /-- Writes v registers into accumulator tile rows. (R351) -/
  | accwr (w : WordV4)
  /-- Clears an accumulator tile or FP64 pair. (R351) -/
  | acczero (w : WordV3)
  /-- Enqueues a command writing an all-zero B tile into the weight buffer. (R354) -/
  | wbzero (w : WordE)
  /-- Enqueues a transfer writing local bytes into a remote window. (R366) -/
  | put (w : WordE)
  /-- Enqueues a transfer reading a remote window into local memory. (R366) -/
  | get (w : WordE)
  /-- Enqueues a remote atomic RMW at the target's home slice. (R367) -/
  | ratom (w : WordE)
  /-- Sets or adds to an arrival counter's TARGET and sets ARMED. (R368) -/
  | arm (w : WordS)
  /-- Holds the group until its arrival counter is reached or reports an error. (R368) -/
  | waitarr (w : WordS)
  /-- Enqueues an addition to a notify counter on the rank's island. (R369) -/
  | notify (w : WordE)
  /-- Arms a guard slot to PENDING. (R370) -/
  | garm (w : WordV3)
  /-- Resolves a PENDING guard slot to TRUE or FALSE and decides waiting commands. (R370) -/
  | gset (w : WordV3)
  /-- Enqueues a copy or dequantising fill between memories. (R361) -/
  | xfill (w : WordE)
  /-- Enqueues a load of overlay words into an instruction-store slot. (R362) -/
  | ovld (w : WordE)
  /-- Enqueues a re-arming of a ONCE range's written bits. (R363) -/
  | onceinit (w : WordE)
  /-- Enqueues a device-side launch of a record from the scratchpad. (R371) -/
  | launch (w : WordE)
  /-- Looks up a key's owner on a key ring, filling the destination after 32 clocks. (R372) -/
  | keymap (w : WordV3)
  /-- Reads a special register into v registers. (R342) -/
  | srd (w : WordVI)
  /-- Writes a special register. (R342) -/
  | swr (w : WordVI)
  /-- Stops the warp with TRAP carrying n. (R343) -/
  | trap (w : WordVI)
  /-- Makes each admitted lane not ready until ITIME reaches issue time plus n. (R343) -/
  | sleep (w : WordVI)
  /-- Reads a permitted system register into an s register. (R344) -/
  | sysrd (w : WordS)
  /-- Writes permitted fields of a system register from a privileged kernel. (R344) -/
  | syswr (w : WordS)
  /-- Sets the warp's mark. (R343) -/
  | gmark (w : WordVI)
  /-- Issue of a word with an unassigned opcode raises ILLEGAL_OPCODE. (R255) -/
  | unassignedOpcode (word : BitVec 64)
  /-- Ends the gauge run. (R232) -/
  | gaugeDone
  /-- Copies one gauge register to another. (R232) -/
  | gaugeMov (d : BitVec 4) (a : BitVec 4)
  /-- Loads a sign-extended immediate. (R232) -/
  | gaugeLi (d : BitVec 4) (i : BitVec 14)
  /-- Adds two gauge registers. (R232) -/
  | gaugeAdd (d : BitVec 4) (a : BitVec 4) (b : BitVec 4)
  /-- Subtracts two gauge registers. (R232) -/
  | gaugeSub (d : BitVec 4) (a : BitVec 4) (b : BitVec 4)
  /-- Bitwise AND of two gauge registers. (R232) -/
  | gaugeAnd (d : BitVec 4) (a : BitVec 4) (b : BitVec 4)
  /-- Bitwise OR of two gauge registers. (R232) -/
  | gaugeOr (d : BitVec 4) (a : BitVec 4) (b : BitVec 4)
  /-- Bitwise exclusive OR of two gauge registers. (R232) -/
  | gaugeXor (d : BitVec 4) (a : BitVec 4) (b : BitVec 4)
  /-- Adds a sign-extended immediate. (R232) -/
  | gaugeAddi (d : BitVec 4) (a : BitVec 4) (i : BitVec 14)
  /-- Shifts left by an immediate. (R232) -/
  | gaugeShl (d : BitVec 4) (a : BitVec 4) (i : BitVec 6)
  /-- Shifts right logically by an immediate. (R232) -/
  | gaugeShr (d : BitVec 4) (a : BitVec 4) (i : BitVec 6)
  /-- Unsigned minimum of two gauge registers. (R232) -/
  | gaugeMin (d : BitVec 4) (a : BitVec 4) (b : BitVec 4)
  /-- Counts leading zero bits. (R232) -/
  | gaugeClz (d : BitVec 4) (a : BitVec 4)
  /-- Hashes a register with Mix64. (R232) -/
  | gaugeHash (d : BitVec 4) (a : BitVec 4) (i : BitVec 14)
  /-- Loads an 8-byte gauge memory cell. (R233) -/
  | gaugeLd (d : BitVec 4) (a : BitVec 4) (i : BitVec 14)
  /-- Stores an 8-byte gauge memory cell. (R233) -/
  | gaugeSt (a : BitVec 4) (b : BitVec 4) (i : BitVec 14)
  /-- Adds to an 8-byte cell, saturating. (R232) -/
  | gaugeAcc (a : BitVec 4) (b : BitVec 4) (i : BitVec 14)
  /-- Increments a linear histogram bucket. (R234) -/
  | histLin (a : BitVec 4) (b : BitVec 4) (s : BitVec 6) (n : BitVec 6)
  /-- Increments a logarithmic histogram bucket. (R234) -/
  | histLog (a : BitVec 4) (b : BitVec 4) (s : BitVec 6) (n : BitVec 6)
  /-- Updates a count-min sketch. (R234) -/
  | gaugeCms (a : BitVec 4) (b : BitVec 4) (w : BitVec 4)
  /-- Queries a count-min sketch. (R234) -/
  | gaugeCmq (d : BitVec 4) (a : BitVec 4) (b : BitVec 4) (w : BitVec 4)
  /-- Branches forward if a register is zero. (R232) -/
  | gaugeBz (a : BitVec 4) (i : BitVec 14)
  /-- Branches forward if a register is not zero. (R232) -/
  | gaugeBnz (a : BitVec 4) (i : BitVec 14)
  /-- Branches forward if one register is below another, unsigned. (R232) -/
  | gaugeBltu (a : BitVec 4) (b : BitVec 4) (i : BitVec 14)
  /-- Schedules an addition to a notify counter. (R235) -/
  | gaugeNtfy (a : BitVec 4) (i : BitVec 14)
  /-- Schedules an interrupt to the control-die cores. (R235) -/
  | gaugeIrq (v : BitVec 8)
  /-- Writes a 16-byte trace record and advances TRPOS. (R235) -/
  | gaugeTrc (a : BitVec 4) (b : BitVec 4)
  /-- Schedules freezing of the trace. (R235) -/
  | gaugeFrz
  /-- Each core clock each pipe chooses one eligible warp and group to issue. (R194) -/
  | warpIssueSelect (island : Nat) (core : Nat) (pipe : Nat)
  /-- A warp eligible for 48 or 256 clocks without issue becomes owed. (R194) -/
  | warpOwed (warp : Nat)
  /-- A warp's spin count reaching 64 drops it to the spin floor. (R42) -/
  | spinFloorFall (warp : Nat)
  /-- 16 µs of ITIME on the floor returns the warp to normal priority. (R43) -/
  | spinFloorTimeout (warp : Nat)
  /-- Returned load data is written to the destination and makes it full, unless its GEN tag is stale. (R95) -/
  | loadReturn (id : Nat)
  /-- At issue plus the divide latency every admitted lane's quotient or remainder and flags are written. (R275) -/
  | divideReturn (id : Nat)
  /-- A special function's results and flags are written at issue plus its latency. (R305) -/
  | specialFunctionReturn (id : Nat)
  /-- accrd destinations are written with their flags 8 plus COUNT clocks after issue. (R351) -/
  | accrdReturn (id : Nat)
  /-- keymap writes the owner 32 clocks after issue. (R372) -/
  | keymapReturn (id : Nat)
  /-- The loaded buffer record is written 24 clocks after issue. (R325) -/
  | ldrecComplete (id : Nat)
  /-- A stalled ldg.wait reaching 65,536 ns raises ONCE_UNWRITTEN. (R323) -/
  | onceWaitTimeout (id : Nat)
  /-- A sleeping lane becomes ready when ITIME reaches its wake time. (R343) -/
  | sleepWake (warp : Nat) (lane : Nat)
  /-- A counter change signalled by the home slice completes a waiting waitarr as acquire or overflow fault. (R216) -/
  | waitarrRelease (id : Nat)
  /-- A queued command starts 4 clocks after reaching the head, its guard decision and start condition, and makes its start checks. (R347) -/
  | engineCommandStart (warp : Nat) (queue : Nat)
  /-- One K-step of a matrix loop sums 32 exact products into each accumulator element with one rounding. (R358) -/
  | matrixKStep (warp : Nat)
  /-- A command ends with its release completion on an arrival counter or completion word. (R348) -/
  | engineCommandEnd (id : Nat)
  /-- A command waiting at a faulting line retries it on a replay trigger. (R377) -/
  | engineLineRetry (id : Nat)
  /-- A warp with no live threads and no outstanding work retires and frees its resources. (R39) -/
  | warpRetire (warp : Nat)
  /-- A block whose warps have retired and whose reductions have drained retires and posts its fault masks. (R39) -/
  | blockRetire (block : Nat)
  /-- At a grid's end the Lock-keeper frees its berm and table entry, writes the end report and bumps the DEN counter. (R185) -/
  | gridEnd (grid : Nat)
  /-- The dispatcher places the next block of a grid on a core with room, loading its entry overlay. (R188) -/
  | blockPlacement (island : Nat)
  /-- A grid whose next block has waited 16 µs reserves the partition's cores. (R187) -/
  | reservationTimeout (island : Nat)
  /-- A TAIL write enqueues launch records, which the Lock-keeper reads and validates. (R180) -/
  | lkpQtailWrite (queue : Nat) (value : Nat)
  /-- Sets a launch queue's ring base and size, ignored while records wait. (R179) -/
  | lkpQbaseWrite (queue : Nat) (value : Nat)
  /-- Sets a queue's enable, priority, partition and stop, and retests its head. (R179) -/
  | lkpQctlWrite (queue : Nat) (value : Nat)
  /-- The Lock-keeper revalidates and releases an eligible head record to its island, or refuses it. (R183) -/
  | recordRelease
  /-- A released record reaches its island's dispatcher table. (R187) -/
  | launchRecordArrival (grid : Nat)
  /-- LKP_GRIDCTL OP 1 pre-empts and parks every block of a grid. (R186) -/
  | gridPreempt (grid : Nat)
  /-- LKP_GRIDCTL OP 2 returns a parked or held grid to the dispatcher table. (R186) -/
  | gridResume (grid : Nat)
  /-- LKP_GRIDCTL OP 3 ends a grid and frees its resources. (R186) -/
  | gridEndRequest (grid : Nat)
  /-- A block is halted for save in seven ordered steps ending with its context written and resources freed. (R382) -/
  | blockHalt (block : Nat)
  /-- The dispatcher restores a saved block, then replays its request packets and log entries. (R386) -/
  | contextRestore (block : Nat)
  /-- A logged access is re-performed for its logged lanes and completes, parks again or stops the warp. (R377) -/
  | accessReplay (warp : Nat) (entry : Nat)
  /-- ISL_REPLAY.GO replays every parked access and held packet of an ASID. (R379) -/
  | replayAsid (island : Nat) (asid : Nat)
  /-- ISL_REPLAY.ALL replays every parked access and held packet of the island. (R379) -/
  | replayAll (island : Nat)
  /-- The island writes a fault record to the ring and advances TAIL, or holds it on chip while full. (R379) -/
  | faultRecordPost (island : Nat)
  /-- The host advances HEAD, making room for waiting fault records. (R379) -/
  | islFqheadWrite (island : Nat) (value : Nat)
  /-- Sets the fault ring's base and size, ignored while records wait. (R379) -/
  | islFqbaseWrite (island : Nat) (value : Nat)
  /-- A slice grants a shared lease on a span or queues the request. (R129) -/
  | gets (id : Nat)
  /-- A slice grants an exclusive lease to a core or recalls the holder. (R129) -/
  | getx (id : Nat)
  /-- A WRITE request is performed at the home slice or queued until leases and timestamps allow. (R129) -/
  | sliceWrite (id : Nat)
  /-- An ATOM request is read, operated and written in one step at the home slice. (R129) -/
  | farAtom (id : Nat)
  /-- A holder's written-back dirty words are written at the slice, releasing the holder. (R129) -/
  | wback (id : Nat)
  /-- A waiting write is performed once the slice's ITIME exceeds the words' wts and rts. (R130) -/
  | queuedWritePerform (id : Nat)
  /-- An ordered-reduction entry is applied as one far RMW at its home slice. (R136) -/
  | drainEntry (id : Nat)
  /-- An L1 receiving RECALL writes back its EX span within 64 clocks and drops it. (R128) -/
  | recall (id : Nat)
  /-- An L1 receiving DATA fills a span record without moving any word backwards. (R125) -/
  | dataMsg (id : Nat)
  /-- An L1 receiving XDATA holds an exclusive span for near atomics. (R128) -/
  | xdata (id : Nat)
  /-- A write acknowledgement updates the L1 copy and releases waiting releases. (R131) -/
  | wack (id : Nat)
  /-- A far atomic's acknowledgement returns the old value and updates the predictor. (R133) -/
  | aack (id : Nat)
  /-- An L1 span's lease reaches its expiry and is dropped, writing back dirty EX words. (R128) -/
  | leaseLapse (id : Nat)
  /-- A write in a dual-home window is mirrored to the new frame before acknowledgement. (R139) -/
  | mirrorWrite (id : Nat)
  /-- The Map Keeper copies an old-frame word to the new frame unless already mirrored. (R139) -/
  | mapkCopy (window : Nat) (word : Nat)
  /-- The old home stops serving the page and the new home adopts its leases. (R139) -/
  | switchMessage (window : Nat)
  /-- Writing ISL_COHMODE.PLAIN switches between plain mode and normal service. (R134) -/
  | cohmodePlainWrite (island : Nat) (value : Nat)
  /-- Writing 1 to ISL_COHMODE.PREDCLR removes every predictor entry of the island. (R134) -/
  | predclr (island : Nat)
  /-- The Map Keeper sets lease lengths for later grants. (R126) -/
  | islLeaseWrite (island : Nat) (value : Nat)
  /-- Writing CORE_STAT.DRAIN stops or allows placement of new blocks on the core. (R196) -/
  | coreDrainWrite (island : Nat) (core : Nat) (value : Nat)
  /-- A TAIL write hands new request records to the Map Keeper. (R152) -/
  | mapkRqtailWrite (part : Nat) (island : Nat) (value : Nat)
  /-- Sets a request ring's base, ASID and size, ignored while records wait. (R152) -/
  | mapkRqbaseWrite (part : Nat) (island : Nat) (value : Nat)
  /-- Map Keeper writes COUNT leaf entries on new or aliased frames. (R155) -/
  | map (part : Nat) (island : Nat)
  /-- Map Keeper clears leaves and returns unshared frames. (R155) -/
  | unmap (part : Nat) (island : Nat)
  /-- Map Keeper sets the R, W and X bits of a range. (R155) -/
  | protect (part : Nat) (island : Nat)
  /-- Map Keeper changes a page's type through TRANSIT for every alias. (R157) -/
  | chtype (part : Nat) (island : Nat)
  /-- Map Keeper moves frames through a dual-home window and rewrites FRAME. (R155) -/
  | migrate (part : Nat) (island : Nat)
  /-- Map Keeper makes the lowest free ASID live and returns it. (R155) -/
  | asidget (part : Nat) (island : Nat)
  /-- Map Keeper unmaps an ASID's pages and frees it. (R155) -/
  | asidput (part : Nat) (island : Nat)
  /-- An access stalled 65,536 ns in TRANSIT raises a replayable fault. (R157) -/
  | transitTimeout (id : Nat)
  /-- A router reads a packet's next hop and forwards, delivers or drops it. (R163) -/
  | routerForward (what : Forwarded)
  /-- A sender starts a packet on a port once its allowance and replay buffer have room. (R202) -/
  | packetSend (id : Nat)
  /-- Returned allowance raises a sender's send allowance for a class. (R202) -/
  | allowanceReturn (node : Nat) (port : Nat) (cls : Nat) (flits : Nat)
  /-- A far-end acknowledgement frees flits from the replay buffer. (R202) -/
  | flitAcknowledge (node : Nat) (port : Nat) (flits : Nat)
  /-- A receiver finding an uncorrectable codeword or sequence gap discards and asks for replay. (R202) -/
  | codewordError (node : Nat) (fault : CodewordFault)
  /-- A sender receiving a replay request resends from the named flit. (R202) -/
  | replayRequest (node : Nat) (port : Nat) (seq : Nat)
  /-- Sixteen replays without progress send the port to RELOCK. (R205) -/
  | replayLimit (node : Nat) (port : Nat)
  /-- A wavelength source failing its BER or photocurrent test is replaced, narrowed or fails the port. (R199) -/
  | sourceFailure (node : Nat) (port : Nat) (window : SourceWindow)
  /-- The receiving end receives a wavelength change request and acknowledges it. (R200) -/
  | wavelengthChangeRequest (node : Nat) (port : Nat)
  /-- The sending end holds data at a codeword boundary and enables the spare. (R200) -/
  | wavelengthChangeAck (node : Nat) (port : Nat)
  /-- The new mask takes force in both directions and data resumes with replay. (R200) -/
  | wavelengthChangeComplete (node : Nat) (port : Nat)
  /-- OPT_PCTL.DRAIN sends a drain marker and moves an UP port to DRAINING. (R205) -/
  | drain (node : Nat) (port : Nat)
  /-- OPT_PCTL.DARK turns a DRAINED port's lasers off. (R205) -/
  | dark (node : Nat) (port : Nat)
  /-- OPT_PCTL.RELOCK starts training of a DARK or FAILED port. (R205) -/
  | relock (node : Nat) (port : Nat)
  /-- OPT_PCTL.CLRERR clears OPT_PERR. (R204) -/
  | clrerr (node : Nat) (port : Nat)
  /-- The far end's acknowledgement of the marker, with an empty replay buffer, makes the port DRAINED. (R205) -/
  | drainMarkerAck (node : Nat) (port : Nat)
  /-- A port dark for DARKMAX goes to FAILED. (R205) -/
  | darkmaxExpiry (node : Nat) (port : Nat)
  /-- Loss of light sends an UP port to RELOCK. (R205) -/
  | lightLoss (node : Nat) (port : Nat)
  /-- A RELOCK port completes training and returns to UP with held or reset allowances. (R205) -/
  | portTrained (node : Nat) (port : Nat) (farNode : Nat) (farPort : Nat) (farPanel : Nat)
  /-- A port not trained within 1 ms of RELOCK goes to FAILED. (R205) -/
  | relockTimeout (node : Nat) (port : Nat)
  /-- A put packet's payload is written at the target and its byte count added to the target counter, or refused. (R87) -/
  | putPacketAtTarget (id : Nat)
  /-- A get request reads the target window and returns data in the response class. (R366) -/
  | getRequestAtTarget (id : Nat)
  /-- A ratom performs one RMW at the target's home slice and returns its result. (R87) -/
  | ratomAtTarget (id : Nat)
  /-- After a target addition the source counter gains the packet's bytes. (R214) -/
  | sourceCounterAdvance (id : Nat)
  /-- Returned get data is written locally and added to the local counter. (R366) -/
  | getDataReturn (id : Nat)
  /-- A ratom result is written to RES and added to the source counter. (R367) -/
  | ratomResultReturn (id : Nat)
  /-- An error notice at the source sets the counter's ERR and posts its class for the warp. (R207) -/
  | errorNotice (id : Nat)
  /-- A source receiving a retry notice schedules the packet again. (R381) -/
  | retryNotice (id : Nat)
  /-- 16 µs after a retry notice the source sends the packet again. (R381) -/
  | retryResend (id : Nat)
  /-- A notify reaches its counter and adds, saturates or is refused, and the Lock-keeper re-evaluates. (R218) -/
  | notifyAddition (id : Nat)
  /-- A host write to a notify counter changes it and triggers evaluation of waiting records. (R217) -/
  | islNctrWrite (island : Nat) (counter : Nat) (value : Nat)
  /-- The control die writes a rank-table entry, evicting it from the rank cache and waking HELD waiters. (R166) -/
  | rankEntryWrite (job : Nat) (island : Nat) (rank : Nat) (value : Nat)
  /-- 64 ns without a parent reference puts the island into HOLD. (R171) -/
  | referenceLoss (loss : ClockLoss)
  /-- The Lock-keeper builds and commits a tree changing only orphaned islands' parents. (R172) -/
  | reroot
  /-- An island relocks to its parent, realigns ITIME forwards and leaves HOLD. (R141) -/
  | islandRelock (island : Nat)
  /-- PTIME reaching a held fast ITIME lets ITIME count again and clears FAST. (R141) -/
  | itimeCatchUp (island : Nat)
  /-- GO starts a topology update, sending the staged table to every router. (R174) -/
  | lkpTstageGo (value : Nat)
  /-- A router checks a proposed table and answers ACCEPT or REJECT. (R162) -/
  | tableVerify (check : RouterCheck)
  /-- The Lock-keeper collects answers, names a commit instant, retries or builds a fencing table. (R174) -/
  | tableAnswer
  /-- At the commit instant every router puts the new table in force. (R174) -/
  | tableCommit
  /-- Each 1 ms boundary moves CUR into BANK and refills CUR. (R395) -/
  | budgetPeriodBoundary (island : Nat)
  /-- Writes a partition's allotment or burst cap, clamped by its parent. (R394) -/
  | partBudWrite (part : Nat) (island : Nat) (value : Nat)
  /-- Creates, reparents or removes a partition subject to its users. (R388) -/
  | partCfgWrite (part : Nat) (value : Nat)
  /-- Changes a partition's clusters; cleared bits shrink it and pre-empt blocks on them. (R390) -/
  | partSliceWrite (part : Nat) (island : Nat) (value : Nat)
  /-- Sets bandwidth weights and capacity shares, refused if they break the parent's limits. (R393) -/
  | partShareWrite (part : Nat) (island : Nat) (value : Nat)
  /-- Sets a partition's time offset for guest views. (R398) -/
  | partToffWrite (part : Nat) (value : Nat)
  /-- Maps a presented core or island number to a physical one. (R399) -/
  | partPresWrite (part : Nat) (island : Nat) (presented : Nat) (value : Nat)
  /-- ROT_ATREQ.GO queues a signed attestation report. (R403) -/
  | attestationRequest (part : Nat)
  /-- The root of trust fills and signs a report buffer and clears BUSY. (R403) -/
  | attestationReport
  /-- The host enrols an owner image key before full function. (R401) -/
  | imageKeyEnrol (slot : Nat) (key : Nat)
  /-- Enrolled keys are locked and extended into ROT_MEAS3. (R402) -/
  | imageKeyLock
  /-- A hardware event is matched and sampled at its source and queued for the gauge, or dropped. (R228) -/
  | gaugeEvent (gauge : Nat) (code : Nat) (unit : Nat) (part : Option Nat) (payload : Nat)
  /-- The gauge starts a run for the head event if budgets allow, else drops it. (R239) -/
  | gaugeRunStart (gauge : Nat)
  /-- A run ends and its notify additions, interrupts and freeze take effect after its writes. (R235) -/
  | gaugeRunEnd (gauge : Nat)
  /-- Writing EN 1 starts verification of an attachment's program. (R229) -/
  | tgpAttEnable (gauge : Nat) (att : Nat) (value : Nat)
  /-- Verification ends, accepting the attachment or leaving EN 0 with BAD set. (R229) -/
  | tgpAttVerifyEnd (gauge : Nat) (att : Nat)
  /-- Writing EN 0 discards the attachment's queued events. (R229) -/
  | tgpAttDisable (gauge : Nat) (att : Nat) (value : Nat)
  /-- Clearing IPEND acknowledges an attachment's interrupt. (R227) -/
  | ipendClear (gauge : Nat) (att : Nat)
  /-- Sets a partition's gauge window and trace ring, resetting TRPOS on a TRLEN write. (R236) -/
  | tgpGwinWrite (gauge : Nat) (part : Nat) (value : Nat)
  /-- Sets a partition's gauge instruction allotment, clamped by its parent. (R239) -/
  | tgpBudWrite (gauge : Nat) (part : Nat) (value : Nat)
  /-- Each gauge period boundary refills LEFT from ALLOT. (R239) -/
  | gaugeBudgetPeriod (gauge : Nat)
  /-- Power-on begins a cold start. (R405) -/
  | powerOn
  /-- START_CTL.WARM begins a warm start. (R405) -/
  | startWarm
  /-- START_CTL.COLD begins a cold start. (R405) -/
  | startCold
  /-- The ROM verifies the firmware and starts management, power control and the panel gauge. (R404) -/
  | stage0 (found : PanelFound)
  /-- The start tree is built, PTIME set to 0, and islands lock and enter HOLD. (R173) -/
  | stage1
  /-- Each island trains HBM4E and optics and tests cores, using or rewriting saved results. (R406) -/
  | stage2 (results : List SiteResult)
  /-- The first table is committed, services start, PLAIN is cleared and HOLD is left. (R175) -/
  | stage3
  /-- With an invalid image the ROM accepts a new one over the management port and begins a cold start. (R404) -/
  | firmwareRecovery (image : List (BitVec 8))
  /-- Every 100 µs the clock or issue gate is stepped against the power and temperature limits. (R411) -/
  | powerControlAction (island : Nat) (power : Nat) (temp : Nat)
  /-- An uncorrectable HBM4E error returns poison and counts toward fencing the island. (R410) -/
  | hbmUncorrectable (island : Nat) (error : HbmError)
  /-- An uncorrectable core soft error with a failed self-check drains and retires the core. (R408) -/
  | coreSoftError (island : Nat) (core : Nat) (fails : Bool)
  /-- Each second the optical engine refreshes laser bias, monitor, temperature and ageing figures. (R211) -/
  | laserAgeingRefresh (node : Nat) (port : Nat) (source : Nat) (lasa : Nat) (lasb : Nat)
  /-- A W1C write clears REPLACE_REQUEST. (R409) -/
  | replaceRequestClear
  /-- A write to any register without its own row changes its RW, W1C and W1S fields. (R5) -/
  | registerWrite (reg : RegName) (index : Nat) (value : Nat)
  /-- Loading a Belyel image for partition p extends ROT_PMEASp with the image's SHA-384 digest. (R402) -/
  | belyelImageLoad (place : LoadPlace) (image : List (BitVec 8))
  /-- A host or driver write to gauge memory or program memory takes effect between two runs, and is ignored where an enabled attachment covers the word. (R237) -/
  | gaugeMemoryWrite (reach : GaugeReach) (address : Nat) (bytes : List (BitVec 8))
  /-- A port's far end receives a drain marker behind the accepted data flits and acknowledges it. (R205) -/
  | drainMarker (node : Nat) (port : Nat)
  /-- A GETX on a SEQ span that waits for ITIME to pass the words' rts is granted XDATA once the leases lapse. (R129) -/
  | queuedGetxGrant (id : Nat)
  deriving DecidableEq, Repr

end Sys2Proof
end

