-- ==== Sys2Proof/Machine/Geometry.lean ====
section
/-!
DEFINITION. The panel's fixed geometry (R9 to R13): where each port leads, what kind of port it is on a panel with given
live sites, the start tree of R173, the numbers of system registers and their reset values.
-/
namespace Sys2Proof.Machine

/-- Far end of a port (R12, R13): node and port, or none where the far end lies off the grid. Node 24's ports are those
of R161. -/
def farEnd (node port : Nat) : Option (Nat × Nat) :=
  let r := node / 6
  let c := node % 6
  if node = 24 then
    if port < 8 then some (19 + port / 2, 4 + port % 2) else none
  else if 24 < node then none
  else if 19 ≤ node && node ≤ 22 && (port = 4 || port = 5) then some (24, 2 * (node - 19) + (port - 4))
  else match port with
  | 0 | 1 => if 1 ≤ r then some (node - 6, port + 4) else none
  | 2 | 3 => if c < 5 then some (node + 1, port + 4) else none
  | 4 | 5 => if r < 3 then some (node + 6, port - 4) else none
  | 6 | 7 => if 1 ≤ c then some (node - 1, port - 4) else none
  | 8 => if 2 ≤ r then some (node - 12, 10) else none
  | 9 => if c < 4 then some (node + 2, 11) else none
  | 10 => if r < 2 then some (node + 12, 8) else none
  | 11 => if 2 ≤ c then some (node - 2, 9) else none
  | _ => none

/-- Perimeter sites (R9). -/
def isPerimeter (node : Nat) : Bool :=
  node / 6 = 0 || node / 6 = 3 || node % 6 = 0 || node % 6 = 5

/-- Kind of a port of a live site, given which sites are live (R13, R161): 0 absent, 1 in-panel link, 2 fibre,
3 control-die link. -/
def portKind (live : Nat → Bool) (node port : Nat) : Nat :=
  if node = 24 then
    match farEnd 24 port with
    | some (n, _) => if live n then 3 else 0
    | none => 0
  else if 12 ≤ port then 0
  else match farEnd node port with
  | some (24, _) => 3
  | some (n, _) => if live n then 1 else 0
  | none => if isPerimeter node then 2 else 0

/-- One round of the breadth-first search of R173: sites joined so far as (site, parent port, depth); a new site takes
the lowest-numbered parent of least depth, over its own lowest port. -/
def treeRound (usable : Nat → Nat → Bool) (depth : Nat) (tree : List (Nat × Nat × Nat)) : List (Nat × Nat × Nat) :=
  let inTree (n : Nat) : Bool := tree.any fun t => t.1 == n
  let atDepth (n : Nat) : Bool := tree.any fun t => t.1 == n && t.2.2 == depth
  let candidates (n : Nat) : List (Nat × Nat) :=
    (List.range 12).filterMap fun p =>
      match farEnd n p with
      | some (m, _) => if usable n p && m ≠ 24 && atDepth m then some (m, p) else none
      | none => none
  let best (l : List (Nat × Nat)) : Option (Nat × Nat) :=
    l.foldl (fun b x => match b with
      | none => some x
      | some y => if x.1 < y.1 || (x.1 == y.1 && x.2 < y.2) then some x else some y) none
  tree ++ (List.range 24).filterMap fun n =>
    if inTree n then none
    else match best (candidates n) with
      | some (_, p) => some (n, p, depth + 1)
      | none => none

/-- The start tree (R173) over the given usable ports, as (site, parent port, depth): depths above 7 are not reached. -/
def startTree (usable : Nat → Nat → Bool) : List (Nat × Nat × Nat) :=
  let roots := [19, 20, 21, 22].filterMap fun n =>
    if usable n 4 then some (n, 4, 0) else if usable n 5 then some (n, 5, 0) else none
  (List.range 7).foldl (fun t d => treeRound usable d t) roots

/-- A number for each system register, for the map of their values. -/
def regCode : RegName → Nat
  | .coreStat => 0
  | .corePipe => 1
  | .islDstat => 2
  | .lkpQbase => 3
  | .lkpQtail => 4
  | .lkpQhead => 5
  | .lkpQctl => 6
  | .lkpGridctl => 7
  | .mapkRqbase => 8
  | .mapkRqtail => 9
  | .mapkRqhead => 10
  | .islLease => 11
  | .islCohmode => 12
  | .clkStat => 13
  | .lkpTstage => 14
  | .lkpTupd => 15
  | .optPstat => 16
  | .optPctl => 17
  | .optPerr => 18
  | .optPfar => 19
  | .optFocfg => 20
  | .optLasa => 21
  | .optLasb => 22
  | .islNctr => 23
  | .corePmc => 24
  | .islPmc => 25
  | .corePmsel => 26
  | .islPmsel => 27
  | .tgpAtt => 28
  | .tgpAdrop => 29
  | .tgpGwin => 30
  | .tgpScnt => 31
  | .tgpBud => 32
  | .islFqbase => 33
  | .islFqtail => 34
  | .islFqhead => 35
  | .islFqstat => 36
  | .islReplay => 37
  | .partCfg => 38
  | .partSlice => 39
  | .partShare => 40
  | .partBud => 41
  | .partTok => 42
  | .partToff => 43
  | .partPres => 44
  | .partIpres => 45
  | .rotMeas => 46
  | .rotPmeas => 47
  | .rotAtreq => 48
  | .startCtl => 49
  | .startStat => 50
  | .hbmErr => 51
  | .pwrIsl => 52
  | .pwrPanel => 53
  | .rotAtbuf => 54
  | .rotCert => 55

/-- The key of register `r`, index `i`, in the map of register values. -/
def regKey (r : RegName) (i : Nat) : Nat := regCode r * 2 ^ 40 + i

/-- Index of a per-core register. -/
def coreIx (island core : Nat) : Nat := island * 160 + core
/-- Index of a per-port register; node 24 is the control die. -/
def portIx (node port : Nat) : Nat := node * 16 + port
/-- Index of a laser source's registers (R211): port number × 9 + source, per node. -/
def laserIx (node port source : Nat) : Nat := node * 256 + port * 9 + source
/-- Index of a partition's register on an island. -/
def partIx (part island : Nat) : Nat := part * 32 + island
/-- Index of a presented core number. -/
def presIx (part island c : Nat) : Nat := (part * 32 + island) * 256 + c
/-- Index of a gauge's per-partition register. -/
def gaugeIx (gauge part : Nat) : Nat := gauge * 128 + part
/-- Index of one of eight counters or stacks. -/
def eightIx (unit n : Nat) : Nat := unit * 8 + n

/-- Reset values of the registers kept as written (the Reset columns of their rules; log entries 5, 6 and 8 for those
the spec leaves to the device). -/
def regReset (r : RegName) (i : Nat) : Nat :=
  match r with
  | .islLease => 0x40011004
  | .optFocfg => 0x00321445
  | .optLasa => if i % 256 % 9 = 8 then 2 ^ 40 else 0
  | .optLasb => 0xFFFFFFFF00000000
  | .partCfg => if i = 0 then 1 else 0
  | .partSlice => if i < 32 then 0xFFFFF else 0
  | .partBud => 0x1FFFFFFFF
  | .partPres => i % 256
  | .partIpres => i % 32
  | .tgpBud => if i % 128 = 0 then 0xFFFFFFFFFFFF else 0
  | .hbmErr => 2 ^ 48
  | .pwrIsl => 1100 + 2000 * 2 ^ 22
  | .pwrPanel => 2800
  | _ => 0

end Sys2Proof.Machine
end

