-- ==== Sys2Proof/Machine/State.lean ====
section
/-!
DEFINITION. The state of one CLB-P24 panel as plain data: every register, memory, table, queue and counter the spec gives
it, the reasons a step can stop, and the state at the end of a cold start (R5). INVENTORY.md lists each piece with its rule.
-/
namespace Sys2Proof.Machine

/-- Why a step faults. -/
inductive Fault where
  /-- Raised by every Umavi meaning when no issue group is in progress: `exec` was asked to run an instruction nobody
  issued. Safe: `step` never does so, and nothing is claimed of it. -/
  | noIssueGroup
  /-- Raised by every gauge meaning when no gauge run is in progress. Safe, as above. -/
  | noGaugeRun
  deriving DecidableEq, Repr

/-- Why a step is refused. -/
inductive Refusal where
  /-- Raised by an arm of `exec` whose instruction has no meaning yet. Safe: nothing is claimed of it. -/
  | notModelled (mnemonic : String)
  /-- Raised by `step` when a running gauge program fetches a word that verification refuses (R229): the spec gives such
  a word no effect. Safe. -/
  | gaugeWord
  deriving DecidableEq, Repr

/-- A program counter: an instruction store slot and a word offset (R23). -/
structure PC where
  slot : Nat
  ofs : Nat
  deriving DecidableEq, Repr

/-- The thread states of R23. A thread waiting at a collective stands Active at its PC (R34, R384). -/
inductive ThreadState where
  | active | atBarrier | parked | helper | switchedOff | exited
  deriving DecidableEq, Repr

/-- One thread (R23, R92, R104). -/
structure Thread where
  st : ThreadState
  pc : PC
  /-- first word after the block whose header the thread entered last (R240); 0 until it has entered one -/
  blockEnd : Nat
  /-- it has entered a block since its launch (R241) -/
  entered : Bool
  /-- LIVE of that header (R94) -/
  live : Nat
  depth : Nat
  rcp : Option PC
  /-- p0 to p6 in bits 0 to 6 -/
  p : BitVec 7
  lstat : BitVec 32
  /-- barrier number while the thread waits at a barrier (R333) -/
  bar : Nat
  /-- ITIME at which a sleeping lane is ready (R343) -/
  wake : Option Nat
  /-- load, WBACK, drain or fence on which the thread's next issue waits: the ids it names must be gone -/
  hold : List Nat
  deriving DecidableEq, Repr

/-- One lane's copy of a v register (R92). -/
structure VReg where
  val : BitVec 32
  full : Bool
  dead : Bool
  deriving DecidableEq, Repr

/-- A v register at warp start (R92). -/
def VReg.start : VReg := ⟨0, true, false⟩

/-- The four states of a guard slot (R100). -/
inductive GuardState where
  | none | pending | isTrue | isFalse
  deriving DecidableEq, Repr

/-- One ordered-reduction entry (R135). -/
structure RedEntry where
  pa : Nat
  aop : Nat
  ty : Nat
  value : Nat
  rnd : Nat
  seed : Nat
  pipe : Nat
  warpNo : Nat
  lane : Nat
  seq : Nat
  deriving DecidableEq, Repr

/-- One entry of the operand log, or a request packet of a halted warp (R375, R383). -/
structure LogEntry where
  num : Nat
  /-- the instruction's first and second word -/
  words : List Word
  pc : PC
  ovl : Nat
  /-- parked lanes, or for `sldg` the admitted lanes -/
  lanes : List Nat
  /-- (lane, operand number, value) as read at issue; `LogEntry.operand` gives the numbers -/
  ops : List (Nat × Nat × Nat)
  brec : BitVec 128
  gen : Nat
  issueTime : Nat
  seed : Nat
  /-- true for an entry of a parked access, false for a request packet -/
  parkedLanes : Bool
  /-- a trigger of R377 has come and the replay is not yet made -/
  replay : Bool
  /-- lanes whose replayed load has been sent and has not returned: they stay parked until its result is written (R376) -/
  going : List Nat
  /-- type of the page at which a scalar load is parked (R71); 4 where its page does not translate -/
  ptype : Nat
  deriving DecidableEq, Repr

/-- One engine command, queued or running (R191, R346, R384). -/
structure Cmd where
  id : Nat
  op : Nat
  w : WordE
  /-- values of S1 to S5 at issue -/
  sv : List Nat
  brec : BitVec 128
  brec2 : BitVec 128
  /-- arming number of the guard slot it waits on; the decision when known -/
  arm : Nat
  decided : Option Bool
  /-- core clock at which its last start condition came to hold -/
  headAt : Option Nat
  running : Bool
  pc : PC
  ovl : Nat
  /-- lane of a `ratom`'s stochastic draw: free (log 2) -/
  lane : Nat
  seed : Nat
  /-- counters of a loop (R384); `n` also holds a `ratom`'s rounding, or that a command's effect is made -/
  m : Nat
  n : Nat
  k : Nat
  bytes : Nat
  /-- faulting line at which the command waits (R347), with its class -/
  lineFault : Option (Nat × Nat)
  /-- events of the issuing group before the command: they happen before its own (R86, R369) -/
  after : List Nat
  /-- rank entry read at start (R167) -/
  rankEntry : Nat
  /-- packets sent and not yet answered -/
  inFlight : Nat
  /-- core clock at which a loop ends (R360), or by which `wbzero` ends (R352) -/
  doneAt : Nat
  /-- bytes of a B tile read so far (R353), or the rest of an element that the end of a fill's region has cut (R349) -/
  stage : List Byte
  /-- a loop's K-step is in progress: it goes on to its end whatever stops the loop (R349, R384) -/
  begun : Bool
  deriving DecidableEq, Repr

/-- One warp (R22, R92, R99 to R105). -/
structure Warp where
  block : Nat
  warpNo : Nat
  pipe : Nat
  /-- lanes 0 to WARPW - 1 -/
  threads : List Thread
  /-- key 32 × register + lane -/
  v : NMap VReg
  s : NMap Word
  sEmpty : List Nat
  q : BitVec 7
  g : NMap GuardState
  gArm : NMap Nat
  /-- for each guard slot, the events before the `gset` that resolved it which were not yet performed then (R86) -/
  gAfter : NMap (List Nat)
  b : NMap (BitVec 128)
  mode : BitVec 32
  tilew : BitVec 32
  srseed : BitVec 64
  gen : BitVec 8
  mark : BitVec 24
  wfault : BitVec 64
  wfaultPc : PC
  wfaultOvl : Nat
  /-- physical tile of each owned accumulator name (R350) -/
  acc : List Nat
  /-- register granules (R93) -/
  gran : Nat
  spinPc : Option PC
  spinCount : Nat
  /-- watched regions, as byte addresses of the model's memory divided by 256 -/
  watch : List Nat
  floor : Bool
  floorAt : Nat
  /-- issues for which each ready group, keyed by its lowest lane, was passed over (R30) -/
  passed : NMap Nat
  /-- core clocks eligible without issue (R194) -/
  waited : Nat
  owed : Option Nat
  /-- stopped by a warp-stopping fault (R378); the log entry to replay, if the stop came from a replay -/
  stopped : Bool
  stopReplay : Option Nat
  /-- lanes whose stopped instruction was `trap` (R378) -/
  stopTrap : List Nat
  log : List LogEntry
  mq : List Cmd
  xq : List Cmd
  fq : List Cmd
  red : List RedEntry
  /-- contributions that found no free entry and enter once the implicit flush is complete (R135, R136) -/
  redLate : List RedEntry
  redSeq : Nat
  retired : Bool
  /-- restored, and not issued since: its replays come before its first issue (R386) -/
  restored : Bool
  deriving DecidableEq, Repr

/-- A slot tag (R118): image, overlay, source VA and ASID; no tag names nothing. -/
structure SlotTag where
  image : Nat
  ovl : Nat
  va : Nat
  asid : Nat
  deriving DecidableEq, Repr

/-- One resident or saved block (R35, R108, R385). -/
structure Block where
  grid : Nat
  blockId : Nat
  island : Nat
  core : Nat
  presCore : Nat
  presCluster : Nat
  warps : List Nat
  warpw : Nat
  /-- byte offset of the block window in the core's scratchpad, and its size -/
  scrBase : Nat
  scrSize : Nat
  sliceBase : Nat
  sliceSize : Nat
  callArea : Nat
  /-- byte offset and size of the weight-buffer share -/
  wbBase : Nat
  wbSize : Nat
  slots : List Nat
  placed : Nat
  halting : Bool
  /-- the context lies in the save area; the block holds no core -/
  saved : Bool
  /-- step of the halt in progress (R382): 0 not begun, 1 request packets made, entries draining -/
  haltStep : Nat
  /-- the held slots as saved: (slot, tag, listed bytes from the slot's start) -/
  savedSlots : List (Nat × Option SlotTag × List Host.Cell)
  /-- granule tags of the weight-buffer share as saved, the granules counted from the share's start -/
  savedTags : NMap (Nat × Nat)
  savedMem : List Host.Cell
  savedAcc : List Host.Cell
  retired : Bool
  deriving DecidableEq, Repr

/-- What a grid is doing. -/
inductive GridStatus where
  | released | inTable | parked | held | ended
  deriving DecidableEq, Repr

/-- One grid: the released record and its progress (R180, R185 to R189). -/
structure Grid where
  record : List Word
  island : Nat
  part : Nat
  prio : Nat
  status : GridStatus
  nextBlock : Nat
  arrival : Nat
  /-- ITIME since which the next block has waited (R187) -/
  waitingSince : Option Nat
  bermBase : Nat
  image : Nat
  priv : Bool
  /-- the island number the grid reads (R38, R399) -/
  presIsland : Nat
  blocks : List Nat
  /-- blocks of the grid that have retired -/
  done : Nat
  endCode : Nat
  endClass : Nat
  /-- halt every block; the operation behind BUSY -/
  preempting : Bool
  deviceLaunch : Bool
  /-- hardware clusters that a resident cooperative grid holds (R189) -/
  clusters : List Nat
  /-- core of block 0, the unit of its gauge events (R226) -/
  core0 : Nat
  /-- it was parked or held whole and is being restored: its blocks come first (R187) -/
  returning : Bool
  deriving DecidableEq, Repr

/-- The states of an L1 span record (R128); INV is the absence of a record. -/
inductive SpanState where
  | sh | ex | ow | pv
  deriving DecidableEq, Repr

/-- One L1 span record (R125, R128). Words are numbered by the model's byte address divided by 4. -/
structure SpanRec where
  id : Nat
  island : Nat
  core : Nat
  words : List Nat
  st : SpanState
  expiry : Nat
  wts : Nat
  ptype : Nat
  data : List Host.Cell
  /-- byte addresses written and not written back -/
  dirty : List Nat
  /-- words that another fill of the frame has replaced, so that they and their 8-byte partners are not of one read (R70) -/
  torn : List Nat
  /-- atomics performed on an EX span (R133) -/
  atomics : Nat
  deriving DecidableEq, Repr

/-- Kinds of coherence message (R129) and of the model's own waits on them: `mirror` is a write being mirrored (R139), `engine` the
place in the slice's queue of an access that comes from no L1 and must wait. -/
inductive MsgKind where
  | gets | getx | write | atom | wback | data | xdata | wack | aack | recall | drain | mirror | engine
  deriving DecidableEq, Repr

/-- One lane's part of an atomic (R328). -/
structure AtomOp where
  lane : Nat
  pa : Nat
  aop : Nat
  ty : Nat
  rnd : Nat
  seed : Nat
  d : Nat
  cmp : Nat
  deriving DecidableEq, Repr

/-- One coherence message in flight or queued at its slice (R129). -/
structure Msg where
  id : Nat
  kind : MsgKind
  island : Nat
  core : Nat
  warp : Nat
  /-- lanes whose event it is -/
  lanes : List Nat
  gen : Nat
  /-- the words it names -/
  words : List Nat
  ptype : Nat
  cls : Nat
  cells : List Host.Cell
  ops : List AtomOp
  /-- (lane, old value) of the atomics performed -/
  olds : List (Nat × Nat)
  ts : Nat
  expiry : Nat
  /-- words of a DATA that the L1 may keep (R83, R85, R128, R140), as fixed when it was granted -/
  keep : List Nat
  /-- SOLO of an AACK; that a write has waited on a lease; for a WBACK, that the span is given up; for a GETX, that it stands for an
  atomic of plain mode, which runs near only where its span is held (R134); for an engine's place, that it is a write -/
  solo : Bool
  /-- the load or atomic that asked, if any -/
  asker : Option Nat
  /-- place in the slice's queue, once it waits there (R129), and the ITIME of its arrival -/
  arr : Option Nat
  since : Nat
  part : Nat
  /-- an acquire, or an access to a SEQ page with a read (R75); for a drain, that it is performed at its slice -/
  acq : Bool
  /-- earlier events of its threads that must be performed first (R75, R131) -/
  after : List Nat
  deriving DecidableEq, Repr

/-- What returns a late result (R95). -/
inductive PendKind where
  | load | loadWait | scalarLoad | atomic | divide | special | accrd | keymap | ldrec | ratom
  deriving DecidableEq, Repr

/-- One lane's part of an outstanding load: its address and the bytes it forwards from its own writes (R131). -/
structure LaneLoad where
  lane : Nat
  helper : Bool
  pa : Nat
  fwd : List Host.Cell
  deriving DecidableEq, Repr

/-- An outstanding instruction whose result returns after issue (R95). Lanes of an `ldg.wait` that stall have a record each (R323),
under one number `inst`. -/
structure Pend where
  id : Nat
  inst : Nat
  warp : Nat
  gen : Nat
  kind : PendKind
  /-- destination register (a v register, an s register or a b register) and the access size in bytes -/
  dst : Nat
  size : Nat
  lanes : List LaneLoad
  /-- bytes received so far -/
  got : List Host.Cell
  /-- lanes whose read met an uncorrectable error: they receive poison (R410) -/
  bad : List Nat
  /-- messages not yet answered -/
  waiting : List Nat
  /-- lanes whose event a scalar load is (R325) -/
  who : List Nat
  /-- results known: (lane, register, value) -/
  writes : List (Nat × Nat × BitVec 32)
  flags : List (Nat × BitVec 32)
  due : Nat
  issueTime : Nat
  /-- an acquire of cluster or island scope, or a read of a SEQ page (R128) -/
  drops : Bool
  words : List Word
  pc : PC
  ovl : Nat
  brec : BitVec 128
  /-- (lane, operand number, value) as read at issue -/
  ops : List (Nat × Nat × Nat)
  seed : Nat
  /-- the operand log entry whose replay it is, if it is one: the entry is freed once the result is written (R376) -/
  entry : Option Nat
  deriving DecidableEq, Repr

/-- A group that waits at `waitarr` (R216). -/
structure WaitArr where
  id : Nat
  warp : Nat
  lanes : List Nat
  /-- the `waitarr` itself -/
  pc : PC
  pa : Nat
  since : Nat
  gen : Nat
  /-- what the `waitarr` needs to translate its counter again -/
  entry : LogEntry
  /-- the translation it went by is removed: it translates again (log 136) -/
  stale : Bool
  deriving DecidableEq, Repr

/-- Slice directory entry of one word (R129). -/
structure DirWord where
  wts : Nat
  rts : Nat
  holder : Option Nat
  lastAtom : Option Nat
  deriving DecidableEq, Repr

/-- A translation held in a TLB or walk cache (R147). -/
structure TlbEntry where
  island : Nat
  /-- core of a first-level TLB; none for the last level -/
  core : Option Nat
  asid : Nat
  gen : Nat
  va : Nat
  sizeLog : Nat
  leaf : Nat
  /-- level of a walk-cache pointer entry; none for a translation -/
  level : Option Nat
  deriving DecidableEq, Repr

/-- A dual-home window (R139). -/
structure DualHome where
  island : Nat
  newIsland : Nat
  oldPa : Nat
  newPa : Nat
  size : Nat
  mirrored : List Nat
  copied : Nat
  part : Nat
  deriving DecidableEq, Repr

/-- An access stalled at translation by TRANSIT (R157), as the log entry it would make; the entry has the number of the one that other
lanes of the instruction are parked under, so that an instruction has one entry (R375). -/
structure Stall where
  id : Nat
  warp : Nat
  entry : LogEntry
  since : Nat
  va : Nat
  /-- for an engine command, that the access was a write (R380) -/
  write : Bool
  deriving DecidableEq, Repr

/-- A request the Map Keeper is carrying out over several events (R155, R157, R139), until its answer is written (R153). -/
structure MapJob where
  part : Nat
  island : Nat
  op : Nat
  /-- the effect is made and the answer is due -/
  answer : Bool
  asid : Nat
  /-- frames concerned, as (address, size), and the leaf entries that name them -/
  frames : List (Nat × Nat)
  leaves : List Nat
  /-- the leaf's new type, class and owner, as bits of a leaf (R145) -/
  leaf : Nat
  /-- dwords 6 and 7 of the answer -/
  dword6 : Nat
  dword7 : Nat
  deriving DecidableEq, Repr

/-- One page the Map Keeper has mapped: where its leaf entry stands (R158; log 9). -/
structure MapEntry where
  island : Nat
  asid : Nat
  va : Nat
  sizeLog : Nat
  pa : Nat
  deriving DecidableEq, Repr

/-- Clock state and counters of one island (R170, R219, R220). -/
structure Island where
  itime : Nat
  ptime : Nat
  /-- the half of a nanosecond already counted -/
  half : Bool
  parent : Nat
  cls : Nat
  lock : Bool
  inHold : Bool
  orphan : Bool
  fast : Bool
  holds : Nat
  tver : Nat
  reference : Bool
  /-- the transmit, and the receive, side of its clock forwarder has failed (R172) -/
  txFailed : Bool
  rxFailed : Bool
  seqNo : Nat
  placed : Nat
  /-- grids that hold a reservation, at most one of each partition, the oldest first (R187) -/
  reservers : List Nat
  onchip : List (List Word)
  waitPost : List (List Word)
  powered : Bool
  deriving DecidableEq, Repr

/-- Per-core state outside the warps (R118, R133, R354). -/
structure Core where
  tags : NMap SlotTag
  /-- entries: (region and start word, counter, last use) -/
  predictor : List (Nat × Nat × Nat)
  /-- tags of weight-buffer granules: (WFMT × 2 + SP, origin) (R354) -/
  wtags : NMap (Nat × Nat)
  /-- last core clock in which the divider of a pipe is held (R275) -/
  divider : NMap Nat
  deriving DecidableEq, Repr

/-- Kinds of packet (R201) and of notice. -/
inductive PacketKind where
  | putData | getRequest | ratomReq | notify | launchRec | getData | ratomResult | completion | errorNotice | retryNotice
  deriving DecidableEq, Repr

/-- Where a packet is. -/
inductive PacketPlace where
  | atRouter (node : Nat) | outPort (node port : Nat) | onLink (node port : Nat) | atTarget (node : Nat)
  | stored (node : Nat) | retryWait (due : Nat) | offPanel (node port : Nat)
  deriving DecidableEq, Repr

/-- One packet (R87, R163, R201). -/
structure Packet where
  id : Nat
  kind : PacketKind
  place : PacketPlace
  src : Nat
  /-- route word and the hops used so far, with the reverse path written into them (R201) -/
  route : Nat
  hop : Nat
  back : List Nat
  grid : Nat
  warp : Nat
  gen : Nat
  cmd : Nat
  job : Nat
  rank : Nat
  win : Nat
  ofs : Nat
  payload : List Byte
  len : Nat
  tcen : Bool
  tcwin : Nat
  tcofs : Nat
  scen : Bool
  scva : Nat
  asid : Nat
  op : AtomOp
  ret : Bool
  res : Nat
  cls : Nat
  part : Nat
  record : List Word
  /-- ITIME since which it stalls at a page in TRANSIT at its target (R157), with the ASID and the address -/
  since : Option (Nat × Nat × Nat)
  /-- who sent the transfer: 0 this panel's own units, 1 another panel (R208), 2 software of the control-die cores (R16) -/
  origin : Nat
  /-- it has crossed a fibre: later routers check its remaining hops (R208) -/
  crossed : Bool
  /-- an error notice for a dropped response, whose sender has no transfer of its own (R207) -/
  ofResp : Bool
  /-- of a `notify`, the core, WARPID, BLOCKID and mark of its issue: its refusal may come back after its block has retired (R207, R380) -/
  issuer : Nat × Nat × Nat × Nat
  deriving DecidableEq, Repr

/-- Port states of R204. -/
inductive PortState where
  | train | up | draining | drained | dark | relock | failed | absent
  deriving DecidableEq, Repr

/-- One optical port (R198 to R205). -/
structure Port where
  st : PortState
  wlmask : Nat
  spare : Bool
  allowq : Nat
  allowr : Nat
  /-- replay buffer: flits with their sequence numbers -/
  rply : List (Nat × Nat)
  seq : Nat
  /-- replays in a row without progress -/
  stuck : Nat
  farNode : Nat
  farPort : Nat
  farPanel : Nat
  heldFar : Option (Nat × Nat × Nat)
  darkmax : Nat
  since : Nat
  corr : Nat
  uncorr : Nat
  replays : Nat
  fover : Nat
  failedSources : List Nat
  /-- a wavelength change in progress: failed source, step 0 requested, 1 acknowledged -/
  change : Option (Nat × Nat)
  changeQueue : List Nat
  /-- a drain marker has been sent and the far end has not received it (R205) -/
  markerSent : Bool
  dataHeld : Bool
  /-- management flits that wait for room, and those on the link or in the far end's buffer of 8 (R201): 1 a drain marker, 2 a
  wavelength change request, 3 its acknowledgement -/
  mgmtQ : List Nat
  mgmtOn : List Nat
  /-- as a receiver: the flit from which it has asked for a replay and discards what comes (R202) -/
  asked : Option Nat
  /-- monitor photocurrent of each source as recorded at its training (R199) -/
  photo : NMap Nat
  deriving DecidableEq, Repr

/-- A site of the topology table (R161). -/
structure Site where
  live : Bool
  cores : NMap Nat
  ports : NMap Nat
  clkpar : Nat
  deriving DecidableEq, Repr

/-- A topology table, decoded (R159 to R161), with the digest of its bytes. -/
structure Topology where
  tver : Nat
  sites : List Site
  ctlPorts : NMap Nat
  digest : List Byte
  deriving DecidableEq, Repr

/-- A topology update in progress (R174). -/
structure Update where
  table : Topology
  bytes : List Byte
  /-- nodes still to answer, and the answers: (node, cause), cause 0 accepts -/
  asked : List Nat
  answers : List (Nat × Nat)
  commitAt : Option Nat
  fencing : Bool
  /-- started by the host through LKP_TSTAGE -/
  host : Bool
  deriving DecidableEq, Repr

/-- An attachment of a gauge (R227). -/
structure Attach where
  count : Nat
  verifying : Bool
  deriving DecidableEq, Repr

/-- An event taken for a gauge (R226). -/
structure GaugeEv where
  code : Nat
  unit : Nat
  part : Option Nat
  payload : Nat
  time : Nat
  att : Nat
  deriving DecidableEq, Repr

/-- The triggers a run produces (R235). -/
inductive Trigger where
  | ntfy (counter inc : Nat)
  | irq (vector : Nat)
  | frz
  deriving DecidableEq, Repr

/-- A gauge run in progress (R231). -/
structure GaugeRun where
  h : NMap Word
  pc : Nat
  entry : Nat
  att : Nat
  part : Nat
  triggers : List Trigger
  executed : Nat
  /-- clock at which the run started; it occupies the gauge for its instructions and 4 clocks more (R228) -/
  began : Nat
  /-- bytes that the run has written, as they stood before it (R237) -/
  undo : List Host.Cell
  deriving DecidableEq, Repr

/-- One Tide Gauge (R225 to R239). Gauge 24 is the panel gauge. -/
structure Gauge where
  atts : NMap Attach
  queue : List GaugeEv
  /-- events each source unit holds for the bus: (unit, event) -/
  held : List (Nat × GaugeEv)
  run : Option GaugeRun
  /-- the run has reached `done` or its limit and awaits its end -/
  ending : Bool
  posted : List Nat
  deriving DecidableEq, Repr

/-- One record waiting in a launch queue, as read at its enqueue (R179, R180). -/
structure QueuedRecord where
  queue : Nat
  index : Nat
  words : List Word
  cause : Nat
  /-- its notify conditions have once held together (R184) -/
  met : Bool
  deriving DecidableEq, Repr

/-- A partition's counts on an island (R395, R398). -/
structure PartUse where
  /-- ALLOT of the current period (R394) -/
  allot : Nat
  cur : Nat
  bank : Nat
  viewI : Nat
  viewP : Nat
  /-- clusters that the last write of PART_SLICE gave it: no block goes there while BUSY is 1 (R390) -/
  gained : Nat
  deriving DecidableEq, Repr

/-- A frame of the Map Keeper's allocator: physical address, size and holding partition (log 9). -/
structure Frame where
  island : Nat
  pa : Nat
  size : Nat
  part : Nat
  deriving DecidableEq, Repr

/-- Start-up and root-of-trust state (R401 to R407). -/
structure Boot where
  stage : Nat
  kind : Nat
  fail : Bool
  starting : Bool
  /-- core clock at which the start began (R405) -/
  begun : Nat
  replace : Bool
  redo : Nat
  imageValid : Bool
  lastTver : Nat
  saved : NMap (List Byte)
  meas : NMap (List Byte)
  pmeas : NMap (List Byte)
  keys : NMap Nat
  keyLock : Bool
  atReqs : List Nat
  atBuf : NMap (List Byte)
  results : List SiteResult
  /-- populated sites, and the (node, port) of links that do not lock, as the latest start found them (R10, R173) -/
  sites : List Nat
  dead : List (Nat × Nat)
  /-- lit seconds of each wavelength source, and their weighted sum at temperature (R211): kept across every start -/
  lit : NMap Nat
  aged : NMap Nat
  /-- the firmware image that the ROM holds and verifies (R404) -/
  image : List Byte
  /-- the attestation key that the start made from the device identity key and measurement 0 (R401) -/
  attKey : Nat
  /-- nodes whose routers hold the topology key, written in stage 2 of the start (R401) -/
  keyed : List Nat
  deriving DecidableEq, Repr

/-- The instruction in progress: the group chosen for issue (R194). -/
structure Issue where
  warp : Nat
  lanes : List Nat
  helpers : List Nat
  pc : PC
  depth : Nat
  deriving DecidableEq, Repr

/-- What happened to registers in the core clock in progress. -/
structure ClockMarks where
  /-- W1C bits of system registers that the device has set: (key, bit) (R5) -/
  w1c : List (Nat × Nat)
  /-- the same for LSTAT, by late results: (warp, lane, bits) (R5, R61) -/
  flags : List (Nat × Nat × BitVec 32)
  /-- counters that software has written: by key (R223) -/
  written : List Nat
  /-- W1S command bits written 1 in this clock: (key, bit); they read 1 until it ends (R5, R134; log 118) -/
  w1s : List (Nat × Nat)
  /-- islands whose ISL_COHMODE.PLAIN was written in this clock, with its value at the clock's start: an atomic takes the new value
  from the next clock on (R134, R344) -/
  plain : List (Nat × Nat)
  /-- islands that have relocked: their L1s and slices refuse requests in this clock (R141) -/
  relocked : List Nat
  deriving DecidableEq, Repr

/-- What comes from outside the machine, for the step to take in order (log 1). -/
inductive Input where
  /-- an event, or a write by the hypervisor or by software of the control die, whose function reaches every register (R397) -/
  | event (i : Instr)
  /-- a write through the window of partition `part`'s virtual function (R397) -/
  | window (part : Nat) (i : Instr)
  /-- bytes that the host stores into LPDDR6 over its link (R15, R417) -/
  | lpddr (address : Nat) (bytes : List Byte)
  deriving DecidableEq, Repr

/-- One loaded image (R263 to R266). -/
structure Loaded where
  part : Nat
  island : Nat
  asid : Nat
  job : Nat
  /-- IMGID and PRIV of its header -/
  image : Nat
  priv : Bool
  /-- overlays: (number in the image, loaded number, OVLVA, SLOT + 4 × FIXED) -/
  ovls : List (Nat × Nat × Nat × Nat)
  /-- windows: (index in the image, window number) -/
  wins : List (Nat × Nat)
  /-- virtual address of each section; 0 for a GAUGE section -/
  sects : List Nat
  deriving DecidableEq, Repr

/-- The machine. -/
structure State where
  /-- core clocks since the model's start -/
  clk : Nat
  /-- next number for a message, packet, command or record: the model's own -/
  fresh : Nat
  /-- counter of free values (log 2): the model's own -/
  draw : Nat
  /-- the group issuing now -/
  issue : Option Issue
  /-- the last issue attempt found its group not ready: the model's own -/
  held : Bool
  /-- issues of this core clock, charged to their partitions at its end (R195, R395): (warp, 4 × core index + pipe, partition) -/
  issued : List (Nat × Nat × Nat)
  now : ClockMarks
  /-- register writes and other events from outside, in order -/
  inputs : List Input
  mem : List Host.Cell
  /-- system registers held as written: key by `regKey` -/
  regs : NMap Nat
  islands : NMap Island
  cores : NMap Core
  warps : NMap Warp
  blocks : NMap Block
  grids : NMap Grid
  pend : List Pend
  waits : List WaitArr
  msgs : List Msg
  spans : List SpanRec
  dir : NMap DirWord
  /-- the floor of each slice (R129): key 64 × island + slice -/
  rtsFloor : NMap Nat
  /-- ONCE written bits (R83, R121): ranges of words set or cleared, the newest first -/
  once : List (Nat × Nat × Bool)
  tlb : List TlbEntry
  dual : List DualHome
  stalls : List Stall
  mapJobs : List MapJob
  /-- pages mapped on every island: the Map Keeper's own list -/
  maps : List MapEntry
  /-- malformed table entries reported to the Map Keeper (R146): (island, physical address) -/
  mapkNotes : List (Nat × Nat)
  frames : List Frame
  /-- live ASIDs of each island: key island × 4096 + asid, (partition, generation) -/
  asids : NMap (Nat × Nat)
  asidGen : NMap Nat
  ranks : NMap Nat
  nranks : NMap Nat
  rankCache : List (Nat × Nat × Nat)
  windows : NMap Nat
  packets : List Packet
  ports : NMap Port
  topo : Topology
  update : Option Update
  /-- sites to be fenced and cores to be marked retired once no update is in progress (R408) -/
  fenceSites : List Nat
  retireCores : List (Nat × Nat)
  queueRecs : List QueuedRecord
  rr : NMap Nat
  lastGid : Nat
  /-- numbers drawn ahead for the launches of each island (R180) -/
  gidReserve : NMap Nat
  gridctl : Option Nat
  gauges : NMap Gauge
  parts : NMap PartUse
  samples : NMap Nat
  interrupts : List (Nat × Nat × Nat)
  /-- records of the panel gauge, posted to the control die (R239) -/
  panelRecords : List (List Word)
  cdItime : Nat
  /-- node 24's reference has failed (R172) -/
  rootLost : Bool
  /-- what software of the control-die cores has had back from its transfers: (packet, class or 0, bytes) (R16) -/
  returned : List (Nat × Nat × List Byte)
  images : List Loaded
  boot : Boot
  /-- WARPW codes that cores have had while the panel runs, by island × 160 + core: what a core keeps while it works (R25) -/
  widths : NMap Nat
  deriving DecidableEq, Repr

/-- The live sites of the model's table at reset: all 24 (log 5). -/
def fullLive (n : Nat) : Bool := n < 24

/-- The start tree of a full panel (R173). -/
def fullTree : List (Nat × Nat × Nat) :=
  startTree fun n p => portKind fullLive n p == 1 || portKind fullLive n p == 3

/-- The topology table in force at reset: a full panel, every core at WARPW 32, TVER 1 (log 5). -/
def Topology.full : Topology where
  tver := 1
  sites := (List.range 24).map fun n =>
    { live := true, cores := [],
      ports := (List.range 12).map fun p => (p, portKind fullLive n p),
      clkpar := (fullTree.find? fun t => t.1 == n).elim 0 fun t => t.2.1 }
  ctlPorts := (List.range 8).map fun p => (p, 3)
  digest := List.replicate 48 0

/-- An island at the end of a cold start (R170, R404), its place in the clock tree given. -/
def Island.start (parent cls tver : Nat) : Island where
  itime := 0
  ptime := 0
  half := false
  parent := parent
  cls := cls
  lock := true
  inHold := false
  orphan := false
  fast := false
  holds := 0
  tver := tver
  reference := true
  txFailed := false
  rxFailed := false
  seqNo := 0
  placed := 0
  reservers := []
  onchip := []
  waitPost := []
  powered := true

/-- A port after optical training (R198, R204), its kind and far end given; the far panel of an in-panel port is 0. -/
def Port.trained (node port kind : Nat) : Port where
  st := if kind = 0 then .absent else .up
  wlmask := 0x0FF
  spare := true
  allowq := 128
  allowr := 64
  rply := []
  seq := 0
  stuck := 0
  farNode := (farEnd node port).elim 0 Prod.fst
  farPort := (farEnd node port).elim 0 Prod.snd
  farPanel := 0
  heldFar := none
  darkmax := 0x64
  since := 0
  corr := 0
  uncorr := 0
  replays := 0
  fover := 0
  failedSources := []
  change := none
  changeQueue := []
  markerSent := false
  dataHeld := false
  mgmtQ := []
  mgmtOn := []
  asked := none
  photo := []

/-- Start-up state at the end of a cold start (R405; log entries 6 and 10). -/
def Boot.done : Boot where
  stage := 3
  kind := 0
  fail := false
  starting := false
  begun := 0
  replace := false
  redo := 0
  imageValid := true
  lastTver := 1
  saved := []
  meas := []
  pmeas := []
  keys := []
  keyLock := true
  atReqs := []
  atBuf := []
  results := []
  sites := List.range 24
  dead := []
  lit := []
  aged := []
  image := []
  attKey := 0
  keyed := List.range 25

/-- A core clock in which nothing has happened. -/
def ClockMarks.none : ClockMarks := ⟨[], [], [], [], [], []⟩

/-- The machine right after reset: the end of a cold start (R5), full function reached (R404 stage 3), nothing resident,
no memory listed. Values the spec does not state are those of log entries 3 to 10. -/
def State.reset : State where
  clk := 0
  fresh := 0
  draw := 0
  issue := none
  held := false
  issued := []
  now := ClockMarks.none
  inputs := []
  mem := []
  regs := []
  islands := (List.range 24).map fun n =>
    (n, (fullTree.find? fun t => t.1 == n).elim (Island.start 0 0 1) fun t => Island.start t.2.1 t.2.2 1)
  cores := []
  warps := []
  blocks := []
  grids := []
  pend := []
  waits := []
  msgs := []
  spans := []
  dir := []
  rtsFloor := []
  once := []
  tlb := []
  dual := []
  stalls := []
  mapJobs := []
  maps := []
  mapkNotes := []
  frames := []
  asids := []
  asidGen := []
  ranks := []
  nranks := []
  rankCache := []
  windows := []
  packets := []
  ports := (List.range 24).flatMap (fun n => (List.range 12).map fun p =>
      (portIx n p, Port.trained n p (portKind fullLive n p)))
    ++ (List.range 8).map fun p => (portIx 24 p, Port.trained 24 p 3)
  topo := Topology.full
  update := none
  fenceSites := []
  retireCores := []
  queueRecs := []
  rr := []
  lastGid := 0
  gidReserve := []
  gridctl := none
  gauges := []
  parts := []
  samples := []
  interrupts := []
  panelRecords := []
  cdItime := 0
  rootLost := false
  returned := []
  images := []
  boot := Boot.done
  widths := []

end Sys2Proof.Machine
end

