-- ==== Sys2Proof/Machine/Ops.lean ====
section
/-!
DEFINITION. The named operations over memory, registers, threads and warps, and the shared fault operations: posting a
record, stopping a warp and its grid (R378), switching lanes off (R105, R116), and the return of a stopped warp (R378).
-/
namespace Sys2Proof.Machine

/-- The outcome of one step of this machine. -/
abbrev Out := Host.Outcome State Fault Refusal

/-! ### Memory: one list of cells, each home memory at a base of its own (R108, R142, R236; log 3). -/

/-- Bytes of HBM4E per island, 512 GiB (R142). -/
def hbmSize : Nat := 2 ^ 39
/-- Byte `pa` of an island's HBM4E. -/
def hbmAddr (island pa : Nat) : Nat := island * 2 ^ 39 + pa
/-- Byte of LPDDR6 (R15): 128 GiB. A register can name an address past them; it names no other memory either (log 104). -/
def lpddrAddr (a : Nat) : Nat := 2 ^ 56 + a
/-- Base of a core's local memories. -/
def coreBase (island core : Nat) : Nat := 2 ^ 45 + island * 2 ^ 32 + core * 2 ^ 20
/-- Byte of a core's scratchpad. Windows stand in an arena of 16 MiB, so that room is a matter of size alone (R188; log 21). -/
def scrAddr (island core a : Nat) : Nat := 2 ^ 45 + 2 ^ 39 + island * 2 ^ 32 + core * 2 ^ 24 + a
/-- Byte of a core's weight buffer, in an arena of 4 MiB (log 21). -/
def wbufAddr (island core a : Nat) : Nat := 2 ^ 45 + 2 ^ 38 + island * 2 ^ 30 + core * 2 ^ 22 + a
/-- Byte of element (i, c) of a physical accumulator tile, row-major binary32. -/
def accAddr (island core tile i c : Nat) : Nat := coreBase island core + 0x60000 + tile * 4096 + (32 * i + c) * 4
/-- Byte of word `w` of an instruction store slot. -/
def slotAddr (island core slot w : Nat) : Nat := coreBase island core + 2 ^ 19 + slot * 2 ^ 16 + 8 * w
/-- Byte of an island's berm, in an arena wide enough for the window of every grid, the parked ones included (log 21). -/
def bermAddr (island a : Nat) : Nat := 2 ^ 50 + island * 2 ^ 44 + a
/-- Byte of a gauge's memory; gauge 24 is the panel gauge. -/
def gaugeAddr (gauge a : Nat) : Nat := 2 ^ 46 + gauge * 2 ^ 20 + a
/-- Byte of word `w` of a gauge's program memory. -/
def gaugeProgAddr (gauge w : Nat) : Nat := 2 ^ 46 + gauge * 2 ^ 20 + 2 ^ 18 + 4 * w

/-- What an unlisted address reads as: zero (log 3, DESIGN CHOICE, unsafe: power-on contents are not in the spec). -/
def Memory.empty : Byte := 0

/-- The byte at an address. -/
def Memory.read (m : List Host.Cell) (a : Nat) : Byte := NMap.getD m a Memory.empty

/-- Writes a byte, keeping the canonical form: ascending addresses and no entry equal to the empty byte. -/
def Memory.write (m : List Host.Cell) (a : Nat) (b : Byte) : List Host.Cell :=
  if b = Memory.empty then NMap.erase m a else NMap.set m a b

/-- The canonical form: strictly rising addresses, no listed byte equal to what an unlisted address reads as. -/
def Memory.wf : List Host.Cell → Bool
  | [] => true
  | [(_, b)] => b != Memory.empty
  | (a, b) :: (a', b') :: m => b != Memory.empty && decide (a < a') && Memory.wf ((a', b') :: m)

/-- Reads n bytes upwards from an address. -/
def Memory.readN (m : List Host.Cell) (a : Nat) : Nat → List Byte
  | 0 => []
  | n + 1 => Memory.read m a :: Memory.readN m (a + 1) n

/-- Writes a list of bytes upwards from an address. -/
def Memory.writeN (m : List Host.Cell) (a : Nat) : List Byte → List Host.Cell
  | [] => m
  | b :: bs => Memory.writeN (Memory.write m a b) (a + 1) bs

/-- Writes every cell of a list, in order. -/
def Memory.writeCells (m : List Host.Cell) (cs : List Host.Cell) : List Host.Cell :=
  cs.foldl (fun m c => Memory.write m c.1 c.2) m

/-- Writes zeros over n bytes: drops every listed byte of the range. -/
def Memory.clear (m : List Host.Cell) (a n : Nat) : List Host.Cell := m.filter fun c => !(a ≤ c.1 && c.1 < a + n)

/-- The little-endian value of n bytes at an address (R3). -/
def State.readMem (s : State) (a n : Nat) : Nat := valueOf (Memory.readN s.mem a n)

/-- Writes the low n bytes of a value (R3). -/
def State.writeMem (s : State) (a n v : Nat) : State := { s with mem := Memory.writeN s.mem a (bytesOf n v) }

/-- Drops the listed bytes of a range, so that it reads as zero. -/
def State.clearMem (s : State) (a n : Nat) : State := { s with mem := Memory.clear s.mem a n }

/-! ### Registers of the system and free values -/

/-- A system register as held (R106). -/
def State.reg (s : State) (r : RegName) (i : Nat) : Nat := NMap.getD s.regs (regKey r i) (regReset r i)

/-- Sets a system register. -/
def State.setReg (s : State) (r : RegName) (i v : Nat) : State := { s with regs := NMap.set s.regs (regKey r i) v }

/-- The device sets a W1C bit of a register: software that clears it in the same core clock finds it set (R5). -/
def State.setW1c (s : State) (r : RegName) (i b : Nat) : State :=
  { s.setReg r i (setBits (s.reg r i) b b 1) with now := { s.now with w1c := (regKey r i, b) :: s.now.w1c } }

/-- Software writes 1 to a W1S command bit: the device acts, and the bit reads 1 to the end of the core clock (R5, R134; log 118). -/
def State.command (s : State) (r : RegName) (i b : Nat) : State :=
  { s with now := { s.now with w1s := (regKey r i, b) :: s.now.w1s } }

/-- W1S command bits of a register that read 1 in this core clock. -/
def State.commanded (s : State) (r : RegName) (i : Nat) : Nat :=
  s.now.w1s.foldl (fun v x => if x.1 = regKey r i then v ||| 2 ^ x.2 else v) 0

/-- Whether a write of a value by software clears a W1C bit (R5). -/
def State.clears (s : State) (r : RegName) (i b v : Nat) : Bool := bit v b && !s.now.w1c.contains (regKey r i, b)

/-- Sets REPLACE_REQUEST, a W1C bit that stands through every start (R405, R409). -/
def State.requestReplace (s : State) : State :=
  { s with
    boot := { s.boot with replace := true }
    now := { s.now with w1c := (regKey .startStat 0, 7) :: s.now.w1c } }

/-- A write of a performance counter by software: events of the same core clock are not counted (R223). -/
def State.writeCounter (s : State) (r : RegName) (i v : Nat) : State :=
  { s.setReg r i (v % 2 ^ 48) with now := { s.now with written := regKey r i :: s.now.written } }

/-- The next free value (log 2), and the state with its counter advanced. -/
def State.free (s : State) : Nat × State := (Config.freeNat s.draw, { s with draw := s.draw + 1 })

/-- A number no message, packet, command or record bears yet. -/
def State.newId (s : State) : Nat × State := (s.fresh, { s with fresh := s.fresh + 1 })

/-! ### Islands, cores, warps, blocks and grids -/

/-- An island's record. -/
def State.isl (s : State) (n : Nat) : Island := NMap.getD s.islands n (Island.start 0 0 0)
def State.setIsl (s : State) (n : Nat) (x : Island) : State := { s with islands := NMap.set s.islands n x }
def State.modIsl (s : State) (n : Nat) (f : Island → Island) : State := s.setIsl n (f (s.isl n))

/-- A core with nothing in its slots (log 7). -/
def Core.start : Core := ⟨[], [], [], []⟩
def State.core (s : State) (island core : Nat) : Core := NMap.getD s.cores (coreIx island core) Core.start
def State.setCore (s : State) (island core : Nat) (x : Core) : State :=
  { s with cores := NMap.set s.cores (coreIx island core) x }
def State.modCore (s : State) (island core : Nat) (f : Core → Core) : State :=
  s.setCore island core (f (s.core island core))

/-- A thread at warp start (R35, R92, R104), its entry given. -/
def Thread.start (pc : PC) : Thread where
  st := .active
  pc := pc
  blockEnd := 0
  entered := false
  live := 0
  depth := 0
  rcp := none
  p := 0
  lstat := 0
  bar := 0
  wake := none
  hold := []

/-- A warp at its start (R92 to R105), with its block, number, pipe, lanes, tiles and granules. -/
def Warp.start (block warpNo pipe lanes : Nat) (entry : PC) (acc : List Nat) (gran : Nat) : Warp where
  block := block
  warpNo := warpNo
  pipe := pipe
  threads := List.replicate lanes (Thread.start entry)
  v := []
  s := []
  sEmpty := []
  q := 0
  g := []
  gArm := []
  gAfter := []
  b := []
  mode := 0
  tilew := 32
  srseed := 0
  gen := 0
  mark := 0
  wfault := 0
  wfaultPc := ⟨0, 0⟩
  wfaultOvl := 0
  acc := acc
  gran := gran
  spinPc := none
  spinCount := 0
  watch := []
  floor := false
  floorAt := 0
  passed := []
  waited := 0
  owed := none
  stopped := false
  stopReplay := none
  stopTrap := []
  log := []
  mq := []
  xq := []
  fq := []
  red := []
  redLate := []
  redSeq := 0
  retired := false
  restored := false

/-- A warp that is not resident: no lanes. -/
def Warp.absent : Warp := Warp.start 0 0 0 0 ⟨0, 0⟩ [] 0

def State.warp (s : State) (w : Nat) : Warp := NMap.getD s.warps w Warp.absent
def State.setWarp (s : State) (w : Nat) (x : Warp) : State := { s with warps := NMap.set s.warps w x }
def State.modWarp (s : State) (w : Nat) (f : Warp → Warp) : State := s.setWarp w (f (s.warp w))

/-- A block that is not resident. -/
def Block.absent : Block where
  grid := 0
  blockId := 0
  island := 0
  core := 0
  presCore := 0
  presCluster := 0
  warps := []
  warpw := 32
  scrBase := 0
  scrSize := 0
  sliceBase := 0
  sliceSize := 0
  callArea := 0
  wbBase := 0
  wbSize := 0
  slots := []
  placed := 0
  halting := false
  saved := false
  haltStep := 0
  savedSlots := []
  savedTags := []
  savedMem := []
  savedAcc := []
  retired := false

def State.block (s : State) (b : Nat) : Block := NMap.getD s.blocks b Block.absent
def State.setBlock (s : State) (b : Nat) (x : Block) : State := { s with blocks := NMap.set s.blocks b x }
def State.modBlock (s : State) (b : Nat) (f : Block → Block) : State := s.setBlock b (f (s.block b))

/-- A grid that does not exist. -/
def Grid.absent : Grid where
  record := []
  island := 0
  part := 0
  prio := 0
  status := .ended
  nextBlock := 0
  arrival := 0
  waitingSince := none
  bermBase := 0
  image := 0
  priv := false
  presIsland := 0
  blocks := []
  done := 0
  endCode := 0
  endClass := 0
  preempting := false
  deviceLaunch := false
  clusters := []
  core0 := 0
  returning := false

def State.grid (s : State) (g : Nat) : Grid := NMap.getD s.grids g Grid.absent
def State.setGrid (s : State) (g : Nat) (x : Grid) : State := { s with grids := NMap.set s.grids g x }
def State.modGrid (s : State) (g : Nat) (f : Grid → Grid) : State := s.setGrid g (f (s.grid g))

/-- Bits [hi:lo] of dword `d` of a launch record (R181). -/
def recBits (r : List Word) (d hi lo : Nat) : Nat := bits (r.getD d 0).toNat hi lo

/-- A partition's counts on an island; the bucket starts full at its ALLOT (R394). -/
def State.part (s : State) (p island : Nat) : PartUse :=
  NMap.getD s.parts (partIx p island) ⟨0xFFFFFFFF, 0xFFFFFFFF, 0, 0, 0, 0⟩
def State.setPart (s : State) (p island : Nat) (x : PartUse) : State :=
  { s with parts := NMap.set s.parts (partIx p island) x }

/-- PART_CFG.VALID (R388). -/
def State.partValid (s : State) (p : Nat) : Bool := bit (s.reg .partCfg p) 0

/-- A partition's parent (R388). -/
def State.parent (s : State) (p : Nat) : Nat := bits (s.reg .partCfg p) 10 4

/-- A partition and its ancestors, nearest first: at most three levels (R388). -/
def State.lineage (s : State) (p : Nat) : List Nat :=
  if p = 0 then [0]
  else
    let a := s.parent p
    if a = 0 then [p, 0] else [p, a, 0]

/-- ITIME plus the 2 ns grain of R127 is left exact; one reading serves the whole island. -/
def State.itime (s : State) (island : Nat) : Nat := (s.isl island).itime

/-- A command of some warp. -/
def State.cmdOf (s : State) (id : Nat) : Option (Nat × Cmd) :=
  s.warps.findSome? fun p => ((p.2.mq ++ p.2.xq ++ p.2.fq).find? fun c => c.id == id).map fun c => (p.1, c)

/-- An outstanding result with nothing in it but its number, warp, GEN and kind. -/
def Pend.blank (id warp gen : Nat) (kind : PendKind) : Pend where
  id := id
  inst := id
  warp := warp
  gen := gen
  kind := kind
  dst := 0
  size := 0
  lanes := []
  got := []
  bad := []
  waiting := []
  who := []
  writes := []
  flags := []
  due := 0
  issueTime := 0
  drops := false
  words := []
  pc := ⟨0, 0⟩
  ovl := 0
  brec := 0
  ops := []
  seed := 0
  entry := none

/-! ### Messages -/

/-- A message with nothing in it but its number, kind and sender. -/
def Msg.blank (id : Nat) (kind : MsgKind) (island core warp : Nat) : Msg where
  id := id
  kind := kind
  island := island
  core := core
  warp := warp
  lanes := []
  gen := 0
  words := []
  ptype := 0
  cls := 0
  cells := []
  ops := []
  olds := []
  ts := 0
  expiry := 0
  keep := []
  solo := false
  asker := none
  arr := none
  since := 0
  part := 0
  acq := false
  after := []

/-- Words that `n` bytes at an address cover. -/
def wordsOf (a n : Nat) : List Nat :=
  if n = 0 then [] else (List.range ((a + n - 1) / 4 - a / 4 + 1)).map (· + a / 4)

def State.addMsg (s : State) (m : Msg) : State := { s with msgs := s.msgs ++ [m] }
def State.dropMsg (s : State) (id : Nat) : State := { s with msgs := s.msgs.filter fun m => m.id != id }
def State.setMsg (s : State) (m : Msg) : State := { s with msgs := s.msgs.map fun x => if x.id = m.id then m else x }
/-- The message of a number and kind, if it is there. -/
def State.msg? (s : State) (id : Nat) (kind : MsgKind) : Option Msg := s.msgs.find? fun m => m.id == id && m.kind == kind

/-- Messages that stand for an event of a lane not yet performed: its read has not returned, or its write has not been
acknowledged (R75, R131). -/
def Msg.isEvent (m : Msg) : Bool :=
  match m.kind with
  | .gets | .data | .getx | .xdata | .write | .mirror | .wack | .atom | .aack => true
  | .wback | .recall | .drain | .engine => false

/-- Whether a message is an ordered-reduction entry on its way: to its slice, being mirrored, or performed there and not yet seen
by the core (R136). -/
def Msg.isDrain (m : Msg) : Bool := m.kind == .drain || m.kind == .mirror && m.since == 2

/-- A lane's events not yet performed. -/
def State.outstanding (s : State) (wid l : Nat) : List Msg :=
  s.msgs.filter fun m => m.isEvent && m.warp == wid && m.lanes.contains l

/-- A log entry of a scalar load: it parks no lane (R375). -/
def LogEntry.isScalar (e : LogEntry) : Bool := (e.words.getD 0 0).toNat / 2 ^ 56 == 0xAF

/-- Scalar loads of a lane that stand in the operand log: events of the lane not yet performed (R69, R375). -/
def Warp.parkedReads (w : Warp) (l : Nat) : List LogEntry := w.log.filter fun e => e.isScalar && e.lanes.contains l

/-- Whether a parked scalar load is an acquire, or a read of a SEQ page (R75 rows 2, 4 and 5). A page that does not translate has no
type (log 89). -/
def LogEntry.acq (e : LogEntry) : Bool :=
  let o := bits (e.words.getD 0 0).toNat 18 16
  o == 1 || o == 3 || e.ptype == 0

/-! ### Threads and registers of a warp -/

/-- A thread of a warp that has none at that lane. -/
def Thread.absent : Thread := { Thread.start ⟨0, 0⟩ with st := .exited }

def Warp.thread (w : Warp) (l : Nat) : Thread := w.threads.getD l Thread.absent
def Warp.setThread (w : Warp) (l : Nat) (t : Thread) : Warp := { w with threads := w.threads.set l t }
def Warp.modThread (w : Warp) (l : Nat) (f : Thread → Thread) : Warp := w.setThread l (f (w.thread l))
/-- Applies `f` to each listed lane's thread. -/
def Warp.modThreads (w : Warp) (ls : List Nat) (f : Thread → Thread) : Warp :=
  ls.foldl (fun w l => w.modThread l f) w

/-- One lane's copy of a v register (R92). -/
def Warp.vreg (w : Warp) (l r : Nat) : VReg := NMap.getD w.v (32 * r + l) VReg.start
def Warp.setVreg (w : Warp) (l r : Nat) (x : VReg) : Warp := { w with v := NMap.set w.v (32 * r + l) x }

/-- The spin detector after a write that changed a register (R41, R43): count 0, watch set empty, off the floor. A warp that leaves the
floor is owed an issue only from 256 clocks on (R194). -/
def Warp.spinReset (w : Warp) : Warp :=
  { w with spinCount := 0, watch := [], floor := false, owed := if w.floor && decide (w.waited < 256) then none else w.owed }

/-- Writes one v register of one lane: it becomes full and not dead (R95, R98); a change resets the spin detector. A late result counts
among the detector's events when it is written, after the branches issued meanwhile (R41 leaves its place open: DESIGN CHOICE, log
94). -/
def Warp.writeV (w : Warp) (l r : Nat) (x : BitVec 32) : Warp :=
  let old := (w.vreg l r).val
  let w := w.setVreg l r ⟨x, true, false⟩
  if old = x then w else w.spinReset

/-- Writes `n` consecutive v registers from the value's low bits, lowest register first (R54, R249). -/
def Warp.writeVs (w : Warp) (l r : Nat) : Nat → Nat → Warp
  | 0, _ => w
  | n + 1, x => Warp.writeVs (w.writeV l r (BitVec.ofNat 32 x)) l (r + 1) n (x / 2 ^ 32)

/-- Marks v registers of a lane empty (R95). -/
def Warp.emptyV (w : Warp) (l r : Nat) : Nat → Warp
  | 0 => w
  | n + 1 => Warp.emptyV (w.setVreg l r { w.vreg l r with full := false }) l (r + 1) n

/-- Marks v registers of a lane dead (R98). -/
def Warp.killV (w : Warp) (l r : Nat) : Nat → Warp
  | 0 => w
  | n + 1 => Warp.killV (w.setVreg l r { w.vreg l r with dead := true }) l (r + 1) n

def Warp.sreg (w : Warp) (r : Nat) : Word := NMap.getD w.s r 0
/-- Writes an s register, which becomes full (R95). -/
def Warp.writeS (w : Warp) (r : Nat) (x : Word) : Warp :=
  let old := w.sreg r
  let w := { w with s := NMap.set w.s r x, sEmpty := w.sEmpty.filter (· != r) }
  if old = x then w else w.spinReset

/-- p7 and q7 read as true (R92). -/
def readPred (p : BitVec 7) (k : Nat) : Bool := k == 7 || p.getLsbD k

/-- A write of a predicate; p7 and q7 ignore it (R92). -/
def writePred (p : BitVec 7) (k : Nat) (b : Bool) : BitVec 7 :=
  if 7 ≤ k then p
  else if b then p ||| BitVec.ofNat 7 (2 ^ k) else p &&& ~~~ BitVec.ofNat 7 (2 ^ k)

/-- Writes a thread's predicate. -/
def Warp.writeP (w : Warp) (l k : Nat) (b : Bool) : Warp :=
  let t := w.thread l
  let p := writePred t.p k b
  let w := w.setThread l { t with p := p }
  if t.p = p then w else w.spinReset

/-- Writes a warp predicate. -/
def Warp.writeQ (w : Warp) (k : Nat) (b : Bool) : Warp :=
  let q := writePred w.q k b
  let w' := { w with q := q }
  if w.q = q then w' else w'.spinReset

/-- LSTAT bits that late results have set in a lane in this core clock: a software clear in the same clock leaves them set (R5, R61). -/
def State.flagsNow (s : State) (wid l : Nat) : BitVec 32 :=
  s.now.flags.foldl (fun f x => if x.1 = wid && x.2.1 = l then f ||| x.2.2 else f) 0

/-- Sets LSTAT bits of a lane (R104). -/
def Warp.setFlags (w : Warp) (l : Nat) (f : BitVec 32) : Warp :=
  if f = 0 then w else w.modThread l fun t => { t with lstat := t.lstat ||| f }

def Warp.guard (w : Warp) (k : Nat) : GuardState := NMap.getD w.g k .none
def Warp.bufRec (w : Warp) (k : Nat) : BitVec 128 := NMap.getD w.b k 0

/-- Lanes of a warp whose thread meets a test, ascending. -/
def Warp.lanesWith (w : Warp) (f : Thread → Bool) : List Nat :=
  (List.range w.threads.length).filter fun l => f (w.thread l)

/-- Whether a thread is Active, Waiting or Parked: its quad and its warp still live (R31, R39). -/
def ThreadState.live : ThreadState → Bool
  | .active | .atBarrier | .parked => true
  | .helper | .switchedOff | .exited => false

/-! ### Posting fault records (R379, R380) -/

/-- Records in an island's ring. -/
def State.fqSize (s : State) (island : Nat) : Nat := 2 ^ (min (bits (s.reg .islFqbase island) 51 48) 10 + 6)

/-- The ring is full: TAIL + 1 equals HEAD (R379). -/
def State.fqFull (s : State) (island : Nat) : Bool :=
  (s.reg .islFqtail island + 1) % s.fqSize island == s.reg .islFqhead island % s.fqSize island

/-- The overlay number that a slot's tag names; 0 where it names nothing. -/
def State.ovlOf (s : State) (island core slot : Nat) : Nat :=
  match NMap.find? (s.core island core).tags slot with
  | some t => t.ovl
  | none => 0

/-- Packs fields (value, low bit) into a dword. -/
def pack (fs : List (Nat × Nat)) : Word := BitVec.ofNat 64 (fs.foldl (fun a f => a + f.1 * 2 ^ f.2) 0)

/-- A fault record of a warp (R380). PTIME and SEQ are those of its posting, which sets them. -/
def warpRecord (s : State) (w : Warp) (cls kind lanes : Nat) (pc : PC) (ovl info0 info1 wfault : Nat) : List Word :=
  let b := s.block w.block
  let gr := s.grid b.grid
  [pack [(cls, 0), (kind, 8), (b.core, 16), (w.warpNo, 24), (b.grid, 32), (gr.part, 48)],
   pack [(pc.slot, 0), (pc.ofs, 2), (ovl, 16), (b.blockId, 32)],
   pack [(lanes, 0), (w.mark.toNat, 32), (w.gen.toNat, 56)],
   BitVec.ofNat 64 info0, BitVec.ofNat 64 info1, 0, BitVec.ofNat 64 wfault, 0]

/-- A fault record that belongs to no warp (R380). -/
def bareRecord (cls kind grid part info0 info1 : Nat) : List Word :=
  [pack [(cls, 0), (kind, 8), (0xFF, 16), (grid, 32), (part, 48)], 0, 0, BitVec.ofNat 64 info0, BitVec.ofNat 64 info1, 0, 0, 0]

/-- A BUDGET_EXCEEDED record of the panel gauge, with the control die's time and a number of its own (R239, R380; log 102). -/
def State.panelRecord (s : State) (part att : Nat) : List Word :=
  [pack [(0x62, 0), (3, 8), (0xFF, 16), (part, 48)], 0, 0, BitVec.ofNat 64 att, 0, BitVec.ofNat 64 s.cdItime, 0,
   BitVec.ofNat 64 (s.panelRecords.length % 2 ^ 32)]

/-- A record is posted: it joins the on-chip buffer with the panel time and the island's record number of that moment (R379, R380;
log 119). -/
def Island.posted (x : Island) (r : List Word) : Island :=
  { x with onchip := x.onchip ++ [(r.set 5 (BitVec.ofNat 64 x.ptime)).set 7 (BitVec.ofNat 64 (x.seqNo % 2 ^ 32))], seqNo := x.seqNo + 1 }

/-- Posts a record; while the on-chip buffer holds 64 the posting event waits (R379). -/
def State.post (s : State) (island : Nat) (r : List Word) : State :=
  s.modIsl island fun x =>
    if x.onchip.length < 64 && x.waitPost.isEmpty then x.posted r else { x with waitPost := x.waitPost ++ [r] }

/-- Whether a record that meets a test waits to be posted on an island. -/
def State.unposted (s : State) (island : Nat) (f : List Word → Bool) : Bool := (s.isl island).waitPost.any f

/-- A record of a grid. -/
def recordOfGrid (g : Nat) (r : List Word) : Bool := recBits r 0 47 32 == g

/-- A record of one warp of a grid, at its core. -/
def recordOfWarp (g core warpNo : Nat) (r : List Word) : Bool :=
  recordOfGrid g r && recBits r 0 23 16 == core && recBits r 0 28 24 == warpNo

/-- A record of a warp waits to be posted: its parked lanes stay parked (R379). -/
def State.warpUnposted (s : State) (wid : Nat) : Bool :=
  let w := s.warp wid
  let b := s.block w.block
  s.unposted b.island (recordOfWarp b.grid b.core w.warpNo)

/-- A mask of lanes. -/
def laneMask (ls : List Nat) : Nat := ls.foldl (fun m l => m ||| 2 ^ l) 0

/-! ### Warp-stopping faults: taking one, and the return (R378) -/

/-- Stops every warp of a grid's blocks from issuing (R378 step 4, R382 step 1). -/
def State.haltGrid (s : State) (g : Nat) : State :=
  { s with blocks := s.blocks.map fun p => if p.2.grid = g then (p.1, { p.2 with halting := true }) else p }

/-- What a warp-stopping fault does to its grid (R378 step 4): with FHOLD 0 it ends with END 0x02, with FHOLD 1 it is pre-empted and held,
END 0x03. -/
def State.stopGrid (s : State) (gid cls : Nat) : State :=
  let hold := recBits (s.grid gid).record 0 46 46 = 1
  (s.modGrid gid fun g =>
    if g.endCode != 0 then g
    else { g with endCode := if hold then 3 else 2, endClass := cls, preempting := true }).haltGrid gid

/-- Takes a warp-stopping fault of class `cls` (R378): the warp stops with every register as it stood, so that a restored warp makes no
further replay and its running commands complete, one record of kind W is posted with the faulting instruction's PC, and the grid ends or
is held. -/
def State.stopWarp (s : State) (wid cls lanes : Nat) (pc : PC) (ovl info0 info1 : Nat) : State :=
  let w := s.warp wid
  let b := s.block w.block
  let s := s.post b.island (warpRecord s w cls 2 lanes pc ovl info0 info1 0)
  let s := s.modWarp wid fun w =>
    { w with stopped := true, restored := false, stopTrap := if cls = 0x60 then (s.issue.elim [] fun i => i.lanes) else [] }
  { s.stopGrid b.grid cls with issue := none }

/-- Returns a stopped warp to issue when its held grid is resumed (R378): it issues its faulting instruction again, or
replays the kept entry; after `trap` it resumes at the instruction after it. -/
def Warp.unstop (w : Warp) : Warp :=
  let w := w.modThreads w.stopTrap fun t =>
    if t.st == .active then { t with pc := { t.pc with ofs := t.pc.ofs + 1 } } else t
  { w with stopped := false, stopTrap := [] }

/-! ### Lane-contained faults (R105, R116) -/

/-- Switches lanes off with class `cls` and updates WFAULT (R105), keeping the first fault's instruction (R105). -/
def Warp.switchOff (w : Warp) (ls : List Nat) (cls : Nat) (pc : PC) (ovl : Nat) : Warp :=
  if ls.isEmpty then w
  else
    let f := w.wfault.toNat
    let mask := bits f 31 0
    let low := ls.foldl min 31
    let f' :=
      if mask = 0 then laneMask ls + cls * 2 ^ 32 + low * 2 ^ 40
      else
        let m := setBits f 31 0 (mask ||| laneMask ls)
        if bits f 39 32 = cls then m else setBits m 45 45 1
    let w := if mask = 0 then { w with wfaultPc := pc, wfaultOvl := ovl } else w
    { w.modThreads ls (fun t => { t with st := .switchedOff }) with wfault := BitVec.ofNat 64 f' }

/-! ### Moving threads -/

/-- Moves the Active member lanes of a group on by `n` words (R240). -/
def Warp.advance (w : Warp) (ls : List Nat) (n : Nat) : Warp :=
  ls.foldl (fun w l =>
    let t := w.thread l
    if t.st == .active then w.setThread l { t with pc := { t.pc with ofs := t.pc.ofs + n } } else w) w

/-- Lanes of a tile of width `tw` that contains lane `l` (R32). -/
def tileOf (w : Warp) (l : Nat) : List Nat :=
  let tw := w.tilew.toNat
  (List.range w.threads.length).filter fun k => k / tw == l / tw

/-- Lanes of the quad that contains lane `l` (R22). -/
def quadOf (l : Nat) : List Nat := [l / 4 * 4, l / 4 * 4 + 1, l / 4 * 4 + 2, l / 4 * 4 + 3]

/-- The helper lanes that follow a group (R31): those whose quad's leader, its lowest Active, Waiting or Parked thread,
is a member. -/
def helpersOf (w : Warp) (ls : List Nat) : List Nat :=
  (List.range w.threads.length).filter fun l =>
    (w.thread l).st == .helper &&
      match (quadOf l).find? fun k => (w.thread k).st.live with
      | some k => ls.contains k
      | none => false

/-- Ends every helper whose quad has no live thread left (R31). -/
def Warp.endHelpers (w : Warp) : Warp :=
  (List.range w.threads.length).foldl (fun w l =>
    if (w.thread l).st == .helper && !((quadOf l).any fun k => (w.thread k).st.live) then
      w.modThread l fun t => { t with st := .exited }
    else w) w

end Sys2Proof.Machine
end

