-- ==== Sys2Proof/Machine/Counters.lean ====
section
/-!
DEFINITION. Performance counters (R223), notify counters (R217, R218), guest views of time (R221, R398), and the source
side of a Tide Gauge: matching, sampling and the unit holds (R226 to R228, R238).
-/
namespace Sys2Proof.Machine

/-! ### Performance counters (R223) -/

/-- Counts `k` events of `code` on the core's counters whose selector names it and that software does not write in this clock (R223). -/
def State.coreCount (s : State) (island core code k : Nat) : State :=
  (List.range 8).foldl (fun s n =>
    let ix := eightIx (coreIx island core) n
    if code != 0 && s.reg .corePmsel ix % 256 = code && !s.now.written.contains (regKey .corePmc ix) then
      s.setReg .corePmc ix ((s.reg .corePmc ix + k) % 2 ^ 48) else s) s

/-- The same for the island's counters (R223). -/
def State.islCount (s : State) (island code k : Nat) : State :=
  (List.range 8).foldl (fun s n =>
    let ix := eightIx island n
    if code != 0 && s.reg .islPmsel ix % 256 = code && !s.now.written.contains (regKey .islPmc ix) then
      s.setReg .islPmc ix ((s.reg .islPmc ix + k) % 2 ^ 48) else s) s

/-! ### Notify counters (R217, R218) -/

/-- Index of a notify counter. -/
def nctrIx (island counter : Nat) : Nat := island * 4096 + counter % 4096

/-- A notify condition holds (R184): not enabled, or its site is live and its counter has reached THRESH. -/
def State.condHolds (s : State) (c : Nat) : Bool :=
  !bit c 5 || ((s.topo.sites[bits c 4 0]?).elim false fun x => x.live) &&
    decide (bits c 63 32 ≤ bits (s.reg .islNctr (nctrIx (bits c 4 0) (bits c 19 8))) 31 0)

/-- Index of a launch queue's head (R179). -/
def State.qHead (s : State) (q : Nat) : Nat := s.reg .lkpQhead q

/-- Evaluates the conditions of the records at their queues' heads (R184): one evaluation in which all hold suffices. -/
def State.evalHeads (s : State) : State :=
  { s with queueRecs := s.queueRecs.map fun r =>
      if r.index = s.qHead r.queue && !r.met && [6, 7, 8, 9].all fun d => s.condHolds (recBits r.words d 63 0) then
        { r with met := true } else r }

/-- An addition to a notify counter for partition `part` (R218): the state after it, and whether it was accepted. A
refused addition is counted by island event 0x0B. -/
def State.notifyAdd (s : State) (island counter inc part : Nat) : State × Bool :=
  let ix := nctrIx island counter
  let v := s.reg .islNctr ix
  if bit v 47 && bits v 46 40 = part then
    let x := bits v 31 0 + inc
    let s := if x < 2 ^ 32 then s.setReg .islNctr ix (setBits v 31 0 x)
      else (s.setReg .islNctr ix (setBits v 31 0 (2 ^ 32 - 1))).setW1c .islNctr ix 32
    (s.evalHeads, true)
  else (s.islCount island 0x0B 1, false)

/-- `ISL_NCTR` written by the host (R217): VALUE, PART and EN are taken, and SAT is cleared where 1 is written (R5). -/
def execIslNctrWrite (island counter value : Nat) (s : State) : Out :=
  let ix := nctrIx island counter
  let sat := if s.clears .islNctr ix 32 value then 0 else bits (s.reg .islNctr ix) 32 32
  .next (s.setReg .islNctr ix (bits value 31 0 + sat * 2 ^ 32 + bits value 47 40 * 2 ^ 40)).evalHeads

/-! ### Views of time (R221) -/

/-- The new view of a time (R398): minus the offsets of the partition and its ancestors, rounded down to 64 ns. -/
def State.newView (s : State) (part t : Nat) : Nat :=
  let ofs := ((s.lineage part).filter (· != 0)).foldl (fun a p => a + s.reg .partToff p) 0
  (t + (2 ^ 64 - ofs % 2 ^ 64)) % 2 ^ 64 / 64 * 64

/-- A reading of ITIME, or PTIME with `isP`, made for a partition (R221, R398): exact for partition 0; otherwise the
larger of the new view and the largest view the island has returned, which is kept. -/
def State.viewTime (s : State) (part island : Nat) (isP : Bool) (t : Nat) : Nat × State :=
  if part = 0 then (t, s)
  else
    let u := s.part part island
    let v := max (if isP then u.viewP else u.viewI) (s.newView part t)
    (v, s.setPart part island (if isP then { u with viewP := v } else { u with viewI := v }))

/-! ### The gauge's source side -/

/-- OPT_PSTAT.STATE. -/
def PortState.code : PortState → Nat
  | .train => 0
  | .up => 1
  | .draining => 2
  | .drained => 3
  | .dark => 4
  | .relock => 5
  | .failed => 6
  | .absent => 7

/-- A gauge with no attachment, queue or run (log 6). -/
def Gauge.start : Gauge := ⟨[], [], [], none, false, []⟩
def State.gauge (s : State) (g : Nat) : Gauge := NMap.getD s.gauges g Gauge.start
def State.setGauge (s : State) (g : Nat) (x : Gauge) : State := { s with gauges := NMap.set s.gauges g x }
def State.modGauge (s : State) (g : Nat) (f : Gauge → Gauge) : State := s.setGauge g (f (s.gauge g))

/-- ITIME of a gauge's die (R219). -/
def State.gaugeTime (s : State) (g : Nat) : Nat := if g = 24 then s.cdItime else s.itime g

/-- Codes an island gauge, or the panel gauge, sees (R226). -/
def gaugeCodes (g : Nat) : List Nat :=
  if g = 24 then [0x40, 0x41, 0x42, 0x43]
  else [0x01, 0x02, 0x03, 0x04, 0x05, 0x06, 0x07, 0x10, 0x11, 0x12, 0x13, 0x20, 0x21, 0x22, 0x23, 0x30]

/-- Shared-class codes (R226). -/
def sharedCode (code : Nat) : Bool := [0x10, 0x11, 0x12, 0x13, 0x20, 0x21, 0x22, 0x23, 0x30].contains code

/-- The source unit of an event: the kind of unit, its number, and, for the ports that the panel gauge sees, their node (R226, R228). -/
def unitKey (code unit payload : Nat) : Nat :=
  (if 0x40 ≤ code then code else code / 16) * 2 ^ 16 + (if code = 0x43 then payload % 32 * 2 ^ 8 else 0) + unit

/-- An attachment's counts. -/
def Gauge.att (x : Gauge) (n : Nat) : Attach := NMap.getD x.atts n ⟨0, false⟩

/-- Whether an event matches an attachment's register (R227, R238). -/
def attMatches (r code unit : Nat) (part : Option Nat) : Bool :=
  bit r 0 && bits r 15 8 == code && (!(bit r 32 || bit r 34) || part == some (bits r 7 1)) &&
    (!bit r 48 || bits r 47 40 == unit)

/-- Adds one to a saturating 16-bit drop count of TGP_ADROP at bit `lo` (R230). -/
def State.dropCount (s : State) (g n lo : Nat) : State :=
  let ix := gaugeIx g n
  let v := s.reg .tgpAdrop ix
  s.setReg .tgpAdrop ix (setBits v (lo + 15) lo (min 0xFFFF (bits v (lo + 15) lo + 1)))

/-- Offers an event to one attachment (R227, R228): a match counts; a sampled match is held for the bus or dropped. -/
def State.offer (s : State) (g code unit : Nat) (part : Option Nat) (payload n : Nat) : State :=
  let r := s.reg .tgpAtt (gaugeIx g n)
  if attMatches r code unit part then
    let x := s.gauge g
    let a := x.att n
    let s := s.setGauge g { x with atts := NMap.set x.atts n { a with count := a.count + 1 } }
    if a.count % 2 ^ bits r 19 16 != 0 then s
    else if 2 ≤ (x.held.filter fun h => h.1 == unitKey code unit payload).length then s.dropCount g n 0
    else s.modGauge g fun x =>
      { x with held := x.held ++ [(unitKey code unit payload, ⟨code, unit, part, payload % 2 ^ 64, s.gaugeTime g, n⟩)] }
  else s

/-- An event at its source (R226 to R228, R238). -/
def State.gaugeSee (s : State) (g code unit : Nat) (part : Option Nat) (payload : Nat) : State :=
  if (gaugeCodes g).contains code then
    let ix := g * 256 + code
    let s := if g < 24 && sharedCode code then s.setReg .tgpScnt ix ((s.reg .tgpScnt ix + 1) % 2 ^ 48) else s
    (List.range 16).foldl (fun s n => s.offer g code unit part payload n) s
  else s

/-- The bus moves up to four held events into a gauge's queue, dropping at a full queue (R228). -/
def State.gaugeBus (s : State) (g : Nat) : State :=
  let x := s.gauge g
  (x.held.take 4).foldl (fun s h =>
    let x := s.gauge g
    if x.queue.length < 512 then s.setGauge g { x with queue := x.queue ++ [h.2] }
    else s.dropCount g h.2.att 16) (s.setGauge g { x with held := x.held.drop 4 })

end Sys2Proof.Machine
end

