-- ==== Sys2Proof/Machine/Flags.lean ====
section
/-!
DEFINITION. The sticky flags of LSTAT (R104), which the lanes' results set, and the bits of MODE that turn a flag's event into a stop
(R103). The flags of a result are computed where the result is: rounding in Float.lean, division in Integer.lean, poison in
Operands.lean, SHFL_OOB in FloatLanes.lean.
-/
namespace Sys2Proof.Machine

/-- LSTAT bits of R104. -/
def flagInv : BitVec 32 := 1
def flagDz : BitVec 32 := 2
def flagOvf : BitVec 32 := 4
def flagUnf : BitVec 32 := 8
def flagInx : BitVec 32 := 16
def flagDivz : BitVec 32 := 32
def flagDivovf : BitVec 32 := 64
def flagPoison : BitVec 32 := 128
def flagShfl : BitVec 32 := 256

/-- MODE.PTRAP and MODE.DIVTRAP (R103). -/
def Warp.ptrap (w : Warp) : Bool := w.mode.getLsbD 4
def Warp.divtrap (w : Warp) : Bool := w.mode.getLsbD 3

end Sys2Proof.Machine
end

