-- ==== Sys2Proof/Machine/Legal.lean ====
section
/-!
DEFINITION. What each word uses and which of its values are legal (R243 to R254, R256 step 2): the register operands an
instruction reads and writes, and the encoding checks that depend on the word alone. The check of a v register against
the warp's allocation (R93) is made at issue from the same lists.
-/
namespace Sys2Proof.Machine

/-- The register operands of an instruction: v sources with their width in registers and ctl, v destinations with their
width, s sources and s destinations; `ok` is the legality of the word's fields. -/
structure Usage where
  ok : Bool
  srcs : List (Nat × Nat × Nat) := []
  dsts : List (Nat × Nat) := []
  sS : List Nat := []
  sD : List Nat := []
  deriving DecidableEq, Repr

/-- A ctl whose bits [2:1] are not both 1 (R97). -/
def ctlOk (c : Nat) : Bool := c / 2 != 3

/-- A v operand of `n` registers starts on a multiple of its pair or quad (R54, R249). -/
def vOk (r n : Nat) : Bool := r % n == 0 && r + n ≤ 2048

/-- Every listed v operand is aligned, and every ctl legal (R97, R243). -/
def Usage.fieldsOk (u : Usage) : Bool :=
  u.srcs.all (fun x => ctlOk x.2.2 && (x.2.1 > 4 || vOk x.1 x.2.1)) &&
  u.dsts.all fun x => x.2 > 4 || vOk x.1 x.2

/-- The type codes of R254 that are 64 bits wide. -/
def is64 (ty : Nat) : Bool := ty == 2 || ty == 3 || ty == 5

/-- Registers that one value of a type occupies. -/
def regsOf (ty : Nat) : Nat := if is64 ty then 2 else 1

/-- The floating type codes f32 and f64. -/
def isF32or64 (ty : Nat) : Bool := ty == 4 || ty == 5

/-- A guard field other than 0b1111 (R244). -/
def guardOk (g : BitVec 4) : Bool := g != 15

/-- MOD with only the given RND, SAT, FTZ, PK and OP uses (R246). -/
def modOk (md : Nat) (rnd sat ftz pk : Bool) (ops : List Nat) : Bool :=
  (if rnd then md / 64 ≤ 6 else md / 64 == 0) &&
  (sat || !md.testBit 5) && (ftz || !md.testBit 4) && (pk || !md.testBit 3) && ops.contains (md % 8)

/-- Fields of a V3 word other than the guard, as numbers. -/
def v3Zero (w : WordV3) (dst sa sb ty md : Bool) : Bool :=
  (dst || w.dst == 0) && (sa || (w.sa == 0 && w.ctla == 0)) && (sb || (w.sb == 0 && w.ctlb == 0)) &&
  (ty || w.ty == 0) && (md || w.md == 0)

/-- A legal MA word's operation, type and rounding (R327). -/
def aopOk (aop ty rnd : Nat) : Bool :=
  if aop = 0 then [0, 1, 2, 3, 4, 5].contains ty && (if isF32or64 ty then rnd ≤ 6 else rnd == 0)
  else if aop = 1 || aop = 2 then [0, 1, 2, 3, 4, 5].contains ty && rnd == 0
  else aop ≤ 7 && (ty == 15 || ty == 3) && rnd == 0

/-- Registers of an M access of SIZE code `sz` (R249). -/
def sizeRegs (sz : Nat) : Nat := if sz ≤ 2 then 1 else if sz = 3 then 2 else 4

/-- Per-lane loads (R320). -/
def useLoad (w : WordM) (isGlobal : Bool) : Usage where
  ok := guardOk w.guard && (isGlobal || w.brec == 0) && w.size.toNat ≤ 4 && w.order.toNat ≤ 3
  srcs := [(w.index.toNat, 1, w.ctl.toNat)]
  dsts := [(w.data.toNat, sizeRegs w.size.toNat)]

/-- Per-lane stores (R320). -/
def useStore (w : WordM) (isGlobal : Bool) : Usage where
  ok := guardOk w.guard && (isGlobal || w.brec == 0) && w.size.toNat ≤ 4 && w.order.toNat ≤ 3
  srcs := [(w.index.toNat, 1, w.ctl.toNat), (w.data.toNat, sizeRegs w.size.toNat, w.ctl.toNat)]

/-- `wb`, `inv` and `pref` (R320). -/
def useCache (w : WordM) : Usage where
  ok := guardOk w.guard && w.data == 0 && w.size.toNat ≤ 4 && w.order == 0 && w.scope == 0
  srcs := [(w.index.toNat, 1, w.ctl.toNat)]

/-- `sldg` (R320, R325). -/
def useSldg (w : WordM) : Usage where
  ok := guardOk w.guard && w.data.toNat < 64 && w.index.toNat < 64 && (w.size == 2 || w.size == 3) &&
    w.order.toNat ≤ 3 && w.ctl == 0
  sS := [w.index.toNat % 64]
  sD := [w.data.toNat % 64]

/-- `ldrec` (R320, R325). -/
def useLdrec (w : WordM) : Usage where
  ok := guardOk w.guard && w.data.toNat < 32 && w.index.toNat < 64 && w.brec == 0 && w.size == 4 && w.order == 0 &&
    w.scope == 0 && w.ctl == 0
  sS := [w.index.toNat % 64]

/-- `fence` (R331). -/
def useFence (w : WordM) : Usage where
  ok := guardOk w.guard && w.data == 0 && w.brec == 0 && w.index == 0 && w.ctl == 0 && w.size == 0 &&
    w.order.toNat ≤ 3 && w.ofs == 0

/-- Atomics and reductions (R327): `isGlobal` names the space, `red` the forms without a returned value, `ord` the
ordered form. -/
def useAtom (w : WordMA) (isGlobal red ord : Bool) : Usage :=
  let n := regsOf w.atype.toNat
  { ok := guardOk w.guard && (isGlobal || w.brec == 0) && w.size.toNat == (if n = 2 then 3 else 2) &&
      (if ord then w.order == 0 && w.scope == 0 else w.order.toNat ≤ 3) &&
      aopOk w.aop.toNat w.atype.toNat w.arnd.toNat && (!red || w.aop.toNat ≤ 5) && w.rsv == 0 &&
      (!red || (w.ret == 0 && w.cmp == 0)) && (w.ret == 1 || (w.res == 0 && w.ctlr == 0)) &&
      (w.aop == 7 || (w.cmp == 0 && w.ctlr == 0))
    srcs := [(w.index.toNat, 1, w.ctl.toNat), (w.data.toNat, n, w.ctl.toNat)] ++
      (if w.aop == 7 then [(w.cmp.toNat, n, w.ctlr.toNat)] else [])
    dsts := if w.ret == 1 then [(w.res.toNat, n)] else [] }

/-- `br`, `brq` and `call` (R253, R336). -/
def useB (w : WordB) : Usage where
  ok := guardOk w.guard && w.ovl == 0 && w.rsv == 0

/-- `fcall` (R253, R336). -/
def useFcall (w : WordB) : Usage where
  ok := guardOk w.guard && w.ofs20.toNat ≤ 8191 && w.rsv == 0

/-- `brm` (R253, R336). -/
def useBrm (w : WordBM) : Usage where
  ok := guardOk w.guard && w.rsv == 0 && w.rsv2 == 0 && (w.p0 != 15 || w.t0 == 0) && (w.p1 != 15 || w.t1 == 0) &&
    (w.p2 != 15 || w.t2 == 0) && (w.p3 != 15 || w.t3 == 0)

/-- `callr` and `jmpr` (R336). -/
def useJmpr (w : WordV3) : Usage where
  ok := guardOk w.guard && v3Zero w false true false false false
  srcs := [(w.sa.toNat, 1, w.ctla.toNat)]

/-- `ret`, `exit` and `nop` (R336). -/
def usePlain (w : WordV3) : Usage where
  ok := guardOk w.guard && v3Zero w false false false false false

/-- `redflush`, `fence.lanes` and `fence.fetch` (R330, R332, R334). -/
def useUnguarded (w : WordV3) : Usage where
  ok := w.guard == 7 && v3Zero w false false false false false

/-- `bar` (R333). -/
def useBar (w : WordV3) : Usage where
  ok := w.guard == 7 && v3Zero w false false false false true && w.md.toNat ≤ 7

/-- The special registers of R102 that are 64 bits wide, and those that are 32. -/
def srd64 : List Nat := [0x10, 0x11, 0x1A, 0x1C]
def srd32 : List Nat := [0x00, 0x01, 0x02, 0x03, 0x04, 0x05, 0x06, 0x07, 0x08, 0x09, 0x0A, 0x18, 0x19, 0x1B]

/-- The TYPE3 code of a selector is b32 for a 32-bit register and z64 for a 64-bit one (R342). -/
def selOk (sel ty : Nat) : Bool :=
  (ty == 6 && srd32.contains sel) || (ty == 3 && srd64.contains sel)

/-- `srd` (R342). -/
def useSrd (w : WordVI) : Usage where
  ok := guardOk w.guard && w.sa == 0 && w.ctla == 0 && selOk w.imm24.toNat w.type3.toNat
  dsts := [(w.dst.toNat, if w.type3 == 3 then 2 else 1)]

/-- `swr` (R342): TILEW, MODE, LSTAT and SRSEED are written. -/
def useSwr (w : WordVI) : Usage where
  ok := guardOk w.guard && w.dst == 0 && selOk w.imm24.toNat w.type3.toNat &&
    [0x04, 0x18, 0x19, 0x1C].contains w.imm24.toNat
  srcs := [(w.sa.toNat, if w.type3 == 3 then 2 else 1, w.ctla.toNat)]

/-- `trap`, `sleep` and `gmark` (R343). -/
def useTrap (w : WordVI) : Usage where
  ok := guardOk w.guard && w.dst == 0 && w.sa == 0 && w.ctla == 0 && w.type3 == 0

/-- The selectors of R344. -/
def sysSelectors : List Nat :=
  (List.range 18).map (0x0100 + ·) ++ (List.range 19).map (0x0200 + ·) ++ [0x0300]

/-- `sysrd` (R344). -/
def useSysrd (w : WordS) : Usage where
  ok := guardOk w.guard && w.im == 0 && w.sb == 0 && w.sa == 0 && sysSelectors.contains w.imm32.toNat
  sD := [w.sd.toNat]

/-- `syswr` (R344). -/
def useSyswr (w : WordS) : Usage where
  ok := guardOk w.guard && w.im == 0 && w.sb == 0 && w.sd == 0 && sysSelectors.contains w.imm32.toNat
  sS := [w.sa.toNat]

/-- The second operand of an S word (R251): the code of IM, and the field it leaves unused is zero (R243). -/
def imOk (w : WordS) : Bool :=
  w.im != 3 && (if w.im == 0 then w.imm32 == 0 else w.sb == 0)

/-- The s register of the second operand. -/
def sbUse (w : WordS) : List Nat := if w.im == 0 then [w.sb.toNat] else []

/-- `arm` (R368). -/
def useArm (w : WordS) : Usage where
  ok := guardOk w.guard && w.sd.toNat ≤ 1 && imOk w
  sS := w.sa.toNat :: sbUse w

/-- `waitarr` (R368). -/
def useWaitarr (w : WordS) : Usage where
  ok := guardOk w.guard && w.sd == 0 && w.sb == 0 && w.im == 0 && w.imm32 == 0
  sS := [w.sa.toNat]

/-- The guard fields of an E word (R252). -/
def geOk (w : WordE) : Bool := w.ge == 1 || (w.gslot == 0 && w.xf == 0)

/-- CK of an E word's EXT [19:18], and its unused completion operand (R345). -/
def ckOf (w : WordE) : Nat := w.ext.toNat / 2 ^ 18
def ckOk (w : WordE) : Bool := ckOf w ≤ 2 && (ckOf w != 0 || w.s4 == 0)

/-- `wbload` (R345, R352, R353). -/
def useWbload (w : WordE) : Usage where
  ok := geOk w && ckOk w && w.s5 == 0 && bits w.ext.toNat 17 10 == 0 && w.imm64.toNat < 2 ^ 21 &&
    bits w.imm64.toNat 19 16 ≤ 7 &&
    (bits w.imm64.toNat 19 16 == 4 || bit w.imm64.toNat 20 || (bits w.ext.toNat 9 5 == 0 && w.s3 == 0))
  sS := [w.s1.toNat, w.s2.toNat, w.s3.toNat] ++ if ckOf w = 0 then [] else [w.s4.toNat]

/-- `wbzero` (R345). -/
def useWbzero (w : WordE) : Usage where
  ok := geOk w && ckOk w && w.s1 == 0 && w.s2 == 0 && w.s3 == 0 && w.s5 == 0 && bits w.ext.toNat 17 0 == 0 &&
    w.imm64.toNat < 2 ^ 21 && bits w.imm64.toNat 19 16 ≤ 7
  sS := if ckOf w = 0 then [] else [w.s4.toNat]

/-- `mloop` and `mloopc` (R345, R355, R356): `cnt` for the form that counts in S5. -/
def useMloop (w : WordE) (cnt : Bool) : Usage where
  ok := geOk w && ckOk w && (cnt || w.s5 == 0) && bits w.ext.toNat 17 16 == 0 && bits w.ext.toNat 12 9 ≤ 11 &&
    bits w.imm64.toNat 31 20 == 0 && w.imm64.toNat < 2 ^ 50 && (!cnt || bits w.imm64.toNat 11 0 == 0) &&
    (if bit w.ext.toNat 8 then w.s1 == 0 else bits w.ext.toNat 7 4 == 0 && !bit w.ext.toNat 15)
  sS := (if bit w.ext.toNat 8 then [] else [w.s1.toNat]) ++ [w.s2.toNat, w.s3.toNat] ++
    (if ckOf w = 0 then [] else [w.s4.toNat]) ++ if cnt then [w.s5.toNat] else []

/-- `put` (R345): EXT [5] TCEN and [6] SCEN. -/
def usePut (w : WordE) : Usage where
  ok := geOk w && bits w.ext.toNat 19 7 == 0 && w.imm64.toNat < 2 ^ 36 && (bit w.ext.toNat 5 || w.imm64 == 0) &&
    (bit w.ext.toNat 6 || w.s5 == 0)
  sS := [w.s1.toNat, w.s2.toNat, w.s3.toNat, w.s4.toNat] ++ if bit w.ext.toNat 6 then [w.s5.toNat] else []

/-- `get` (R345). -/
def useGet (w : WordE) : Usage where
  ok := geOk w && bits w.ext.toNat 19 7 == 0 && !bit w.ext.toNat 5 && w.imm64 == 0 && (bit w.ext.toNat 6 || w.s5 == 0)
  sS := [w.s1.toNat, w.s2.toNat, w.s3.toNat, w.s4.toNat] ++ if bit w.ext.toNat 6 then [w.s5.toNat] else []

/-- `ratom` (R345, R367): RES [5:0], RET [6], AOP [9:7], ATYPE [13:10], ARND [16:14], SCEN [17], TCEN [18]. -/
def useRatom (w : WordE) : Usage :=
  let e := w.ext.toNat
  { ok := geOk w && !bit e 19 && aopOk (bits e 9 7) (bits e 13 10) (bits e 16 14) && (bit e 6 || bits e 5 0 == 0) &&
      w.imm64.toNat < 2 ^ 36 && (bit e 18 || w.imm64 == 0) && (bit e 17 || w.s5 == 0) && (bits e 9 7 == 7 || w.s4 == 0)
    sS := [w.s1.toNat, w.s2.toNat, w.s3.toNat] ++ (if bits e 9 7 = 7 then [w.s4.toNat] else []) ++
      if bit e 17 then [w.s5.toNat] else []
    sD := if bit e 6 then [bits e 5 0] else [] }

/-- `notify` (R345, R369). -/
def useNotify (w : WordE) : Usage where
  ok := geOk w && w.s3 == 0 && w.s4 == 0 && w.s5 == 0 && w.ext == 0 && w.imm64.toNat < 2 ^ 16 && w.imm64 != 0
  sS := [w.s1.toNat, w.s2.toNat]

/-- `xfill` (R345, R361): MODE [11:10], DQ [12]. -/
def useXfill (w : WordE) : Usage :=
  let e := w.ext.toNat
  { ok := geOk w && ckOk w && w.s5 == 0 && bits e 17 13 == 0 && w.imm64 == 0 && (!bit e 12 || bits e 11 10 == 0) &&
      (bit e 12 || bits e 9 5 == 0) && (bits e 11 10 ≤ 1 || bits e 4 0 == 0)
    sS := [w.s1.toNat, w.s2.toNat, w.s3.toNat] ++ if ckOf w = 0 then [] else [w.s4.toNat] }

/-- `ovld` (R345, R362). -/
def useOvld (w : WordE) : Usage where
  ok := geOk w && ckOk w && w.s3 == 0 && w.s5 == 0 && bits w.ext.toNat 17 2 == 0 && w.imm64.toNat < 2 ^ 16
  sS := [w.s1.toNat, w.s2.toNat] ++ if ckOf w = 0 then [] else [w.s4.toNat]

/-- `onceinit` (R345, R363). -/
def useOnceinit (w : WordE) : Usage where
  ok := geOk w && ckOk w && w.s3 == 0 && w.s5 == 0 && bits w.ext.toNat 17 0 == 0 && w.imm64 == 0
  sS := [w.s1.toNat, w.s2.toNat] ++ if ckOf w = 0 then [] else [w.s4.toNat]

/-- `launch` (R345, R371). -/
def useLaunch (w : WordE) : Usage where
  ok := geOk w && w.s3 == 0 && w.s4 == 0 && w.s5 == 0 && w.ext.toNat ≤ 1 && w.imm64 == 0 && (w.ext == 1 || w.s2 == 0)
  sS := w.s1.toNat :: if w.ext == 1 then [w.s2.toNat] else []

/-- The types of the tile instructions (R351). -/
def accTypes : List Nat := [4, 5, 6, 7, 8, 9]

/-- ROW0, COUNT and COLQ of IMM32 (R351). -/
def accRow (i : Nat) : Nat := bits i 4 0
def accCount (i : Nat) : Nat := bits i 9 5 + 1
def accColq (i : Nat) : Nat := bits i 11 10

/-- `accrd` (R351). -/
def useAccrd (w : WordV4) : Usage :=
  let i := w.imm32.toNat
  let n := accCount i * regsOf w.ty.toNat
  { ok := guardOk w.guard && accTypes.contains w.ty.toNat && w.sa.toNat < 16 && w.ctla == 0 && w.sb == 0 && w.ctlb == 0 &&
      w.sc == 0 && w.ctlc == 0 && w.xmod == 0 && i < 2 ^ 12 && accRow i + accCount i ≤ 32 &&
      modOk w.md.toNat true true true false [0] && (w.ty != 5 || (w.sa.toNat % 2 == 0 && w.dst.toNat % 2 == 0)) &&
      w.dst.toNat + n ≤ 2048
    dsts := (List.range n).map fun j => (w.dst.toNat + j, 1) }

/-- `accwr` (R351). -/
def useAccwr (w : WordV4) : Usage :=
  let i := w.imm32.toNat
  let n := accCount i * regsOf w.ty.toNat
  { ok := guardOk w.guard && accTypes.contains w.ty.toNat && w.dst.toNat < 16 && w.sb == 0 && w.ctlb == 0 &&
      w.sc == 0 && w.ctlc == 0 && w.xmod == 0 && i < 2 ^ 12 && accRow i + accCount i ≤ 32 &&
      modOk w.md.toNat false false true false [0] && (w.ty != 5 || (w.dst.toNat % 2 == 0 && w.sa.toNat % 2 == 0)) &&
      w.sa.toNat + n ≤ 2048
    srcs := (List.range n).map fun j => (w.sa.toNat + j, 1, w.ctla.toNat) }

/-- `acczero` (R351). -/
def useAcczero (w : WordV3) : Usage where
  ok := guardOk w.guard && (w.ty == 4 || w.ty == 5) && w.dst.toNat < 16 && v3Zero w true false false true false &&
    (w.ty != 5 || w.dst.toNat % 2 == 0)

/-- `keymap` (R372). -/
def useKeymap (w : WordV3) : Usage where
  ok := guardOk w.guard && w.ty == 3 && v3Zero w true true false true true && w.md.toNat ≤ 1
  srcs := [(w.sa.toNat, 2, w.ctla.toNat)]
  dsts := [(w.dst.toNat, 1)]

/-- `garm` (R370). -/
def useGarm (w : WordV3) : Usage where
  ok := guardOk w.guard && w.dst.toNat < 16 && v3Zero w true false false false false

/-- `gset` (R370). -/
def useGset (w : WordV3) : Usage :=
  let op := w.md.toNat % 8
  { ok := guardOk w.guard && w.dst.toNat < 16 && w.ctla == 0 && w.ctlb == 0 && bits w.md.toNat 5 3 == 0 &&
      (if op ≤ 2 then w.sa.toNat < 8 && w.sb == 0 && w.ty == 0 && w.md.toNat < 8
       else op == 3 && w.sa.toNat < 64 && w.sb.toNat < 64 && (w.ty == 2 || w.ty == 3) && w.md.toNat / 64 ≤ 5)
    sS := if op = 3 then [w.sa.toNat % 64, w.sb.toNat % 64] else [] }

/-! ### Integer, logic, address and predicate words (R269 to R271, R292, R293) -/

/-- Type classes of R269. -/
def tyWide : List Nat := [0, 1, 2, 3]
def tyNarrow : List Nat := [10, 11, 12, 13]
def tyBits : List Nat := [15, 3]

/-- V3 lane words over one type: `two` sources or one, destination `dn` registers or the type's own. -/
def useV3 (w : WordV3) (types : List Nat) (two sat pk : Bool) (ops : List Nat) : Usage :=
  let n := regsOf w.ty.toNat
  { ok := guardOk w.guard && types.contains w.ty.toNat && v3Zero w true true two true true &&
      modOk w.md.toNat false sat false (pk && tyNarrow.contains w.ty.toNat) ops
    srcs := (w.sa.toNat, n, w.ctla.toNat) :: if two then [(w.sb.toNat, n, w.ctlb.toNat)] else []
    dsts := [(w.dst.toNat, n)] }

/-- V3 shifts and field extracts: the second source is one register (R271). -/
def useShift (w : WordV3) (ops : List Nat) : Usage :=
  let n := regsOf w.ty.toNat
  { ok := guardOk w.guard && tyBits.contains w.ty.toNat && modOk w.md.toNat false false false false ops
    srcs := [(w.sa.toNat, n, w.ctla.toNat), (w.sb.toNat, 1, w.ctlb.toNat)]
    dsts := [(w.dst.toNat, n)] }

/-- `popc`, `clz` and `ctz`: one 32-bit destination (R283). -/
def useCount (w : WordV3) : Usage where
  ok := guardOk w.guard && tyBits.contains w.ty.toNat && v3Zero w true true false true false
  srcs := [(w.sa.toNat, regsOf w.ty.toNat, w.ctla.toNat)]
  dsts := [(w.dst.toNat, 1)]

/-- VI lane words with a v source (R247, R271). -/
def useVI (w : WordVI) (types : List Nat) (n : Nat) : Usage where
  ok := guardOk w.guard && types.contains w.type3.toNat
  srcs := [(w.sa.toNat, n, w.ctla.toNat)]
  dsts := [(w.dst.toNat, n)]

/-- Registers of a TYPE3 code (R247). -/
def regsOf3 (t : Nat) : Nat := if t = 2 || t = 3 || t = 5 then 2 else 1

/-- V4 words whose extra fields are all zero but IMM32 below `imax` and XMOD below `xmax`. -/
def v4Zero (w : WordV4) (imax xmax : Nat) : Bool := w.imm32.toNat < imax && w.xmod.toNat < xmax

/-- `imad` (R271). -/
def useImad (w : WordV4) : Usage :=
  let n := regsOf w.ty.toNat
  { ok := guardOk w.guard && (tyWide ++ tyNarrow).contains w.ty.toNat && v4Zero w 1 1 &&
      modOk w.md.toNat false true false (tyNarrow.contains w.ty.toNat) [0]
    srcs := [(w.sa.toNat, n, w.ctla.toNat), (w.sb.toNat, n, w.ctlb.toNat), (w.sc.toNat, n, w.ctlc.toNat)]
    dsts := [(w.dst.toNat, n)] }

/-- `idot4` (R271): s8 or z8, PK must be 1. -/
def useIdot4 (w : WordV4) : Usage where
  ok := guardOk w.guard && (w.ty == 12 || w.ty == 13) && v4Zero w 1 1 && w.md.toNat.testBit 3 &&
    modOk w.md.toNat false true false true [0]
  srcs := [(w.sa.toNat, 1, w.ctla.toNat), (w.sb.toNat, 1, w.ctlb.toNat), (w.sc.toNat, 1, w.ctlc.toNat)]
  dsts := [(w.dst.toNat, 1)]

/-- `lut3` (R279). -/
def useLut3 (w : WordV4) : Usage :=
  let n := regsOf w.ty.toNat
  { ok := guardOk w.guard && tyBits.contains w.ty.toNat && v4Zero w 256 1 && w.md == 0
    srcs := [(w.sa.toNat, n, w.ctla.toNat), (w.sb.toNat, n, w.ctlb.toNat), (w.sc.toNat, n, w.ctlc.toNat)]
    dsts := [(w.dst.toNat, n)] }

/-- `extr` (R281). -/
def useExtr (w : WordV4) : Usage where
  ok := guardOk w.guard && w.ty == 15 && v4Zero w 1 1 && modOk w.md.toNat false false false false [0, 1, 2, 3]
  srcs := [(w.sa.toNat, 1, w.ctla.toNat), (w.sb.toNat, 1, w.ctlb.toNat), (w.sc.toNat, 1, w.ctlc.toNat)]
  dsts := [(w.dst.toNat, 1)]

/-- `bfi` (R282). -/
def useBfi (w : WordV4) : Usage :=
  let n := regsOf w.ty.toNat
  { ok := guardOk w.guard && tyBits.contains w.ty.toNat && v4Zero w 1 1 && w.md == 0
    srcs := [(w.sa.toNat, n, w.ctla.toNat), (w.sb.toNat, n, w.ctlb.toNat), (w.sc.toNat, 1, w.ctlc.toNat)]
    dsts := [(w.dst.toNat, n)] }

/-- `icmp` (R284): DST names a predicate. -/
def useIcmp (w : WordV3) : Usage :=
  let n := regsOf w.ty.toNat
  { ok := guardOk w.guard && (tyWide ++ tyNarrow).contains w.ty.toNat && w.dst.toNat < 8 &&
      modOk w.md.toNat false false false false [0, 1, 2, 3, 4, 5]
    srcs := [(w.sa.toNat, n, w.ctla.toNat), (w.sb.toNat, n, w.ctlb.toNat)] }

/-- `icmpi` (R285). -/
def useIcmpi (w : WordVI) : Usage where
  ok := guardOk w.guard && w.type3.toNat ≤ 3 && w.dst.toNat < 8 && bits w.imm24.toNat 23 21 ≤ 5
  srcs := [(w.sa.toNat, regsOf3 w.type3.toNat, w.ctla.toNat)]

/-- `sel` (R286): SC names a predicate, XMOD[0] negates it. -/
def useSel (w : WordV4) : Usage :=
  let n := regsOf w.ty.toNat
  { ok := guardOk w.guard && tyBits.contains w.ty.toNat && w.sc.toNat < 8 && w.ctlc == 0 && v4Zero w 1 2 && w.md == 0
    srcs := [(w.sa.toNat, n, w.ctla.toNat), (w.sb.toNat, n, w.ctlb.toNat)]
    dsts := [(w.dst.toNat, n)] }

/-- `plop` (R287): every register field names a predicate. -/
def usePlop (w : WordV3) : Usage where
  ok := guardOk w.guard && w.ty == 0 && w.dst.toNat < 8 && w.sa.toNat < 8 && w.sb.toNat < 8 && w.ctla == 0 &&
    w.ctlb == 0 && modOk w.md.toNat false false false false [0, 1, 2, 3, 4]

/-- `mov` (R288): OP selects the register kinds. -/
def useMov (w : WordV3) : Usage :=
  let op := w.md.toNat % 8
  let n := regsOf w.ty.toNat
  { ok := guardOk w.guard && tyBits.contains w.ty.toNat && v3Zero w true true false true true &&
      modOk w.md.toNat false false false false [0, 1, 2, 3] &&
      (op == 0 || op == 2 || w.ctla == 0) && (op != 1 || (w.ty == 15 && w.sa.toNat < 8)) &&
      (op != 2 || w.dst.toNat < 8) && (op != 3 || w.sa.toNat < 64)
    srcs := if op = 0 || op = 2 then [(w.sa.toNat, n, w.ctla.toNat)] else []
    dsts := if op = 2 then [] else [(w.dst.toNat, n)]
    sS := if op = 3 then [w.sa.toNat % 64] else [] }

/-- `movi` (R289). -/
def useMovi (w : WordVI) : Usage where
  ok := guardOk w.guard && w.type3.toNat ≤ 6 && w.sa == 0 && w.ctla == 0
  dsts := [(w.dst.toNat, regsOf3 w.type3.toNat)]

/-- `movw` (R289). -/
def useMovw (w : WordV4) : Usage where
  ok := guardOk w.guard && [15, 2, 3].contains w.ty.toNat && w.sa == 0 && w.sb == 0 && w.sc == 0 && w.ctla == 0 &&
    w.ctlb == 0 && w.ctlc == 0 && w.md == 0 && w.xmod == 0
  dsts := [(w.dst.toNat, regsOf w.ty.toNat)]

/-- The source type that OP names in `icvt` (R290). -/
def icvtSrc (op : Nat) : Nat := [0, 1, 2, 3, 10, 11, 12, 13].getD op 0

/-- `icvt` (R290). -/
def useIcvt (w : WordV3) : Usage :=
  { ok := guardOk w.guard && (tyWide ++ tyNarrow).contains w.ty.toNat && v3Zero w true true false true true &&
      modOk w.md.toNat false true false false [0, 1, 2, 3, 4, 5, 6, 7]
    srcs := [(w.sa.toNat, regsOf (icvtSrc (w.md.toNat % 8)), w.ctla.toNat)]
    dsts := [(w.dst.toNat, regsOf w.ty.toNat)] }

/-- `lea` (R291). -/
def useLea (w : WordV3) : Usage where
  ok := guardOk w.guard && w.ty.toNat ≤ 1 && modOk w.md.toNat false false false false [0, 1, 2, 3, 4, 5, 6, 7]
  srcs := [(w.sa.toNat, 2, w.ctla.toNat), (w.sb.toNat, 1, w.ctlb.toNat)]
  dsts := [(w.dst.toNat, 2)]

/-- Scalar words with a second operand Y (R292, R293). -/
def useSY (w : WordS) : Usage where
  ok := guardOk w.guard && imOk w
  sS := w.sa.toNat :: sbUse w
  sD := [w.sd.toNat]

/-- `smov` (R293). -/
def useSmov (w : WordS) : Usage where
  ok := guardOk w.guard && imOk w && w.sa == 0
  sS := sbUse w
  sD := [w.sd.toNat]

/-- `smin`, `smax` (R293). -/
def useSminmax (w : WordS) : Usage where
  ok := guardOk w.guard && w.im == 0 && w.imm32.toNat ≤ 1
  sS := [w.sa.toNat, w.sb.toNat]
  sD := [w.sd.toNat]

/-- `scmp` (R293): SD names a q register. -/
def useScmp (w : WordS) : Usage where
  ok := guardOk w.guard && w.im == 0 && w.imm32.toNat < 16 && w.imm32.toNat % 8 ≤ 5 && w.sd.toNat < 8
  sS := [w.sa.toNat, w.sb.toNat]

/-- `ssel` (R293). -/
def useSsel (w : WordS) : Usage where
  ok := guardOk w.guard && w.im == 0 && w.imm32.toNat < 16
  sS := [w.sa.toNat, w.sb.toNat]
  sD := [w.sd.toNat]

/-- `qlop` (R293): every register field names a q register. -/
def useQlop (w : WordS) : Usage where
  ok := guardOk w.guard && w.im == 0 && w.imm32.toNat ≤ 4 && w.sd.toNat < 8 && w.sa.toNat < 8 && w.sb.toNat < 8

/-- `brec` (R295): SD names a buffer record. -/
def useBrec (w : WordS) : Usage where
  ok := guardOk w.guard && w.im == 0 && w.imm32 == 0 && w.sd.toNat < 32
  sS := [w.sa.toNat, w.sb.toNat]

/-- `bget` (R295): SA names a buffer record. -/
def useBget (w : WordS) : Usage where
  ok := guardOk w.guard && w.im == 0 && w.sb == 0 && w.sa.toNat < 32 && w.imm32.toNat ≤ 1
  sD := [w.sd.toNat]

/-! ### Floating-point words (R297, R298) and lane exchange (R312) -/

/-- The class F of R297. -/
def tyF : List Nat := [4, 5, 6, 7]
/-- PK is allowed for f16 and bf16 only (R297). -/
def fpk (ty : BitVec 4) : Bool := ty == 6 || ty == 7

/-- V3 float words: `n` sources of the type, with the MOD fields the row names. -/
def useF (w : WordV3) (types : List Nat) (two rnd sat pk : Bool) (ops : List Nat) : Usage :=
  let n := regsOf w.ty.toNat
  { ok := guardOk w.guard && types.contains w.ty.toNat && v3Zero w true true two true true &&
      modOk w.md.toNat rnd sat true (pk && fpk w.ty) ops
    srcs := (w.sa.toNat, n, w.ctla.toNat) :: if two then [(w.sb.toNat, n, w.ctlb.toNat)] else []
    dsts := [(w.dst.toNat, n)] }

/-- `ffma` (R298). -/
def useFfma (w : WordV4) : Usage :=
  let n := regsOf w.ty.toNat
  { ok := guardOk w.guard && tyF.contains w.ty.toNat && v4Zero w 1 1 && modOk w.md.toNat true true true (fpk w.ty) [0]
    srcs := [(w.sa.toNat, n, w.ctla.toNat), (w.sb.toNat, n, w.ctlb.toNat), (w.sc.toNat, n, w.ctlc.toNat)]
    dsts := [(w.dst.toNat, n)] }

/-- `fdot2` and `fdot4` (R298): PK must be 1. -/
def useFdot (w : WordV4) (types : List Nat) : Usage where
  ok := guardOk w.guard && types.contains w.ty.toNat && v4Zero w 1 1 && w.md.toNat.testBit 3 &&
    modOk w.md.toNat true true true true [0]
  srcs := [(w.sa.toNat, 1, w.ctla.toNat), (w.sb.toNat, 1, w.ctlb.toNat), (w.sc.toNat, 1, w.ctlc.toNat)]
  dsts := [(w.dst.toNat, 1)]

/-- `fcmp` (R301). -/
def useFcmp (w : WordV3) : Usage :=
  let n := regsOf w.ty.toNat
  { ok := guardOk w.guard && tyF.contains w.ty.toNat && w.dst.toNat < 8 &&
      modOk w.md.toNat false false true false [0, 1, 2, 3, 4, 5, 6, 7]
    srcs := [(w.sa.toNat, n, w.ctla.toNat), (w.sb.toNat, n, w.ctlb.toNat)] }

/-- `fclass` (R302). -/
def useFclass (w : WordV3) : Usage where
  ok := guardOk w.guard && tyF.contains w.ty.toNat && v3Zero w true true false true true &&
    modOk w.md.toNat false false true false [0]
  srcs := [(w.sa.toNat, regsOf w.ty.toNat, w.ctla.toNat)]
  dsts := [(w.dst.toNat, 1)]

/-- The float source type that OP names in `fcvt` and `f2i` (R307). -/
def fcvtSrc (op : Nat) : Nat := [4, 5, 6, 7, 8, 9].getD op 4

/-- `fcvt` (R307). -/
def useFcvt (w : WordV3) : Usage where
  ok := guardOk w.guard && [4, 5, 6, 7, 8, 9].contains w.ty.toNat && v3Zero w true true false true true &&
    modOk w.md.toNat true true true false [0, 1, 2, 3, 4, 5]
  srcs := [(w.sa.toNat, regsOf (fcvtSrc (w.md.toNat % 8)), w.ctla.toNat)]
  dsts := [(w.dst.toNat, regsOf w.ty.toNat)]

/-- `f2i` (R308). -/
def useF2i (w : WordV3) : Usage where
  ok := guardOk w.guard && (tyWide ++ tyNarrow).contains w.ty.toNat && v3Zero w true true false true true &&
    modOk w.md.toNat true false true false [0, 1, 2, 3]
  srcs := [(w.sa.toNat, regsOf (fcvtSrc (w.md.toNat % 8)), w.ctla.toNat)]
  dsts := [(w.dst.toNat, regsOf w.ty.toNat)]

/-- `i2f` (R308). -/
def useI2f (w : WordV3) : Usage where
  ok := guardOk w.guard && tyF.contains w.ty.toNat && v3Zero w true true false true true &&
    modOk w.md.toNat true true true false [0, 1, 2, 3, 4, 5, 6, 7]
  srcs := [(w.sa.toNat, regsOf (icvtSrc (w.md.toNat % 8)), w.ctla.toNat)]
  dsts := [(w.dst.toNat, regsOf w.ty.toNat)]

/-- `fpack` (R309): the 16-bit forms use no SC and no XMOD. -/
def useFpack (w : WordV4) : Usage :=
  let half := w.ty == 6 || w.ty == 7
  { ok := guardOk w.guard && [6, 7, 8, 9, 14].contains w.ty.toNat && modOk w.md.toNat true true true false [0] &&
      (if half then w.sc == 0 && w.ctlc == 0 && v4Zero w 1 1
       else if w.ty == 14 then v4Zero w 1 4 else v4Zero w 1 2)
    srcs := [(w.sa.toNat, 1, w.ctla.toNat), (w.sb.toNat, 1, w.ctlb.toNat)] ++
      if half then [] else [(w.sc.toNat, 1, w.ctlc.toNat)]
    dsts := [(w.dst.toNat, 1)] }

/-- `funpack` (R310). -/
def useFunpack (w : WordV3) : Usage where
  ok := guardOk w.guard && [6, 7, 8, 9, 14].contains w.ty.toNat && v3Zero w true true false true true &&
    modOk w.md.toNat false false true false
      (if w.ty == 14 then [0, 1, 2, 3, 4, 5, 6, 7] else if w.ty == 8 || w.ty == 9 then [0, 1, 2, 3] else [0, 1])
  srcs := [(w.sa.toNat, 1, w.ctla.toNat)]
  dsts := [(w.dst.toNat, 1)]

/-- `fscale` (R299): the second source is one register. -/
def useFscale (w : WordV3) : Usage :=
  let n := regsOf w.ty.toNat
  { ok := guardOk w.guard && tyF.contains w.ty.toNat && modOk w.md.toNat true true true (fpk w.ty) [0]
    srcs := [(w.sa.toNat, n, w.ctla.toNat), (w.sb.toNat, 1, w.ctlb.toNat)]
    dsts := [(w.dst.toNat, n)] }

/-- `fmxsc` (R311). -/
def useFmxsc (w : WordV3) : Usage where
  ok := guardOk w.guard && w.ty == 4 && v3Zero w true true false true true && modOk w.md.toNat false false true false [0]
  srcs := [(w.sa.toNat, 1, w.ctla.toNat)]
  dsts := [(w.dst.toNat, 1)]

/-- `fsgn` (R300): SB only for `.copy`. -/
def useFsgn (w : WordV3) : Usage := useF w tyF (w.md.toNat % 8 == 1) false false true [0, 1]

/-- `faddi` and `fmuli` (R299). -/
def useFI (w : WordVI) : Usage := useVI w [4, 5] (regsOf3 w.type3.toNat)

/-- The mask bit MK of a lane-exchange word (R312). -/
def mkOf (md : BitVec 9) : Bool := md.getLsbD 3

/-- `shfl` (R312, R315): with MK, vb is even and vm follows it. -/
def useShfl (w : WordV3) : Usage :=
  let n := regsOf w.ty.toNat
  { ok := guardOk w.guard && tyBits.contains w.ty.toNat && modOk w.md.toNat false false false true [0, 1, 2, 3]
    srcs := [(w.sa.toNat, n, w.ctla.toNat), (w.sb.toNat, if mkOf w.md then 2 else 1, w.ctlb.toNat)]
    dsts := [(w.dst.toNat, n)] }

/-- `vote` and `ballot` (R312): SA names a predicate, SB the mask with MK. -/
def useVote (w : WordV3) (isP : Bool) (ops : List Nat) : Usage where
  ok := guardOk w.guard && w.ty == 0 && w.sa.toNat < 8 && w.ctla == 0 && (!isP || w.dst.toNat < 8) &&
    (mkOf w.md || (w.sb == 0 && w.ctlb == 0)) && modOk w.md.toNat false false false true ops
  srcs := if mkOf w.md then [(w.sb.toNat, 1, w.ctlb.toNat)] else []
  dsts := if isP then [] else [(w.dst.toNat, 1)]

/-- `match` (R312). -/
def useMatch (w : WordV3) : Usage where
  ok := guardOk w.guard && tyBits.contains w.ty.toNat && (mkOf w.md || (w.sb == 0 && w.ctlb == 0)) &&
    modOk w.md.toNat false false false true [0]
  srcs := (w.sa.toNat, regsOf w.ty.toNat, w.ctla.toNat) ::
    if mkOf w.md then [(w.sb.toNat, 1, w.ctlb.toNat)] else []
  dsts := [(w.dst.toNat, 1)]

/-- `qswap` and `qbcast` (R312). -/
def useQuad (w : WordV3) (ops : List Nat) : Usage := useV3 w tyBits false false false ops

/-- Types and MOD fields of `wred` and `wscan` (R316): `op` is the operation 0 to 5. -/
def redTypeOk (op ty md : Nat) (ops : List Nat) : Bool :=
  if op ≤ 2 then
    if tyWide.contains ty then modOk md false (op == 0) false true ops
    else tyF.contains ty && modOk md (op == 0) (op == 0) true true ops
  else tyBits.contains ty && modOk md false false false true ops

/-- `wred` and `wscan` (R312, R316). -/
def useWred (w : WordV3) (scan : Bool) : Usage :=
  let n := regsOf w.ty.toNat
  let op := w.md.toNat % 8
  { ok := guardOk w.guard && (mkOf w.md || (w.sb == 0 && w.ctlb == 0)) &&
      (if scan then redTypeOk (op % 4) w.ty.toNat w.md.toNat [0, 1, 2, 4, 5, 6]
       else redTypeOk op w.ty.toNat w.md.toNat [0, 1, 2, 3, 4, 5])
    srcs := (w.sa.toNat, n, w.ctla.toNat) :: if mkOf w.md then [(w.sb.toNat, 1, w.ctlb.toNat)] else []
    dsts := [(w.dst.toNat, n)] }

/-- `tilew` (R312, R318). -/
def useTilew (w : WordVI) : Usage where
  ok := guardOk w.guard && w.dst == 0 && w.sa == 0 && w.ctla == 0 && w.type3 == 0 &&
    [2, 4, 8, 16, 32].contains w.imm24.toNat

/-- `rdlane` (R312): DST names an s register. -/
def useRdlane (w : WordV3) : Usage where
  ok := guardOk w.guard && tyBits.contains w.ty.toNat && w.dst.toNat < 64 && w.sb.toNat < 32 && w.ctlb == 0 && w.md == 0
  srcs := [(w.sa.toNat, regsOf w.ty.toNat, w.ctla.toNat)]
  sD := [w.dst.toNat % 64]

/-- `wrlane` (R312): SA names an s register. -/
def useWrlane (w : WordV3) : Usage where
  ok := guardOk w.guard && tyBits.contains w.ty.toNat && w.sa.toNat < 64 && w.ctla == 0 && w.sb.toNat < 32 &&
    w.ctlb == 0 && w.md == 0
  dsts := [(w.dst.toNat, regsOf w.ty.toNat)]
  sS := [w.sa.toNat % 64]

/-- `grpmask` (R312). -/
def useGrpmask (w : WordV3) : Usage where
  ok := guardOk w.guard && v3Zero w true false false false false
  dsts := [(w.dst.toNat, 1)]

end Sys2Proof.Machine
end

