-- ==== Sys2Proof/Machine/Operands.lean ====
section
/-!
DEFINITION. The issue of one instruction: guards, the checks of R256 in their order, source reads with poison (R96 to
R98), last-use marks, and the shared shapes of a meaning: a lane instruction, a scalar instruction, and a lane
instruction whose results return later (R95).
-/
namespace Sys2Proof.Machine

/-- Everything an issuing instruction reads of its surroundings. -/
structure Ctx where
  wid : Nat
  i : Issue
  w : Warp
  b : Block
  g : Grid
  ovl : Nat
  /-- the words at the PC -/
  words : List Word

/-- The context of a group in progress. -/
def State.ctx (s : State) (i : Issue) : Ctx :=
  let w := s.warp i.warp
  let b := s.block w.block
  let word (k : Nat) : Word := BitVec.ofNat 64 (s.readMem (slotAddr b.island b.core i.pc.slot (i.pc.ofs + k)) 8)
  { wid := i.warp, i := i, w := w, b := b, g := s.grid b.grid, ovl := s.ovlOf b.island b.core i.pc.slot
    words := [word 0, word 1] }

/-- A guard field admits a thread (R244): the predicate exclusive-ORed with NEG. -/
def admits (g : BitVec 4) (p : BitVec 7) : Bool := readPred p (g.toNat % 8) != g.getLsbD 3

/-- Member lanes that the guard admits. -/
def Ctx.members (c : Ctx) (g : BitVec 4) : List Nat := c.i.lanes.filter fun l => admits g (c.w.thread l).p
/-- Following helper lanes that the guard admits (R31). -/
def Ctx.helpers (c : Ctx) (g : BitVec 4) : List Nat := c.i.helpers.filter fun l => admits g (c.w.thread l).p
/-- The q guard of an S word or `brq` (R244). -/
def Ctx.qOn (c : Ctx) (g : BitVec 4) : Bool := admits g c.w.q

/-- Whether any of `n` registers from `r` is dead in a lane. -/
def isDead (w : Warp) (l r : Nat) : Nat → Bool
  | 0 => false
  | n + 1 => (w.vreg l r).dead || isDead w l (r + 1) n

/-- Whether any of `n` registers from `r` is empty in a lane. -/
def isEmptyV (w : Warp) (l r : Nat) : Nat → Bool
  | 0 => false
  | n + 1 => !(w.vreg l r).full || isEmptyV w l (r + 1) n

/-- A read of one 64-bit pair (R54, R98). -/
def readPair (w : Warp) (l r : Nat) : Nat :=
  if isDead w l r 2 then 0xFFF8000000000001
  else (w.vreg l r).val.toNat + (w.vreg l (r + 1)).val.toNat * 2 ^ 32

/-- A read of an operand of 1, 2 or 4 registers: a dead register reads as poison (R98; each pair of a 16-byte operand
reads as a pair, DEDUCED log 11). -/
def readV (w : Warp) (l r n : Nat) : Nat :=
  if n = 1 then (if (w.vreg l r).dead then 0xFFC00001 else (w.vreg l r).val.toNat)
  else if n = 2 then readPair w l r
  else readPair w l r + readPair w l (r + 2) * 2 ^ 64

/-- The outcome of the checks before an instruction acts. A stop names the lanes that raise it, none where no lane does (log 87). -/
inductive Check where
  | go
  | wait
  | stop (cls : Nat) (lanes : List Nat) (info0 info1 : Nat)
  deriving DecidableEq, Repr

/-- The first check that does not pass. -/
def Check.andThen (a : Check) (b : Check) : Check :=
  match a with
  | .go => b
  | x => x

/-- R93: every v operand lies in the warp's allocation. -/
def allocated (w : Warp) (u : Usage) : Bool :=
  u.srcs.all (fun x => x.1 + x.2.1 ≤ 64 * w.gran) && u.dsts.all fun x => x.1 + x.2 ≤ 64 * w.gran

/-- R256 step 2: the word's fields, then the allocation. -/
def checkEncoding (c : Ctx) (u : Usage) : Check :=
  if u.ok && u.fieldsOk && allocated c.w u then .go else .stop 0x02 [] 0 0

/-- The full/empty part of R256 step 4 (R96). `adm` are the admitted lanes, members and helpers, whose destinations
count. -/
def checkEmpty (c : Ctx) (u : Usage) (adm : List Nat) : Check :=
  let emptyTrap := c.i.lanes.filter fun l =>
    u.srcs.any fun x => x.2.2 % 2 == 1 && isEmptyV c.w l x.1 x.2.1
  let waits :=
    (c.i.lanes ++ c.i.helpers).any (fun l => u.srcs.any fun x => isEmptyV c.w l x.1 x.2.1) ||
    adm.any (fun l => u.dsts.any fun x => isEmptyV c.w l x.1 x.2) ||
    (u.sS ++ u.sD).any fun r => c.w.sEmpty.contains r
  if !emptyTrap.isEmpty then .stop 0x05 emptyTrap 0 0 else if waits then .wait else .go

/-- Whether a lane's read of its own sources raises POISON_TRAP (R98): in a helper lane it writes zero instead (R31). -/
def Ctx.poisoned (c : Ctx) (u : Usage) (l : Nat) : Bool :=
  u.srcs.any fun x => (c.w.ptrap || x.2.2 % 2 == 1) && isDead c.w l x.1 x.2.1

/-- The poison part of R256 step 4 (R98), for lanes that read their own registers: it is raised in any member lane, whatever lanes the
guard admits. -/
def checkPoison (c : Ctx) (u : Usage) : Check :=
  let poisonTrap := c.i.lanes.filter (c.poisoned u)
  if poisonTrap.isEmpty then .go else .stop 0x06 poisonTrap 0 0

/-- R256 step 4: full/empty, then poison (R96, R98). -/
def checkSources (c : Ctx) (u : Usage) (adm : List Nat) : Check :=
  (checkEmpty c u adm).andThen (checkPoison c u)

/-- Sets the dead bits of last-use operands in members and followers, excluded lanes included (R98). -/
def Warp.lastUse (w : Warp) (c : Ctx) (u : Usage) : Warp :=
  u.srcs.foldl (fun w x =>
    if 4 ≤ x.2.2 then (c.i.lanes ++ c.i.helpers).foldl (fun w l => w.killV l x.1 x.2.1) w else w) w

/-- Sets LSTAT.POISON in admitted member lanes that read a dead register (R98). -/
def Warp.poisonFlags (w : Warp) (c : Ctx) (u : Usage) (mem : List Nat) : Warp :=
  (mem.filter fun l => u.srcs.any fun x => isDead c.w l x.1 x.2.1).foldl (fun w l => w.setFlags l flagPoison) w

/-- The operand values of a lane, in the order of the usage. -/
def operands (w : Warp) (u : Usage) (l : Nat) : List Nat := u.srcs.map fun x => readV w l x.1 x.2.1

/-- What a lane instruction writes in one lane. -/
structure LaneOut where
  /-- (register, number of registers, value) -/
  vals : List (Nat × Nat × Nat) := []
  preds : List (Nat × Bool) := []
  flags : BitVec 32 := 0

/-- Writes a lane's results; a helper's flags are not set (R31). -/
def Warp.writeLane (w : Warp) (l : Nat) (helper : Bool) (o : LaneOut) : Warp :=
  let w := o.vals.foldl (fun w x => w.writeVs l x.1 x.2.1 x.2.2) w
  let w := o.preds.foldl (fun w x => w.writeP l x.1 x.2) w
  if helper then w else w.setFlags l o.flags

/-- A helper whose read would trap writes zero instead (R31, R98). -/
def helperOut (c : Ctx) (u : Usage) (l : Nat) (o : LaneOut) : LaneOut :=
  if c.poisoned u l then
    { vals := o.vals.map fun v => (v.1, v.2.1, 0), preds := o.preds.map fun p => (p.1, false) }
  else o

/-- Ends an issue: no group is in progress. -/
def State.endIssue (s : State) : State := { s with issue := none }

/-- A group that is not ready: everything stands as it was (R96). -/
def State.notReady (s : State) : Out := .next { s.endIssue with held := true }

/-- Runs the checks of a group in progress; on a pass continues with `k`. A wait leaves everything as it stands (R96);
a failing check stops the warp (R256). -/
def issueOut (s : State) (chk : Ctx → Check) (k : Ctx → Out) : Out :=
  match s.issue with
  | none => .fault .noIssueGroup
  | some i =>
    let c := s.ctx i
    match chk c with
    | .go => k c
    | .wait => s.notReady
    | .stop cls ls i0 i1 => .next (s.stopWarp c.wid cls (laneMask ls) c.i.pc c.ovl i0 i1)

/-- An instruction that completes once its checks pass. -/
def issueWith (s : State) (chk : Ctx → Check) (k : Ctx → State) : Out :=
  issueOut s chk fun c => .next (k c).endIssue

/-- The warp after the source side of an issue: poison flags and last-use marks (R98). -/
def Ctx.sourced (c : Ctx) (u : Usage) (g : BitVec 4) : Warp :=
  (c.w.poisonFlags c u (c.members g)).lastUse c u

/-- The checks of a lane instruction: encoding, sources, then its own rules. -/
def laneChecks (u : Usage) (g : BitVec 4) (rules : Ctx → Check) (c : Ctx) : Check :=
  (checkEncoding c u).andThen ((checkSources c u (c.members g ++ c.helpers g)).andThen (rules c))

/-- A lane instruction (R268): each admitted lane, helpers included, computes `f` of its operands as they stood and
writes; then the group moves on by `len` words. -/
def laneInstr (s : State) (g : BitVec 4) (u : Usage) (len : Nat) (f : Ctx → Nat → List Nat → LaneOut)
    (after : Warp → Warp := id) : Out :=
  issueWith s (laneChecks u g fun _ => .go) fun c =>
    let w := c.sourced u g
    let w := (c.members g).foldl (fun w l => w.writeLane l false (f c l (operands c.w u l))) w
    let w := (c.helpers g).foldl (fun w l => w.writeLane l true (helperOut c u l (f c l (operands c.w u l)))) w
    s.setWarp c.wid (after (w.advance c.i.lanes len))

/-- A scalar instruction (R292): once for the group when the q guard holds. -/
def scalarInstr (s : State) (g : BitVec 4) (u : Usage) (len : Nat) (f : Ctx → Warp → Warp) : Out :=
  issueWith s (fun c => (checkEncoding c u).andThen (if c.qOn g then checkSources c u [] else .go)) fun c =>
    let w := if c.qOn g then f c c.w else c.w
    s.setWarp c.wid (w.advance c.i.lanes len)

/-- A record of an instruction whose result comes later, with what a request packet needs (R383): the operands of each lane, whether it is
a helper, MODE, and whether it is a helper that writes zero (the operands of `LogEntry.operand`). -/
def Ctx.noPend (c : Ctx) (kind : PendKind) (dst size : Nat) (id : Nat) (u : Usage) (lanes : List Nat) : Pend := { Pend.blank id c.wid c.w.gen.toNat kind with
  dst := dst
  size := size
  lanes := lanes.map fun l => ⟨l, c.i.helpers.contains l, 0, []⟩
  words := c.words
  pc := c.i.pc
  ovl := c.ovl
  ops := lanes.flatMap fun l => ((operands c.w u l).zipIdx).map (fun x => (l, x.2, x.1)) ++
    [(l, 4, if c.i.helpers.contains l then 1 else 0), (l, 5, c.w.mode.toNat),
      (l, 6, if c.i.helpers.contains l && c.poisoned u l then 1 else 0)]
  seed := c.w.srseed.toNat }

/-- Registers and values of a lane's results, one register each. -/
def splitVals (l : Nat) (o : LaneOut) : List (Nat × Nat × BitVec 32) :=
  o.vals.flatMap fun x => (List.range x.2.1).map fun j => (l, x.1 + j, BitVec.ofNat 32 (x.2.2 / 2 ^ (32 * j)))

/-- A lane instruction whose results return later (R95): the destinations become empty in the admitted lanes, and the
results, computed from the operands as they stood, wait in a pending record until `due`; `unit` is what the issue does to the core's unit
that performs it. -/
def lateInstr (s : State) (g : BitVec 4) (u : Usage) (len : Nat) (kind : PendKind) (rules : Ctx → Check)
    (latency : Ctx → Nat) (f : Ctx → Nat → List Nat → LaneOut) (after : Warp → Warp := id)
    (unit : Ctx → NMap Core → NMap Core := fun _ m => m) : Out :=
  issueWith s (laneChecks u g rules) fun c =>
    let mem := c.members g
    let hlp := c.helpers g
    let w := c.sourced u g
    let w := (mem ++ hlp).foldl (fun w l => u.dsts.foldl (fun w d => w.emptyV l d.1 d.2) w) w
    let s1 := s.setWarp c.wid (after (w.advance c.i.lanes len))
    if (mem ++ hlp).isEmpty then s1
    else
      let (id, s1) := s1.newId
      let p := c.noPend kind (u.dsts.headD (0, 0)).1 0 id u (mem ++ hlp)
      let p := { p with
        writes := mem.flatMap (fun l => splitVals l (f c l (operands c.w u l))) ++
          hlp.flatMap fun l => splitVals l (helperOut c u l (f c l (operands c.w u l)))
        flags := mem.map fun l => (l, (f c l (operands c.w u l)).flags)
        due := s.clk + latency c
        issueTime := s.itime c.b.island }
      { s1 with pend := s1.pend ++ [p], cores := unit c s1.cores }

end Sys2Proof.Machine
end

