-- ==== Sys2Proof/Machine/Integer.lean ====
section
/-!
DEFINITION. The integer, logic, address and predicate instructions of opcodes 0x00 to 0x3E (R268 to R295).
-/
namespace Sys2Proof.Machine

/-! ### Values and narrowing (R46, R47, R54, R269) -/

/-- Width in bits of an integer or bit type (R46). -/
def tyW (ty : Nat) : Nat :=
  if is64 ty then 64 else if ty = 10 || ty = 11 then 16 else if ty = 12 || ty = 13 then 8 else 32

/-- Whether an integer type is signed (R46). -/
def tySigned (ty : Nat) : Bool := ty == 0 || ty == 2 || ty == 10 || ty == 12

/-- The exact value of a type's low bits (R46, R269). -/
def readInt (ty x : Nat) : Int := if tySigned ty then sext (tyW ty) x else ((x % 2 ^ tyW ty : Nat) : Int)

/-- Narrows an exact value once: wraps, or clamps with SAT (R47). -/
def narrowInt (ty : Nat) (sat : Bool) (v : Int) : Nat :=
  let w := tyW ty
  let lo : Int := if tySigned ty then -(2 ^ (w - 1) : Nat) else 0
  let hi : Int := if tySigned ty then (2 ^ (w - 1) : Nat) - 1 else (2 ^ w : Nat) - 1
  wrapN w (if sat then max lo (min hi v) else v)

/-- The register value of an unpacked result: narrow integers extend to 32 bits (R54). -/
def extendInt (ty x : Nat) : Nat :=
  if tyW ty < 32 then wrapN 32 (readInt ty x) else x % 2 ^ tyW ty

/-- One integer result from source values, element by element when packed (R269). -/
def intValue (ty : Nat) (sat pk : Bool) (f : List Int → Int) (xs : List Nat) : Nat :=
  if pk then
    let w := tyW ty
    (List.range (32 / w)).foldl (fun a j =>
      a + narrowInt ty sat (f (xs.map fun x => readInt ty (x / 2 ^ (w * j)))) * 2 ^ (w * j)) 0
  else extendInt ty (narrowInt ty sat (f (xs.map (readInt ty))))

/-- SAT and PK of MOD (R246). -/
def mdSat (md : BitVec 9) : Bool := md.getLsbD 5
def mdPk (md : BitVec 9) : Bool := md.getLsbD 3
def mdOp (md : BitVec 9) : Nat := md.toNat % 8

/-- First, second and third operand. -/
def arg (xs : List Int) (i : Nat) : Int := xs.getD i 0
def argN (xs : List Nat) (i : Nat) : Nat := xs.getD i 0

/-- A V3 lane instruction over integers (R272). -/
def v3Int (w : WordV3) (u : Usage) (f : List Int → Int) (s : State) : Out :=
  laneInstr s w.guard u 1 fun _ _ xs =>
    { vals := [(w.dst.toNat, regsOf w.ty.toNat, intValue w.ty.toNat (mdSat w.md) (mdPk w.md) f xs)] }

/-- A V3 lane instruction over bit patterns of the type's width (R278 to R283). -/
def v3Bits (w : WordV3) (u : Usage) (f : Nat → List Nat → Nat) (s : State) : Out :=
  laneInstr s w.guard u 1 fun _ _ xs =>
    { vals := u.dsts.map fun d => (d.1, d.2, f (tyW w.ty.toNat) xs) }

/-- A VI lane instruction over integers (R273). -/
def viInt (w : WordVI) (f : Int → Int → Int) (s : State) : Out :=
  let t := w.type3.toNat
  laneInstr s w.guard (useVI w [0, 1, 2, 3] (regsOf3 t)) 1 fun _ _ xs =>
    let i : Int := if tySigned t then sext 24 w.imm24.toNat else (w.imm24.toNat : Int)
    { vals := [(w.dst.toNat, regsOf3 t, narrowInt t false (f (readInt t (argN xs 0)) i))] }

/-! ### Arithmetic (R272, R273) -/

/-- `iadd`: A + B (R272). -/
def execIadd (w : WordV3) (s : State) : Out :=
  v3Int w (useV3 w (tyWide ++ tyNarrow) true true true [0]) (fun x => arg x 0 + arg x 1) s
/-- `isub`: A − B (R272). -/
def execIsub (w : WordV3) (s : State) : Out :=
  v3Int w (useV3 w (tyWide ++ tyNarrow) true true true [0]) (fun x => arg x 0 - arg x 1) s
/-- `imul`: A × B (R272). -/
def execImul (w : WordV3) (s : State) : Out :=
  v3Int w (useV3 w (tyWide ++ tyNarrow) true true true [0]) (fun x => arg x 0 * arg x 1) s
/-- `imulh`: the upper half of the product (R272). -/
def execImulh (w : WordV3) (s : State) : Out :=
  v3Int w (useV3 w tyWide true false false [0])
    (fun x => (arg x 0 * arg x 1) / ((2 ^ tyW w.ty.toNat : Nat) : Int)) s
/-- `imad`: A × B + C, narrowed once (R272). -/
def execImad (w : WordV4) (s : State) : Out :=
  laneInstr s w.guard (useImad w) 2 fun _ _ xs =>
    { vals := [(w.dst.toNat, regsOf w.ty.toNat,
        intValue w.ty.toNat (mdSat w.md) (mdPk w.md) (fun x => arg x 0 * arg x 1 + arg x 2) xs)] }
/-- `iaddi` (R273). -/
def execIaddi (w : WordVI) (s : State) : Out := viInt w (fun a i => a + i) s
/-- `imuli` (R273). -/
def execImuli (w : WordVI) (s : State) : Out := viInt w (fun a i => a * i) s
/-- `imin` (R272). -/
def execImin (w : WordV3) (s : State) : Out :=
  v3Int w (useV3 w (tyWide ++ tyNarrow) true false true [0]) (fun x => min (arg x 0) (arg x 1)) s
/-- `imax` (R272). -/
def execImax (w : WordV3) (s : State) : Out :=
  v3Int w (useV3 w (tyWide ++ tyNarrow) true false true [0]) (fun x => max (arg x 0) (arg x 1)) s
/-- `iabs` (R272). -/
def execIabs (w : WordV3) (s : State) : Out :=
  v3Int w (useV3 w (tyWide ++ tyNarrow) false true true [0]) (fun x => if arg x 0 < 0 then -arg x 0 else arg x 0) s
/-- `ineg` (R272). -/
def execIneg (w : WordV3) (s : State) : Out :=
  v3Int w (useV3 w (tyWide ++ tyNarrow) false true true [0]) (fun x => -arg x 0) s

/-- The exact sum of `idot4` (R272): C plus the four element products. -/
def dot4 (ty a b c : Nat) : Int :=
  let el (x j : Nat) : Int := readInt ty (x / 2 ^ (8 * j))
  readInt (if ty = 12 then 0 else 1) c + el a 0 * el b 0 + el a 1 * el b 1 + el a 2 * el b 2 + el a 3 * el b 3

/-- `idot4` (R272): narrowed to 32 bits. -/
def execIdot4 (w : WordV4) (s : State) : Out :=
  laneInstr s w.guard (useIdot4 w) 2 fun _ _ xs =>
    let t := if w.ty.toNat = 12 then 0 else 1
    { vals := [(w.dst.toNat, 1, narrowInt t (mdSat w.md) (dot4 w.ty.toNat (argN xs 0) (argN xs 1) (argN xs 2)))] }

/-! ### Divide and remainder (R274 to R276) -/

/-- Quotient, remainder and flags of a division (R274). -/
def divide (ty : Nat) (a b : Int) : Int × Int × BitVec 32 :=
  let w := tyW ty
  let half : Int := (2 ^ (w - 1) : Nat)
  if b = 0 then
    ((if !tySigned ty then (2 ^ w : Nat) - 1 else if 0 ≤ a then half - 1 else -half), a, flagDivz)
  else if tySigned ty && a = -half && b = -1 then (-half, 0, flagDivovf)
  else (Int.tdiv a b, Int.tmod a b, 0)

/-- Bit length of a magnitude (R275). -/
def bitLen (n : Nat) : Nat := if n = 0 then 0 else Nat.log2 n + 1

/-- A lane's divide latency in core clocks (R275). -/
def divLatency (ty : Nat) (a b : Int) : Nat :=
  if (divide ty a b).2.2 != 0 || a.natAbs < b.natAbs then 8
  else 8 + 2 * ((bitLen a.natAbs - bitLen b.natAbs + 1 + 3) / 4)

/-- Whether a lane's operands trap under MODE.DIVTRAP (R276). -/
def divTraps (ty : Nat) (xs : List Nat) : Bool :=
  (divide ty (readInt ty (argN xs 0)) (readInt ty (argN xs 1))).2.2 != 0

/-- The pipe's divider is held: up to and in the core clock of the return, whatever becomes of the warp (R275). -/
def dividerBusy (s : State) (c : Ctx) : Bool :=
  (NMap.find? (s.core c.b.island c.b.core).divider c.w.pipe).any fun t => decide (s.clk ≤ t)

/-- The own rules of a divide: a busy divider holds the group, DIVTRAP stops the warp (R275, R276). -/
def divRules (s : State) (w : WordV3) (u : Usage) (c : Ctx) : Check :=
  let traps := (c.members w.guard).filter fun l => divTraps w.ty.toNat (operands c.w u l)
  if !(c.members w.guard ++ c.helpers w.guard).isEmpty && dividerBusy s c then .wait
  else if c.w.divtrap && !traps.isEmpty then .stop 0x07 traps 0 0
  else .go

/-- The divider of the group's pipe is held up to core clock `till` (R275). -/
def holdDivider (till : Nat) (c : Ctx) (m : NMap Core) : NMap Core :=
  let x := NMap.getD m (coreIx c.b.island c.b.core) Core.start
  NMap.set m (coreIx c.b.island c.b.core) { x with divider := NMap.set x.divider c.w.pipe till }

/-- What `idiv` or `irem` writes in lane l, from its operands: zero in a helper lane that would trap (R31, R274). -/
def divOut (w : WordV3) (pick : Int × Int × BitVec 32 → Int) (c : Ctx) (l : Nat) (xs : List Nat) : LaneOut :=
  let ty := w.ty.toNat
  let r := divide ty (readInt ty (argN xs 0)) (readInt ty (argN xs 1))
  let zero := c.w.divtrap && c.i.helpers.contains l && r.2.2 != 0
  { vals := [(w.dst.toNat, regsOf ty, if zero then 0 else wrapN (tyW ty) (pick r))], flags := r.2.2 }

/-- `idiv` and `irem` (R274 to R276): the result returns after the largest latency of the admitted lanes. -/
def execDivide (w : WordV3) (pick : Int × Int × BitVec 32 → Int) (s : State) : Out :=
  let u := useV3 w tyWide true false false [0]
  let ty := w.ty.toNat
  let ab (xs : List Nat) := (readInt ty (argN xs 0), readInt ty (argN xs 1))
  let latency (c : Ctx) : Nat := (c.members w.guard ++ c.helpers w.guard).foldl (fun m l =>
      max m (divLatency ty (ab (operands c.w u l)).1 (ab (operands c.w u l)).2)) 0
  lateInstr s w.guard u 1 .divide (divRules s w u) latency (divOut w pick) id fun c m => holdDivider (s.clk + latency c) c m

/-- `idiv` (R274). -/
def execIdiv (w : WordV3) (s : State) : Out := execDivide w (fun r => r.1) s
/-- `irem` (R274). -/
def execIrem (w : WordV3) (s : State) : Out := execDivide w (fun r => r.2.1) s

/-! ### Logic, shifts and bit fields (R278 to R283) -/

/-- Complement over w bits. -/
def notN (w x : Nat) : Nat := 2 ^ w - 1 - x % 2 ^ w

/-- `and` (R278). -/
def execAnd (w : WordV3) (s : State) : Out :=
  v3Bits w (useV3 w tyBits true false false [0]) (fun _ x => argN x 0 &&& argN x 1) s
/-- `or` (R278). -/
def execOr (w : WordV3) (s : State) : Out :=
  v3Bits w (useV3 w tyBits true false false [0]) (fun _ x => argN x 0 ||| argN x 1) s
/-- `xor` (R278). -/
def execXor (w : WordV3) (s : State) : Out :=
  v3Bits w (useV3 w tyBits true false false [0]) (fun _ x => argN x 0 ^^^ argN x 1) s
/-- `not` (R278). -/
def execNot (w : WordV3) (s : State) : Out :=
  v3Bits w (useV3 w tyBits false false false [0]) (fun n x => notN n (argN x 0)) s

/-- The immediate of a VI logic word, extended to the type's width (R278). -/
def logicImm (w : WordVI) : Nat :=
  if w.type3 = 6 then wrapN 32 (sext 24 w.imm24.toNat)
  else if w.type3 = 2 then wrapN 64 (sext 24 w.imm24.toNat)
  else w.imm24.toNat

/-- A VI logic instruction (R278). -/
def viBits (w : WordVI) (f : Nat → Nat → Nat) (s : State) : Out :=
  let n := regsOf3 w.type3.toNat
  laneInstr s w.guard (useVI w [2, 3, 6] n) 1 fun _ _ xs =>
    { vals := [(w.dst.toNat, n, f (argN xs 0) (logicImm w))] }

/-- `andi` (R278). -/
def execAndi (w : WordVI) (s : State) : Out := viBits w (fun a b => a &&& b) s
/-- `ori` (R278). -/
def execOri (w : WordVI) (s : State) : Out := viBits w (fun a b => a ||| b) s
/-- `xori` (R278). -/
def execXori (w : WordVI) (s : State) : Out := viBits w (fun a b => a ^^^ b) s

/-- Bit i of the `lut3` result is tt[A[i] + 2 B[i] + 4 C[i]] (R279), over the low n bits. -/
def lut3 (tt a b c : Nat) : Nat → Nat
  | 0 => 0
  | n + 1 =>
    let i := a % 2 + 2 * (b % 2) + 4 * (c % 2)
    (tt.testBit i).toNat + 2 * lut3 tt (a / 2) (b / 2) (c / 2) n

/-- `lut3` (R279). -/
def execLut3 (w : WordV4) (s : State) : Out :=
  laneInstr s w.guard (useLut3 w) 2 fun _ _ xs =>
    { vals := [(w.dst.toNat, regsOf w.ty.toNat,
        lut3 w.imm32.toNat (argN xs 0) (argN xs 1) (argN xs 2) (tyW w.ty.toNat))] }

/-- Shifts of R280: amounts of the width or more give 0, or the sign's fill. -/
def shlN (w a n : Nat) : Nat := if w ≤ n then 0 else a * 2 ^ n % 2 ^ w
def shrN (w a n : Nat) : Nat := if w ≤ n then 0 else a % 2 ^ w / 2 ^ n
def sraN (w a n : Nat) : Nat := wrapN w (sext w a / ((2 ^ min n w : Nat) : Int))

/-- `shl` (R280). -/
def execShl (w : WordV3) (s : State) : Out := v3Bits w (useShift w [0]) (fun n x => shlN n (argN x 0) (argN x 1)) s
/-- `shr` (R280). -/
def execShr (w : WordV3) (s : State) : Out := v3Bits w (useShift w [0]) (fun n x => shrN n (argN x 0) (argN x 1)) s
/-- `sra` (R280). -/
def execSra (w : WordV3) (s : State) : Out := v3Bits w (useShift w [0]) (fun n x => sraN n (argN x 0) (argN x 1)) s

/-- The 32 bits that `extr` takes of vh:vl (R281). -/
def extr (op vh vl vn : Nat) : Nat :=
  let n := if op / 2 % 2 = 0 then min vn 32 else vn % 32
  let p := if op % 2 = 0 then n else 32 - n
  (vh * 2 ^ 32 + vl) / 2 ^ p % 2 ^ 32

/-- `extr` (R281). -/
def execExtr (w : WordV4) (s : State) : Out :=
  laneInstr s w.guard (useExtr w) 2 fun _ _ xs =>
    { vals := [(w.dst.toNat, 1, extr (mdOp w.md) (argN xs 0) (argN xs 1) (argN xs 2))] }

/-- Field length of `bfx` and `bfi` (R282). -/
def fieldLen (w ctl : Nat) : Nat :=
  let pos := ctl % 256
  let len := ctl / 256 % 256
  if len = 0 || w ≤ pos then 0 else min len (w - pos)

/-- The extracted field (R282). -/
def bfx (w : Nat) (sx : Bool) (a ctl : Nat) : Nat :=
  let n := fieldLen w ctl
  if n = 0 then 0
  else
    let f := a / 2 ^ (ctl % 256) % 2 ^ n
    if sx then wrapN w (sext n f) else f

/-- The inserted field (R282). -/
def bfi (w a b ctl : Nat) : Nat :=
  let n := fieldLen w ctl
  if n = 0 then a else setBits a (ctl % 256 + n - 1) (ctl % 256) b

/-- `bfx` (R282). -/
def execBfx (w : WordV3) (s : State) : Out :=
  v3Bits w (useShift w [0, 1]) (fun n x => bfx n (mdOp w.md == 1) (argN x 0) (argN x 1)) s
/-- `bfi` (R282). -/
def execBfi (w : WordV4) (s : State) : Out :=
  laneInstr s w.guard (useBfi w) 2 fun _ _ xs =>
    { vals := [(w.dst.toNat, regsOf w.ty.toNat, bfi (tyW w.ty.toNat) (argN xs 0) (argN xs 1) (argN xs 2))] }

/-- Reversed bits of a w-bit value (R283). -/
def revBits : Nat → Nat → Nat
  | 0, _ => 0
  | w + 1, a => (a % 2) * 2 ^ w + revBits w (a / 2)

/-- Number of 1 bits among the low n. -/
def popBits : Nat → Nat → Nat
  | 0, _ => 0
  | n + 1, a => a % 2 + popBits n (a / 2)

/-- Number of 0 bits below the lowest 1 among the low n (R283). -/
def ctzBits : Nat → Nat → Nat
  | 0, _ => 0
  | n + 1, a => if a % 2 = 1 then 0 else 1 + ctzBits n (a / 2)

/-- `brev` (R283). -/
def execBrev (w : WordV3) (s : State) : Out :=
  v3Bits w (useV3 w tyBits false false false [0]) (fun n x => revBits n (argN x 0)) s
/-- `popc` (R283). -/
def execPopc (w : WordV3) (s : State) : Out := v3Bits w (useCount w) (fun n x => popBits n (argN x 0)) s
/-- `clz` (R283). -/
def execClz (w : WordV3) (s : State) : Out := v3Bits w (useCount w) (fun n x => n - bitLen (argN x 0 % 2 ^ n)) s
/-- `ctz` (R283). -/
def execCtz (w : WordV3) (s : State) : Out := v3Bits w (useCount w) (fun n x => ctzBits n (argN x 0)) s

/-! ### Compares, selects, predicates, moves and addresses (R284 to R291) -/

/-- The relations of R284. -/
def relation (op : Nat) (a b : Int) : Bool :=
  match op with
  | 0 => a == b
  | 1 => a != b
  | 2 => decide (a < b)
  | 3 => decide (a ≤ b)
  | 4 => decide (b < a)
  | _ => decide (b ≤ a)

/-- `icmp` (R284). -/
def execIcmp (w : WordV3) (s : State) : Out :=
  laneInstr s w.guard (useIcmp w) 1 fun _ _ xs =>
    { preds := [(w.dst.toNat, relation (mdOp w.md) (readInt w.ty.toNat (argN xs 0)) (readInt w.ty.toNat (argN xs 1)))] }

/-- `icmpi` (R285). -/
def execIcmpi (w : WordVI) (s : State) : Out :=
  laneInstr s w.guard (useIcmpi w) 1 fun _ _ xs =>
    let t := w.type3.toNat
    let v := w.imm24.toNat % 2 ^ 21
    let i : Int := if tySigned t then sext 21 v else (v : Int)
    { preds := [(w.dst.toNat, relation (bits w.imm24.toNat 23 21) (readInt t (argN xs 0)) i)] }

/-- `sel` (R286). -/
def execSel (w : WordV4) (s : State) : Out :=
  laneInstr s w.guard (useSel w) 2 fun c l xs =>
    let p := readPred (c.w.thread l).p w.sc.toNat != w.xmod.getLsbD 0
    { vals := [(w.dst.toNat, regsOf w.ty.toNat, if p then argN xs 0 else argN xs 1)] }

/-- The predicate operations of R287. -/
def predOp (op : Nat) (a b : Bool) : Bool :=
  match op with
  | 0 => a && b
  | 1 => a || b
  | 2 => a != b
  | 3 => a && !b
  | _ => a || !b

/-- `plop` (R287). -/
def execPlop (w : WordV3) (s : State) : Out :=
  laneInstr s w.guard (usePlop w) 1 fun c l _ =>
    let p := (c.w.thread l).p
    { preds := [(w.dst.toNat, predOp (mdOp w.md) (readPred p w.sa.toNat) (readPred p w.sb.toNat))] }

/-- `mov` (R288). -/
def execMov (w : WordV3) (s : State) : Out :=
  laneInstr s w.guard (useMov w) 1 fun c l xs =>
    let n := regsOf w.ty.toNat
    match mdOp w.md with
    | 0 => { vals := [(w.dst.toNat, n, argN xs 0)] }
    | 1 => { vals := [(w.dst.toNat, 1, (readPred (c.w.thread l).p w.sa.toNat).toNat)] }
    | 2 => { preds := [(w.dst.toNat, argN xs 0 != 0)] }
    | _ => { vals := [(w.dst.toNat, n, (c.w.sreg w.sa.toNat).toNat)] }

/-- IMM24 as a value of TYPE3 (R247), in the bits of the type. -/
def viImm (t i : Nat) : Nat :=
  match t with
  | 0 | 6 => wrapN 32 (sext 24 i)
  | 2 => wrapN 64 (sext 24 i)
  | 4 => i * 2 ^ 8
  | 5 => i * 2 ^ 40
  | _ => i

/-- `movi` (R289). -/
def execMovi (w : WordVI) (s : State) : Out :=
  laneInstr s w.guard (useMovi w) 1 fun _ _ _ =>
    { vals := [(w.dst.toNat, regsOf3 w.type3.toNat, viImm w.type3.toNat w.imm24.toNat)] }

/-- `movw` (R289). -/
def execMovw (w : WordV4) (s : State) : Out :=
  laneInstr s w.guard (useMovw w) 2 fun _ _ _ =>
    { vals := [(w.dst.toNat, regsOf w.ty.toNat,
        if w.ty = 2 then wrapN 64 (sext 32 w.imm32.toNat) else w.imm32.toNat)] }

/-- `icvt` (R290). -/
def execIcvt (w : WordV3) (s : State) : Out :=
  laneInstr s w.guard (useIcvt w) 1 fun _ _ xs =>
    let t := w.ty.toNat
    { vals := [(w.dst.toNat, regsOf t,
        extendInt t (narrowInt t (mdSat w.md) (readInt (icvtSrc (mdOp w.md)) (argN xs 0))))] }

/-- `lea` (R291). -/
def execLea (w : WordV3) (s : State) : Out :=
  laneInstr s w.guard (useLea w) 1 fun _ _ xs =>
    let i : Int := readInt w.ty.toNat (argN xs 1)
    { vals := [(w.dst.toNat, 2, wrapN 64 ((argN xs 0 : Int) + i * ((2 ^ mdOp w.md : Nat) : Int)))] }

/-! ### Scalar instructions (R292 to R295) -/

/-- The second operand Y (R251). -/
def yOf (w : WordS) (x : Warp) : Nat :=
  if w.im = 0 then (x.sreg w.sb.toNat).toNat
  else if w.im = 1 then wrapN 64 (sext 32 w.imm32.toNat)
  else w.imm32.toNat

/-- A scalar instruction sd := f sa Y, modulo 2⁶⁴ (R293). -/
def sOp (w : WordS) (u : Usage) (f : Nat → Nat → Int) (s : State) : Out :=
  scalarInstr s w.guard u 1 fun _ x =>
    x.writeS w.sd.toNat (BitVec.ofNat 64 (wrapN 64 (f (x.sreg w.sa.toNat).toNat (yOf w x))))

/-- `sadd` (R293). -/
def execSadd (w : WordS) (s : State) : Out := sOp w (useSY w) (fun a y => (a : Int) + y) s
/-- `ssub` (R293). -/
def execSsub (w : WordS) (s : State) : Out := sOp w (useSY w) (fun a y => (a : Int) - y) s
/-- `smul` (R293). -/
def execSmul (w : WordS) (s : State) : Out := sOp w (useSY w) (fun a y => (a : Int) * y) s
/-- `sand` (R293). -/
def execSand (w : WordS) (s : State) : Out := sOp w (useSY w) (fun a y => ((a &&& y : Nat) : Int)) s
/-- `sor` (R293). -/
def execSor (w : WordS) (s : State) : Out := sOp w (useSY w) (fun a y => ((a ||| y : Nat) : Int)) s
/-- `sxor` (R293). -/
def execSxor (w : WordS) (s : State) : Out := sOp w (useSY w) (fun a y => ((a ^^^ y : Nat) : Int)) s
/-- `sshl` (R293). -/
def execSshl (w : WordS) (s : State) : Out := sOp w (useSY w) (fun a y => ((shlN 64 a y : Nat) : Int)) s
/-- `sshr` (R293). -/
def execSshr (w : WordS) (s : State) : Out := sOp w (useSY w) (fun a y => ((shrN 64 a y : Nat) : Int)) s
/-- `ssra` (R293). -/
def execSsra (w : WordS) (s : State) : Out := sOp w (useSY w) (fun a y => ((sraN 64 a y : Nat) : Int)) s
/-- A 64-bit value read by the `.z` bit (R293). -/
def zRead (z : Bool) (a : Nat) : Int := if z then (a : Int) else sext 64 a
/-- `smin` (R293). -/
def execSmin (w : WordS) (s : State) : Out :=
  sOp w (useSminmax w) (fun a b => if zRead (w.imm32.getLsbD 0) b < zRead (w.imm32.getLsbD 0) a then b else a) s
/-- `smax` (R293). -/
def execSmax (w : WordS) (s : State) : Out :=
  sOp w (useSminmax w) (fun a b => if zRead (w.imm32.getLsbD 0) a < zRead (w.imm32.getLsbD 0) b then b else a) s
/-- `scmp` (R293). -/
def execScmp (w : WordS) (s : State) : Out :=
  scalarInstr s w.guard (useScmp w) 1 fun _ x =>
    x.writeQ w.sd.toNat (relation (w.imm32.toNat % 8) (zRead (w.imm32.getLsbD 3) (x.sreg w.sa.toNat).toNat)
      (zRead (w.imm32.getLsbD 3) (x.sreg w.sb.toNat).toNat))
/-- `smov` (R293). -/
def execSmov (w : WordS) (s : State) : Out :=
  scalarInstr s w.guard (useSmov w) 1 fun _ x => x.writeS w.sd.toNat (BitVec.ofNat 64 (yOf w x))
/-- `ssel` (R293). -/
def execSsel (w : WordS) (s : State) : Out :=
  scalarInstr s w.guard (useSsel w) 1 fun _ x =>
    let t := readPred x.q (w.imm32.toNat % 8) != w.imm32.getLsbD 3
    x.writeS w.sd.toNat (if t then x.sreg w.sa.toNat else x.sreg w.sb.toNat)
/-- `qlop` (R293). -/
def execQlop (w : WordS) (s : State) : Out :=
  scalarInstr s w.guard (useQlop w) 1 fun _ x =>
    x.writeQ w.sd.toNat (predOp w.imm32.toNat (readPred x.q w.sa.toNat) (readPred x.q w.sb.toNat))
/-- `brec` (R295). -/
def execBrec (w : WordS) (s : State) : Out :=
  scalarInstr s w.guard (useBrec w) 1 fun _ x =>
    let r := (x.sreg w.sa.toNat).toNat + (x.sreg w.sb.toNat).toNat * 2 ^ 64
    { x with b := NMap.set x.b w.sd.toNat (BitVec.ofNat 128 r) }
/-- `bget` (R295). -/
def execBget (w : WordS) (s : State) : Out :=
  scalarInstr s w.guard (useBget w) 1 fun _ x =>
    let r := (x.bufRec w.sa.toNat).toNat
    x.writeS w.sd.toNat (BitVec.ofNat 64 (if w.imm32 = 1 then r / 2 ^ 64 else r))

end Sys2Proof.Machine
end

