-- ==== Sys2Proof/Machine/Control.lean ====
section
/-!
DEFINITION. Control flow (R336 to R341), headers (R241, R242), call frames (R24, R340), the ends of threads (R31, R341),
barriers (R40, R333), and the special-register, trap, sleep and mark instructions (R342, R343).
-/
namespace Sys2Proof.Machine

/-! ### Headers (R241, R242) -/

/-- Word `w` of an instruction store slot. -/
def State.slotWord (s : State) (island core slot w : Nat) : Nat := s.readMem (slotAddr island core slot w) 8

/-- Whether a word is a header, with ENTRY where `entry` asks for it (R241, R337). -/
def isHeader (x : Nat) (entry : Bool) : Bool := bits x 63 56 == 0xFF && (!entry || bit x 8)

/-- Whether word `w` of a slot is such a header; words run from 0 to 8,191. -/
def State.headerAt (s : State) (c : Ctx) (slot : Nat) (w : Int) (entry : Bool) : Bool :=
  decide (0 ≤ w) && decide (w ≤ 8191) && isHeader (s.slotWord c.b.island c.b.core slot w.toNat) entry

/-- The word a relative target names (R337). -/
def Ctx.relative (c : Ctx) (ofs : BitVec 20) : Int := (c.i.pc.ofs : Int) + sext 20 ofs.toNat

/-- R256 step 3 for one encoded target. -/
def checkTarget (s : State) (c : Ctx) (w : Int) (entry : Bool) : Check :=
  if s.headerAt c c.i.pc.slot w entry then .go else .stop 0x03 [] 0 0

/-- The word after a call instruction must be a header (R339). -/
def checkReturn (s : State) (c : Ctx) (len : Nat) : Check := checkTarget s c (c.i.pc.ofs + len : Nat) false

/-! ### Moving threads -/

/-- Moves one thread to a header, which it enters when it next issues (R240). -/
def Thread.goto (t : Thread) (slot w : Nat) : Thread := { t with pc := ⟨slot, w⟩, blockEnd := w }

/-- The spin detector after a taken branch at `pc` to word `target` of its slot (R41). -/
def Warp.spinBranch (w : Warp) (pc : PC) (target : Int) : Warp :=
  if (pc.ofs : Int) < target then w
  else if w.spinPc = some pc then { w with spinCount := min 64 (w.spinCount + 1) }
  else { w with spinPc := some pc, spinCount := 1 }

/-- The 256-byte region of a word of the model's memory. -/
def regionOf (w : Nat) : Nat := w / 64

/-- Floor warps that watch a region of the words return to normal priority (R43). -/
def State.touch (s : State) (ws : List Nat) : State :=
  let rs := (ws.map regionOf).eraseDups
  if s.warps.any fun p => p.2.floor && p.2.watch.any fun r => rs.contains r then
    { s with warps := s.warps.map fun p =>
        if p.2.floor && p.2.watch.any fun r => rs.contains r then (p.1, p.2.spinReset) else p }
  else s

/-- The group branches: `target l` is the word each moving lane goes to; the others fall through by `len` words. -/
def branchLanes (s : State) (c : Ctx) (w : Warp) (len : Nat) (target : Nat → Option Int) : State :=
  let w := c.i.lanes.foldl (fun w l =>
    w.modThread l fun t =>
      match target l with
      | some d => t.goto c.i.pc.slot d.toNat
      | none => { t with pc := { t.pc with ofs := t.pc.ofs + len } }) w
  let back := (c.i.lanes.filterMap target).find? fun d => decide (d ≤ (c.i.pc.ofs : Int))
  s.setWarp c.wid (match back with | some d => w.spinBranch c.i.pc d | none => w)

/-- `br` (R337): the admitted lanes go to the relative header. -/
def execBr (w : WordB) (s : State) : Out :=
  issueWith s (fun c => (checkEncoding c (useB w)).andThen (checkTarget s c (c.relative w.ofs20) false)) fun c =>
    branchLanes s c c.w 1 fun l => if (c.members w.guard).contains l then some (c.relative w.ofs20) else none

/-- `brq` (R338): every member lane when the q guard holds. -/
def execBrq (w : WordB) (s : State) : Out :=
  issueWith s (fun c => (checkEncoding c (useB w)).andThen (checkTarget s c (c.relative w.ofs20) false)) fun c =>
    branchLanes s c c.w 1 fun _ => if c.qOn w.guard then some (c.relative w.ofs20) else none

/-- The pairs of a `brm` word; an unused pair holds 0b1111 (R253, R338). -/
def brmPairs (w : WordBM) : List (BitVec 4 × BitVec 20) :=
  [(w.p0, w.t0), (w.p1, w.t1), (w.p2, w.t2), (w.p3, w.t3)].filter fun p => p.1 != 15

/-- `brm` (R338): each admitted lane takes the first pair that holds. -/
def execBrm (w : WordBM) (s : State) : Out :=
  issueWith s (fun c => (checkEncoding c (useBrm w)).andThen
    ((brmPairs w).foldl (fun k p => k.andThen (checkTarget s c (c.relative p.2) false)) .go)) fun c =>
    branchLanes s c c.w 2 fun l =>
      if (c.members w.guard).contains l then
        ((brmPairs w).find? fun p => admits p.1 (c.w.thread l).p).map fun p => c.relative p.2
      else none

/-- Register targets (R337): a lane's word in its own slot; none where the register holds no word offset. -/
def regTarget (c : Ctx) (w : WordV3) (l : Nat) : Option Nat :=
  let v := readV c.w l w.sa.toNat 1
  if v < 8192 then some v else none

/-- Admitted lanes whose register target is no header, or no ENTRY header where one is asked for. -/
def badTargets (s : State) (c : Ctx) (w : WordV3) (entry : Bool) : List Nat :=
  (c.members w.guard).filter fun l =>
    match regTarget c w l with
    | some t => !s.headerAt c c.i.pc.slot t entry
    | none => true

/-- The checks of a register transfer (R256, R337). -/
def checkRegTarget (s : State) (w : WordV3) (entry : Bool) (c : Ctx) : Check :=
  (checkSources c (useJmpr w) []).andThen
    (if (badTargets s c w entry).isEmpty then .go else .stop 0x03 (badTargets s c w entry) 0 0)

/-- `jmpr` (R337). -/
def execJmpr (w : WordV3) (s : State) : Out :=
  issueWith s (fun c => (checkEncoding c (useJmpr w)).andThen (checkRegTarget s w false c)) fun c =>
    branchLanes s c (c.sourced (useJmpr w) w.guard) 1 fun l =>
      if (c.members w.guard).contains l then (regTarget c w l).map fun t => (t : Int) else none

/-! ### The ends of threads (R31, R39, R40, R341) -/

/-- Whether the block's barrier `n` is complete (R40): some thread waits at it, and every thread of the block waits at
it or has ended. -/
def State.barrierMet (s : State) (b : Block) (n : Nat) : Bool :=
  let ts := b.warps.flatMap fun w => (s.warp w).threads
  (ts.any fun t => t.st == .atBarrier && t.bar == n) &&
    ts.all fun t => !t.st.live || (t.st == .atBarrier && t.bar == n)

/-- Whether a block still has ordered-reduction entries to apply (R136). -/
def State.draining (s : State) (bid : Nat) : Bool :=
  ((s.block bid).warps.any fun w => !(s.warp w).red.isEmpty || !(s.warp w).redLate.isEmpty) ||
    s.msgs.any fun m => m.isDrain && (s.block bid).warps.contains m.warp

/-- Sends one ordered-reduction entry of a warp to its slice (R136). It follows the drains of its chain and the warp's own earlier
accesses that name its location (R75). -/
def State.sendDrain (s : State) (wid : Nat) (chain : Msg → Bool) (e : RedEntry) : State :=
  let w := s.warp wid
  let b := s.block w.block
  let (id, s) := s.newId
  let ws := wordsOf e.pa (if is64 e.ty then 8 else 4)
  let before := s.msgs.filter fun m =>
    (m.isDrain && chain m || m.isEvent && m.warp == wid) && m.words.any fun k => ws.contains k
  let m : Msg :=
    { Msg.blank id .drain b.island b.core wid with
      gen := w.gen.toNat, words := ws, ptype := 1
      ops := [⟨e.lane, e.pa, e.aop, e.ty, e.rnd, e.seed, e.value, 0⟩], since := s.itime b.island
      part := (s.grid b.grid).part, after := before.map fun m => m.id }
  s.addMsg m

/-- Sends a warp's ordered-reduction entries to their slices in the order of R136: ascending lane, then sequence. Entries of the block
that name one location follow one another. -/
def State.flushWarp (s : State) (wid : Nat) : State :=
  let w := s.warp wid
  let b := s.block w.block
  let es := (List.range 32).flatMap fun l => w.red.filter fun e => e.lane == l
  es.foldl (fun s e => s.sendDrain wid (fun m => b.warps.contains m.warp) e) (s.setWarp wid { w with red := [] })

/-- Contributions that waited for the implicit flush enter once it is complete (R135, R136); in a halt they drain in turn (R382). -/
def State.takeLate (s : State) (wid : Nat) : State :=
  let w := s.warp wid
  if w.redLate.isEmpty || (s.msgs.any fun m => m.isDrain && m.warp == wid) then s
  else
    let s := s.setWarp wid { w with red := w.red ++ w.redLate.take (1024 - w.red.length), redLate := w.redLate.drop (1024 - w.red.length) }
    if (s.block w.block).halting || !(s.warp wid).redLate.isEmpty then s.flushWarp wid else s

/-- Warps of a block in the order of their drain: pipe, then WARPID (R136). -/
def drainOrder (s : State) (b : Block) : List Nat :=
  (List.range 4).flatMap fun p => (List.range 32).flatMap fun n =>
    b.warps.filter fun w => (s.warp w).pipe == p && (s.warp w).warpNo == n

/-- Sends every entry of a block to its slices (R136). -/
def State.flushBlock (s : State) (bid : Nat) : State := (drainOrder s (s.block bid)).foldl State.flushWarp s

/-- Completes the block's barriers that are met: the block's entries drain first (R333), then every arrived thread is
Active again at the instruction after the barrier (R40). -/
def State.barriers (s : State) (bid : Nat) : State :=
  (List.range 8).foldl (fun s n =>
    let b := s.block bid
    if s.barrierMet b n then
      let s := s.flushBlock bid
      if s.draining bid then s
      else b.warps.foldl (fun s wid => s.modWarp wid fun w =>
        { w with threads := w.threads.map fun t =>
            if t.st == .atBarrier && t.bar == n then { t with st := .active } else t }) s
    else s) s

/-- Ends threads (R31, R341): each becomes a helper while another thread of its quad lives, and is Exited otherwise;
helpers of quads with no live thread end. -/
def Warp.endLanes (w : Warp) (ls : List Nat) : Warp :=
  let w := w.modThreads ls fun t => { t with st := .exited }
  let w := ls.foldl (fun w l =>
    if (quadOf l).any fun k => (w.thread k).st.live then w.modThread l fun t => { t with st := .helper } else w) w
  w.endHelpers

/-- Switches lanes off in the state (R116): WFAULT is updated, helpers without a live thread end, and barriers that no
longer wait for those lanes complete. -/
def State.switchOff (s : State) (wid : Nat) (ls : List Nat) (cls : Nat) (pc : PC) (ovl : Nat) : State :=
  if ls.isEmpty then s
  else
    let w := ((s.warp wid).switchOff ls cls pc ovl).endHelpers
    (s.setWarp wid w).barriers w.block

/-- `exit` (R341). -/
def execExit (w : WordV3) (s : State) : Out :=
  issueWith s (fun c => checkEncoding c (usePlain w)) fun c =>
    let x := (c.w.advance c.i.lanes 1).endLanes (c.members w.guard)
    (s.setWarp c.wid x).barriers c.w.block

/-- `nop` (R341). -/
def execNop (w : WordV3) (s : State) : Out :=
  issueWith s (fun c => checkEncoding c (usePlain w)) fun c => s.setWarp c.wid (c.w.advance c.i.lanes 1)

/-- The group waits until every event of some lanes is performed (log 16), the scalar loads that stand in the log among them. -/
def checkPerformed (s : State) (c : Ctx) (ls : List Nat) : Check :=
  if ls.all fun l => (s.outstanding c.wid l).isEmpty && (c.w.parkedReads l).isEmpty then .go else .wait

/-- `bar` (R333): the members arrive and stand at the instruction after the barrier. -/
def execBar (w : WordV3) (s : State) : Out :=
  issueWith s (fun c => (checkEncoding c (useBar w)).andThen (checkPerformed s c c.i.lanes)) fun c =>
    let x := (c.w.advance c.i.lanes 1).modThreads c.i.lanes fun t => { t with st := .atBarrier, bar := w.md.toNat % 8 }
    (s.setWarp c.wid x).barriers c.w.block

/-! ### Calls and returns (R24, R339 to R341) -/

/-- Byte address of a thread's lane-private slice in the core's scratchpad (R111). -/
def sliceAddr (b : Block) (w : Warp) (l : Nat) : Nat :=
  scrAddr b.island b.core (b.sliceBase + (w.warpNo * b.warpw + l) * b.sliceSize)

/-- Byte address of a thread's frame at call depth `d`: frames grow downwards from the slice's end (R24). -/
def frameAddr (b : Block) (w : Warp) (l d : Nat) : Nat := sliceAddr b w l + b.sliceSize - 16 * (d + 1)

/-- A frame (R340). -/
def frameWord (slot ofs : Nat) (far : Bool) (ovl : Nat) (rcp : Option PC) : Nat :=
  slot + ofs * 2 ^ 2 + (if far then 2 ^ 15 else 0) + ovl * 2 ^ 16 +
    match rcp with
    | some p => p.slot * 2 ^ 32 + p.ofs * 2 ^ 34 + 2 ^ 47
    | none => 0

/-- Calls (R339): lanes whose frame fits push it and go to their target; the others are switched off. -/
def callLanes (s : State) (c : Ctx) (w : Warp) (g : BitVec 4) (len : Nat) (far : Bool) (target : Nat → Nat × Nat) : State :=
  let mem := c.members g
  let fits (l : Nat) : Bool := 16 * ((c.w.thread l).depth + 1) ≤ c.b.callArea
  let go := mem.filter fits
  let s := go.foldl (fun s l =>
    let t := c.w.thread l
    s.writeMem (frameAddr c.b c.w l t.depth) 16 (frameWord c.i.pc.slot (c.i.pc.ofs + len) far c.ovl t.rcp)) s
  let written := go.flatMap fun l => wordsOf (frameAddr c.b c.w l (c.w.thread l).depth) 16
  let w := c.i.lanes.foldl (fun w l =>
    if go.contains l then
      w.modThread l fun t => { t.goto (target l).1 (target l).2 with depth := t.depth + 1, rcp := none }
    else if mem.contains l then w
    else w.modThread l fun t => { t with pc := { t.pc with ofs := t.pc.ofs + len } }) w
  ((s.setWarp c.wid w).touch written).switchOff c.wid (mem.filter fun l => !fits l) 0x20 c.i.pc c.ovl

/-- `call` (R339). -/
def execCall (w : WordB) (s : State) : Out :=
  issueWith s (fun c => (checkEncoding c (useB w)).andThen
    ((checkTarget s c (c.relative w.ofs20) true).andThen (checkReturn s c 1))) fun c =>
    callLanes s c c.w w.guard 1 false fun _ => (c.i.pc.slot, (c.relative w.ofs20).toNat)

/-- `callr` (R339). -/
def execCallr (w : WordV3) (s : State) : Out :=
  issueWith s (fun c => (checkEncoding c (useJmpr w)).andThen
    ((checkReturn s c 1).andThen (checkRegTarget s w true c))) fun c =>
    callLanes s c (c.sourced (useJmpr w) w.guard) w.guard 1 false fun l => (c.i.pc.slot, (regTarget c w l).getD 0)

/-- The lowest slot of the core whose tag names the grid's image and an overlay (R339). -/
def findOverlay (s : State) (c : Ctx) (ovl : Nat) : Option Nat :=
  (List.range 4).find? fun k =>
    match NMap.find? (s.core c.b.island c.b.core).tags k with
    | some t => t.image == c.g.image && t.ovl == ovl
    | none => false

/-- The overlay rules of `fcall` (R339): OVERLAY_ABSENT, then BAD_TARGET in the slot found. -/
def checkFcall (s : State) (w : WordB) (c : Ctx) : Check :=
  if (c.members w.guard).isEmpty then .go
  else match findOverlay s c w.ovl.toNat with
    | none => .stop 0x04 [] 0 0
    | some k => if s.headerAt c k w.ofs20.toNat true then .go else .stop 0x03 [] 0 0

/-- `fcall` (R339): the block holds the slot that it enters. -/
def execFcall (w : WordB) (s : State) : Out :=
  issueWith s (fun c => (checkEncoding c (useFcall w)).andThen ((checkReturn s c 1).andThen (checkFcall s w c))) fun c =>
    match findOverlay s c w.ovl.toNat with
    | some k =>
      let s := if (c.members w.guard).isEmpty || c.b.slots.contains k then s
        else s.modBlock c.w.block fun b => { b with slots := b.slots ++ [k] }
      callLanes s c c.w w.guard 1 true fun _ => (k, w.ofs20.toNat)
    | none => callLanes s c c.w w.guard 1 true fun _ => (0, 0)

/-- A thread's top frame. -/
def topFrame (s : State) (c : Ctx) (l : Nat) : Nat := s.readMem (frameAddr c.b c.w l ((c.w.thread l).depth - 1)) 8

/-- Admitted lanes with a frame whose slot's tag no longer names the image and overlay it holds (R341). -/
def staleReturns (s : State) (c : Ctx) (g : BitVec 4) : List Nat :=
  (c.members g).filter fun l =>
    (c.w.thread l).depth != 0 &&
      match NMap.find? (s.core c.b.island c.b.core).tags (bits (topFrame s c l) 1 0) with
      | some t => !(t.image == c.g.image && t.ovl == bits (topFrame s c l) 31 16)
      | none => true

/-- Admitted lanes with a frame whose return point is no header (R256: a target reached through a frame is checked when it is taken). -/
def badReturns (s : State) (c : Ctx) (g : BitVec 4) : List Nat :=
  (c.members g).filter fun l =>
    (c.w.thread l).depth != 0 && !s.headerAt c (bits (topFrame s c l) 1 0) (bits (topFrame s c l) 14 2 : Nat) false

/-- The checks of `ret`: the frame's overlay, then its return point. -/
def checkReturns (s : State) (w : WordV3) (c : Ctx) : Check :=
  (if (staleReturns s c w.guard).isEmpty then Check.go else .stop 0x04 (staleReturns s c w.guard) 0 0).andThen
    (if (badReturns s c w.guard).isEmpty then .go else .stop 0x03 (badReturns s c w.guard) 0 0)

/-- `ret` (R341): pops a frame, or at depth 0 acts as `exit`. -/
def execRet (w : WordV3) (s : State) : Out :=
  issueWith s (fun c => (checkEncoding c (usePlain w)).andThen (checkReturns s w c)) fun c =>
    let mem := c.members w.guard
    let x := c.i.lanes.foldl (fun x l =>
      let t := x.thread l
      if !mem.contains l || t.depth = 0 then x.setThread l { t with pc := { t.pc with ofs := t.pc.ofs + 1 } }
      else
        let f := topFrame s c l
        x.setThread l { t.goto (bits f 1 0) (bits f 14 2) with
          depth := t.depth - 1
          rcp := if bit f 47 then some ⟨bits f 33 32, bits f 46 34⟩ else none }) c.w
    let x := x.endLanes (mem.filter fun l => (c.w.thread l).depth = 0)
    (s.setWarp c.wid x).barriers c.w.block

/-! ### Special registers (R102, R342) -/

/-- The value of a special register other than ITIME and PTIME as lane l sees it (R38, R102). -/
def specialReg (s : State) (c : Ctx) (sel l : Nat) : Nat :=
  match sel with
  | 0x00 => l
  | 0x01 => l / 4
  | 0x02 => c.w.warpNo
  | 0x03 => c.b.warpw
  | 0x04 => c.w.tilew.toNat
  | 0x05 => c.b.blockId
  | 0x06 => c.b.presCluster
  | 0x07 => c.b.presCore
  | 0x08 => c.g.presIsland
  | 0x09 => recBits c.g.record 5 47 32
  | 0x0A => NMap.getD s.nranks (recBits c.g.record 5 63 48) 0
  | 0x18 => c.w.mode.toNat
  | 0x19 => (c.w.thread l).lstat.toNat
  | 0x1A => c.w.wfault.toNat
  | 0x1B => c.w.gen.toNat
  | 0x1C => c.w.srseed.toNat
  | _ => 0

/-- `srd` (R342): each admitted lane receives the register as it sees it; times in the partition's view (R221, R398). -/
def execSrd (w : WordVI) (s : State) : Out :=
  let u := useSrd w
  let sel := w.imm24.toNat
  let n := if w.type3 = 3 then 2 else 1
  issueWith s (laneChecks u w.guard fun _ => .go) fun c =>
    let isTime := sel = 0x10 || sel = 0x11
    let t := if sel = 0x10 then s.itime c.b.island else (s.isl c.b.island).ptime
    let lanes := c.members w.guard ++ c.helpers w.guard
    let (v, s) := if isTime && !lanes.isEmpty then s.viewTime c.g.part c.b.island (sel == 0x11) t else (0, s)
    let x := lanes.foldl (fun x l => x.writeVs l w.dst.toNat n (if isTime then v else specialReg s c sel l)) c.w
    s.setWarp c.wid (x.advance c.i.lanes 1)

/-- The value `swr` takes for a per-warp register: the lowest admitted member's (R342). -/
def swrValue (c : Ctx) (w : WordVI) (n : Nat) : Nat := readV c.w ((c.members w.guard).headD 0) w.sa.toNat n

/-- An illegal TILEW value stops the warp (R342). -/
def checkTilew (w : WordVI) (n : Nat) (c : Ctx) : Check :=
  if w.imm24 = 4 && !(c.members w.guard).isEmpty && ! [2, 4, 8, 16, 32].contains (swrValue c w n) then
    .stop 0x02 [] 0 0
  else .go

/-- `swr` (R342). -/
def execSwr (w : WordVI) (s : State) : Out :=
  let u := useSwr w
  let n := if w.type3 = 3 then 2 else 1
  issueWith s (laneChecks u w.guard (checkTilew w n)) fun c =>
    let mem := c.members w.guard
    let v := swrValue c w n
    let x :=
      if mem.isEmpty then c.w
      else match w.imm24.toNat with
        | 0x04 => { c.w with tilew := BitVec.ofNat 32 v }
        | 0x18 => { c.w with mode := BitVec.ofNat 32 (v % 32) }
        | 0x19 => mem.foldl (fun x l => x.modThread l fun t =>
            { t with lstat := t.lstat &&& ~~~ (BitVec.ofNat 32 (readV c.w l w.sa.toNat 1) &&& ~~~ s.flagsNow c.wid l) }) c.w
        | 0x1C => { c.w with srseed := BitVec.ofNat 64 v }
        | _ => c.w
    let x := (x.poisonFlags c u mem).lastUse c u
    s.setWarp c.wid (x.advance c.i.lanes 1)

/-! ### `trap`, `sleep` and `gmark` (R343) -/

/-- `trap` (R343): TRAP for the warp when a member is admitted. -/
def execTrap (w : WordVI) (s : State) : Out :=
  issueWith s (fun c => (checkEncoding c (useTrap w)).andThen
    (if (c.members w.guard).isEmpty then .go else .stop 0x60 (c.members w.guard) w.imm24.toNat 0)) fun c =>
    s.setWarp c.wid (c.w.advance c.i.lanes 1)

/-- `sleep` (R343). -/
def execSleep (w : WordVI) (s : State) : Out :=
  issueWith s (fun c => checkEncoding c (useTrap w)) fun c =>
    let wake := s.itime c.b.island + w.imm24.toNat
    let x := (c.w.advance c.i.lanes 1).modThreads (c.members w.guard) fun t => { t with wake := some wake }
    s.setWarp c.wid x

/-- `gmark` (R343). -/
def execGmark (w : WordVI) (s : State) : Out :=
  issueWith s (fun c => checkEncoding c (useTrap w)) fun c =>
    let x := if (c.members w.guard).isEmpty then c.w else { c.w with mark := w.imm24 }
    s.setWarp c.wid (x.advance c.i.lanes 1)

/-- `fence.lanes` (R332): waits for the tile's lanes; it orders and changes nothing else. -/
def execFenceLanes (w : WordV3) (s : State) : Out :=
  issueWith s (fun c => (checkEncoding c (useUnguarded w)).andThen
    ((if c.i.lanes.all fun l => ((tileOf c.w l).filter fun k => (c.w.thread k).st.live).all fun k => c.i.lanes.contains k
      then Check.go else .wait).andThen (checkPerformed s c c.i.lanes))) fun c =>
    s.setWarp c.wid (c.w.advance c.i.lanes 1)

/-- A word with an unassigned opcode (R255). -/
def execUnassignedOpcode (_word : BitVec 64) (s : State) : Out :=
  issueWith s (fun _ => .stop 0x01 [] 0 0) fun _ => s

end Sys2Proof.Machine
end

