-- ==== Sys2Proof/Machine/Translate.lean ====
section
/-!
DEFINITION. Translation of global addresses (R142 to R148): the walk, the TLBs and walk cache, and the leaf's fields; the
buffer record and the element address (R149 to R151).
-/
namespace Sys2Proof.Machine

/-! ### Buffer records (R149 to R151) -/

/-- EXTENT of a record: 0 where a code or a reserved field is set (R149). -/
def recExtent (r : Nat) : Nat :=
  if 4 < bits r 50 48 || 3 < bits r 53 51 || bits r 63 54 != 0 then 0 else bits r 95 64

/-- Element size and the bytes from one element to the next (R149). -/
def recEsize (r : Nat) : Nat := 2 ^ bits r 50 48
def recStride (r : Nat) : Nat := if bits r 127 96 = 0 then recEsize r else bits r 127 96

/-- Swz (R151): bits [7:4] of the offset change; a 48-bit offset. -/
def swizzle (o m : Nat) : Nat :=
  match m with
  | 1 => o ^^^ (bits o 11 8 * 2 ^ 4)
  | 2 => o ^^^ (bits o 10 8 * 2 ^ 5)
  | 3 => o ^^^ (bits o 9 8 * 2 ^ 6)
  | _ => o

/-- Elements that an access of n bytes covers (R150). -/
def recCover (r n : Nat) : Nat := max 1 (n / recEsize r)

/-- An access over several elements through a record with gaps (R150). -/
def recGaps (r n : Nat) : Bool := decide (1 < recCover r n) && recStride r != recEsize r

/-- Whether the elements lie outside the extent (R150). -/
def recOutside (r n : Nat) (i : Int) : Bool := decide (i < 0) || decide ((recExtent r : Int) < i + (recCover r n : Nat))

/-- The virtual address of element i (R150). -/
def recVA (r : Nat) (i : Int) : Nat :=
  (bits r 47 0 + swizzle (wrapN 48 (i * (recStride r : Nat))) (bits r 53 51)) % 2 ^ 48

/-! ### Requests at the slices (R123, R223) -/

/-- Home slice of a physical address (R123). -/
def homeSlice (pa : Nat) : Nat := bits pa 13 8 ^^^ bits pa 19 14 ^^^ bits pa 25 20

def lowest (ws : List Nat) : Nat := ws.foldl min (ws.headD 0)
def highest (ws : List Nat) : Nat := ws.foldl max 0

/-- 64-byte lines that words of one region run over. -/
def linesOf (ws : List Nat) : Nat := highest ws / 16 + 1 - lowest ws / 16

/-- Counts one request at a slice (R223); whether it misses to HBM4E is free (log 2), and a miss is seen by the gauge. -/
def State.l2Request (s : State) (island part : Nat) (ws : List Nat) : State :=
  let s := s.islCount island 1 1
  let (k, s) := s.free
  if k % 2 = 0 then s
  else
    let pa := 4 * lowest ws - hbmAddr island 0
    ((s.islCount island 2 1).islCount island 3 (linesOf ws)).gaugeSee island 0x10 (homeSlice pa) (some part) pa

/-- Counts the lines that a slice writes to HBM4E on account of a write (R223): when it does so is free (log 2). -/
def State.l2Write (s : State) (island : Nat) (ws : List Nat) : State :=
  let (k, s) := s.free
  s.islCount island 4 (k % 2 * linesOf ws)

/-! ### Page tables (R142 to R146) -/

/-- The result of a walk: a valid leaf with the log of its page size, or none, with a malformed entry's address. -/
inductive Walked where
  | leaf (entry sizeLog : Nat)
  | absent (malformed : Option Nat)
  deriving DecidableEq, Repr

/-- The MAPK root table lies at physical address 0 of each island's HBM4E, inside the Map Keeper's region (log 9). -/
def rootTable : Nat := 0
/-- The Map Keeper's region of each island's HBM4E (log 9): nothing maps it. -/
def mapkRegion : Nat := 2 ^ 33

/-- A table entry of 8 bytes. -/
def State.tableEntry (s : State) (island pa : Nat) : Nat := s.readMem (hbmAddr island pa) 8

/-- Log of the bytes that one entry of a level covers (R142). -/
def levelShift : Nat → Nat
  | 0 => 36
  | 1 => 26
  | 2 => 21
  | _ => 16

/-- Index into the table of a level (R142). -/
def levelIndex (level va : Nat) : Nat :=
  match level with
  | 0 => bits va 47 36
  | 1 => bits va 35 26
  | 2 => bits va 25 21
  | _ => bits va 20 16

/-- A well-formed leaf (R145, R146). -/
def leafOk (e sizeLog : Nat) : Bool :=
  bits e 31 19 == 0 && bits e 63 55 == 0 && bits e 54 32 % 2 ^ (sizeLog - 16) == 0 && bits e 18 11 ≤ 159

/-- A well-formed pointer at a level (R144, R146): the next table's alignment is 8 KiB below L0 and 256 bytes below. -/
def pointerOk (e level : Nat) : Bool :=
  bits e 7 2 == 0 && bits e 63 39 == 0 && (level != 0 || bits e 12 8 == 0)

/-- Walks from a table at a level; answers the leaf and the pointers met, as (level, next table). -/
def State.walkFrom (s : State) (island va : Nat) : Nat → Nat → Nat → Walked × List (Nat × Nat)
  | 0, _, _ => (.absent none, [])
  | fuel + 1, level, table =>
    let pa := table + 8 * levelIndex level va
    let e := s.tableEntry island pa
    if !bit e 0 then (.absent none, [])
    else if bit e 1 then
      if level != 0 && leafOk e (levelShift level) then (.leaf e (levelShift level), []) else (.absent (some pa), [])
    else if level = 3 || !pointerOk e level then (.absent (some pa), [])
    else
      let next := bits e 38 8 * 2 ^ 8
      let r := s.walkFrom island va fuel (level + 1) next
      (r.1, (level, next) :: r.2)

/-- Addresses of the entries that a walk from a table reads. -/
def State.walkReads (s : State) (island va : Nat) : Nat → Nat → Nat → List Nat
  | 0, _, _ => []
  | fuel + 1, level, table =>
    let pa := table + 8 * levelIndex level va
    let e := s.tableEntry island pa
    pa :: if !bit e 0 || bit e 1 || level = 3 || !pointerOk e level then []
      else s.walkReads island va fuel (level + 1) (bits e 38 8 * 2 ^ 8)

/-- Counts the reads of a walk at the slices (R147), for the partition that holds the address space. -/
def State.walked (s : State) (island asid : Nat) (pas : List Nat) : State :=
  let part := (NMap.getD s.asids (island * 4096 + asid) (0, 0)).1
  pas.foldl (fun s pa => s.l2Request island part (wordsOf (hbmAddr island pa) 8)) s

/-- GEN that a request of an ASID carries (R146, R148): the Map Keeper's count for it. -/
def State.asidGenOf (s : State) (island asid : Nat) : Nat := NMap.getD s.asidGen (island * 4096 + asid) 0

/-- The root entry: the L0 table, or none (R143, R146). -/
def State.rootOf (s : State) (island asid : Nat) : Option Nat × Option Nat :=
  let pa := rootTable + 8 * asid
  let e := s.tableEntry island pa
  if !bit e 0 then (none, none)
  else if bits e 14 5 != 0 || bits e 63 39 != 0 then (none, some pa)
  else if bits e 4 1 != s.asidGenOf island asid then (none, none)
  else (some (bits e 38 15 * 2 ^ 15), none)

/-- Whether a TLB or walk-cache entry matches an access (R147): its level gives how much of the address it names. -/
def TlbEntry.hits (t : TlbEntry) (s : State) (island asid va : Nat) : Bool :=
  t.island == island && t.asid == asid && t.gen == s.asidGenOf island asid && t.va == va / 2 ^ t.sizeLog

/-- Adds an entry, dropping one of the same cache where it is full: first one whose GEN is stale (R148), else the oldest
(log 13). -/
def State.tlbAdd (s : State) (e : TlbEntry) : State :=
  let same (t : TlbEntry) : Bool := t.island == e.island && t.core == e.core && t.level.isSome == e.level.isSome
  let cap := if e.level.isSome then 1024 else if e.core.isSome then 64 else 12288
  let room := (s.tlb.filter same).length < cap
  let stale (t : TlbEntry) : Bool := same t && t.gen != s.asidGenOf t.island t.asid
  let old := if room then s.tlb else if s.tlb.any stale then s.tlb.eraseP stale else s.tlb.eraseP same
  { s with tlb := old ++ [e] }

/-- Translates a virtual address (R142, R147): a TLB hit, else a walk from the deepest pointer held, else from the root. Its
reads go through the L2, and what is read is kept in the caches. A malformed entry is reported to the Map Keeper (R146). -/
def State.translate (s : State) (island : Nat) (core : Option Nat) (asid va : Nat) : Walked × State :=
  let gen := s.asidGenOf island asid
  let page (t : TlbEntry) : Bool := t.level.isNone && (t.core == core || t.core.isNone) && t.hits s island asid va
  match s.tlb.find? page with
  | some t => (.leaf t.leaf t.sizeLog, s)
  | none =>
    let ptr (l : Nat) : Option TlbEntry := s.tlb.find? fun t => t.level == some l && t.hits s island asid va
    let w : Walked × List (Nat × Nat) :=
      match ptr 2, ptr 1, ptr 0 with
      | some t, _, _ => s.walkFrom island va 1 3 t.leaf
      | none, some t, _ => s.walkFrom island va 2 2 t.leaf
      | none, none, some t => s.walkFrom island va 3 1 t.leaf
      | none, none, none =>
        match s.rootOf island asid with
        | (some t, _) => s.walkFrom island va 4 0 t
        | (none, m) => (.absent m, [])
    let reads : List Nat :=
      match ptr 2, ptr 1, ptr 0 with
      | some t, _, _ => s.walkReads island va 1 3 t.leaf
      | none, some t, _ => s.walkReads island va 2 2 t.leaf
      | none, none, some t => s.walkReads island va 3 1 t.leaf
      | none, none, none => (rootTable + 8 * asid) ::
        match s.rootOf island asid with
        | (some t, _) => s.walkReads island va 4 0 t
        | (none, _) => []
    let s := s.walked island asid reads
    let s := w.2.foldl (fun s p =>
      s.tlbAdd ⟨island, none, asid, gen, va / 2 ^ levelShift p.1, levelShift p.1, p.2, some p.1⟩) s
    match w.1 with
    | .leaf e k =>
      let s := s.tlbAdd ⟨island, none, asid, gen, va / 2 ^ k, k, e, none⟩
      let s := if core.isSome then s.tlbAdd ⟨island, core, asid, gen, va / 2 ^ k, k, e, none⟩ else s
      (.leaf e k, s)
    | .absent (some pa) => (.absent (some pa), { s with mapkNotes := s.mapkNotes ++ [(island, pa)] })
    | .absent none => (.absent none, s)

/-- Fields of a leaf (R145). -/
def leafType (e : Nat) : Nat := bits e 3 2
def leafClass (e : Nat) : Nat := bits e 5 4
def leafR (e : Nat) : Bool := bit e 6
def leafW (e : Nat) : Bool := bit e 7
def leafX (e : Nat) : Bool := bit e 8
def leafDH (e : Nat) : Bool := bit e 9
def leafTransit (e : Nat) : Bool := bit e 10
def leafOwner (e : Nat) : Nat := bits e 18 11
/-- The physical address of a virtual address on the page (R142). -/
def leafPA (e sizeLog va : Nat) : Nat := bits e 54 32 * 2 ^ 16 + va % 2 ^ sizeLog

end Sys2Proof.Machine
end

