-- ==== Sys2Proof/Machine/Coherence.lean ====
section
/-!
DEFINITION. Coherence inside an island (R123 to R141): spans and regions, L1 span records, the home slice's directory and
queue, the messages between them, and the atomic operations of R328. A message keeps its number from its issue to its
acknowledgement (log 14).
-/
namespace Sys2Proof.Machine

/-! ### Atomic operations (R328) -/

/-- TARGET of an arrival counter's second dword set to t, ARMED set; a t at or above 2⁴⁸ saturates and sets OVF (R214). -/
def armTarget (old t : Nat) : Nat :=
  let x := setBits (setBits old 63 63 1) 47 0 (min t (2 ^ 48 - 1))
  if 2 ^ 48 ≤ t then setBits x 62 62 1 else x

/-- Bytes of one operation: a store (code 8) names its size, an atomic takes its type's. Codes 9 and 10 are `arm` (R368). -/
def AtomOp.bytes (o : AtomOp) : Nat := if o.aop = 8 then o.ty else if is64 o.ty then 8 else 4

/-- The value an atomic writes; none where a compare-and-swap fails. Flags are discarded and subnormals kept (R328). -/
def AtomOp.new (o : AtomOp) (old : Nat) : Option Nat :=
  let w := 8 * o.bytes
  let f (x : Nat) : FVal := fdecode o.ty x false
  let isF := isF32or64 o.ty
  match o.aop with
  | 0 =>
    if isF then some (fround (exactSum [f old, f o.d] o.rnd).1 o.ty o.rnd false false (stochHigh o.seed o.lane 0)).1
    else some ((old + o.d) % 2 ^ w)
  | 1 =>
    if isF then some (fround (fminmax false (f old) (f o.d)).1 o.ty 0 false false 0).1
    else some (if readInt o.ty o.d < readInt o.ty old then o.d else old)
  | 2 =>
    if isF then some (fround (fminmax true (f old) (f o.d)).1 o.ty 0 false false 0).1
    else some (if readInt o.ty old < readInt o.ty o.d then o.d else old)
  | 3 => some (old &&& o.d)
  | 4 => some (old ||| o.d)
  | 5 => some (old ^^^ o.d)
  | 6 => some o.d
  | 7 => if old = o.cmp then some o.d else none
  | 9 => some (armTarget old o.d)
  | 10 => some (armTarget old (bits old 47 0 + o.d))
  | _ => some o.d

/-- Operations performed in order: the memory after them, each lane's old value, and the bytes written. -/
def runOps (m : List Host.Cell) : List AtomOp → List Host.Cell × List (Nat × Nat) × List Nat
  | [] => (m, [], [])
  | o :: os =>
    let old := valueOf (Memory.readN m o.pa o.bytes)
    let m' := match o.new old with
      | some v => Memory.writeN m o.pa (bytesOf o.bytes v)
      | none => m
    let wr := if (o.new old).isSome then (List.range o.bytes).map (· + o.pa) else []
    let r := runOps m' os
    (r.1, (o.lane, old) :: r.2.1, wr ++ r.2.2)

/-- Words that operations touch. -/
def opWords (os : List AtomOp) : List Nat := (os.flatMap fun o => wordsOf o.pa o.bytes).eraseDups

/-! ### Regions and spans (R123 to R125) -/

/-- The smallest span that covers words of one region. -/
def spanOver (ws : List Nat) : List Nat := (List.range (highest ws + 1 - lowest ws)).map (· + lowest ws)

/-- The spans asked for the needed words of one region (R124): two where they run over more than 32 words. -/
def spansOf (ws : List Nat) : List (List Nat) :=
  if ws.isEmpty then []
  else if highest ws < lowest ws + 32 then [spanOver ws]
  else [(List.range 32).map (· + lowest ws), spanOver (ws.filter fun w => lowest ws + 32 ≤ w)]

/-- Spans of words in any regions, region by region. -/
def allSpans (ws : List Nat) : List (List Nat) :=
  ((ws.map regionOf).eraseDups).flatMap fun r => spansOf (ws.filter fun w => regionOf w == r)

def overlaps (a b : List Nat) : Bool := a.any fun w => b.contains w

/-- Bytes of words. -/
def bytesOfWords (ws : List Nat) : List Nat := ws.flatMap fun w => [4 * w, 4 * w + 1, 4 * w + 2, 4 * w + 3]

/-- The listed cells of words in a memory. -/
def cellsOf (m : List Host.Cell) (ws : List Nat) : List Host.Cell := m.filter fun c => ws.contains (c.1 / 4)

/-- Writes the words of `ws` of one memory into another. -/
def copyWords (dst src : List Host.Cell) (ws : List Nat) : List Host.Cell :=
  (bytesOfWords ws).foldl (fun m a => Memory.write m a (Memory.read src a)) dst

/-! ### ONCE written bits (R83, R121) -/

/-- Whether a word's written bit is set. -/
def State.written (s : State) (w : Nat) : Bool :=
  match s.once.find? fun r => r.1 ≤ w && w < r.1 + r.2.1 with
  | some r => r.2.2
  | none => false

/-- Sets or clears the bits of a range of words. -/
def State.setWritten (s : State) (w n : Nat) (b : Bool) : State :=
  if n = 0 then s
  else { s with once := (w, n, b) :: s.once.filter fun r => !(w ≤ r.1 && r.1 + r.2.1 ≤ w + n) }

/-- Sets the bits of a list of words. -/
def State.markWritten (s : State) (ws : List Nat) : State := ws.foldl (fun s w => s.setWritten w 1 true) s

/-! ### The slice's directory (R129) -/

/-- The floor of a word's slice (R129). -/
def State.floorOf (s : State) (island w : Nat) : Nat :=
  NMap.getD s.rtsFloor (64 * island + homeSlice (4 * w - hbmAddr island 0)) 0

/-- Directory values of a word; one without an entry takes its slice's floor (R129). When a region leaves the directory is open: here
one does so only at a switch (DESIGN CHOICE, log 90). -/
def State.dirWord (s : State) (island w : Nat) : DirWord := NMap.getD s.dir w ⟨0, s.floorOf island w, none, none⟩

/-- Changes the directory values of words. -/
def State.modDir (s : State) (island : Nat) (ws : List Nat) (f : DirWord → DirWord) : State :=
  ws.foldl (fun s w => { s with dir := NMap.set s.dir w (f (s.dirWord island w)) }) s

/-- Cores that hold a word of a list. -/
def State.holders (s : State) (island : Nat) (ws : List Nat) : List Nat :=
  (ws.filterMap fun w => (s.dirWord island w).holder).eraseDups

/-- Whether ITIME exceeds the wts of every word, and on a SEQ page their rts (R130). -/
def State.tsFree (s : State) (island ptype : Nat) (ws : List Nat) : Bool :=
  ws.all fun w =>
    let d := s.dirWord island w
    decide (d.wts < s.itime island) && (ptype != 0 || decide (d.rts < s.itime island))

/-- Lease length of a class in ns (R126). -/
def State.leaseLen (s : State) (island cls : Nat) : Nat := 64 * bits (s.reg .islLease island) (8 * cls + 6) (8 * cls)

/-! ### L1 span records (R125, R128) -/

/-- Whether the L1 may use a record (R127). -/
def SpanRec.usable (r : SpanRec) (s : State) : Bool :=
  match r.st with
  | .ow | .pv => true
  | .sh | .ex => s.itime r.island + 2 < r.expiry

/-- The usable record from which the L1 supplies words that are read together: it covers them all, and of a pair it holds one
read's values (R70, R125). -/
def State.l1Find (s : State) (island core : Nat) (ws : List Nat) : Option SpanRec :=
  s.spans.find? fun r => r.island == island && r.core == core && r.usable s && (ws.all fun w => r.words.contains w) &&
    (ws.length ≤ 1 || !overlaps r.torn ws)

/-- The usable record of a core that holds words EX or PV: an own write of them is performed in place (R128). -/
def State.ownRec (s : State) (island core : Nat) (ws : List Nat) : Option SpanRec :=
  s.spans.find? fun r => r.island == island && r.core == core && (r.st == .ex || r.st == .pv) && r.usable s &&
    ws.all fun w => r.words.contains w

def State.setSpan (s : State) (r : SpanRec) : State :=
  { s with spans := s.spans.map fun x => if x.id = r.id then r else x }
def State.dropSpan (s : State) (id : Nat) : State := { s with spans := s.spans.filter fun x => x.id != id }

/-- Messages of a core to its slices that write words back and are not yet performed. -/
def State.wbacksOf (s : State) (island core : Nat) (ws : List Nat) : List Nat :=
  (s.msgs.filter fun m => m.kind == .wback && m.island == island && m.core == core && overlaps m.words ws).map fun m => m.id

/-- Sends WBACK for a record: `release` gives the words up (log 15: sent for an EX span also when nothing is dirty). Answers the
message's number, if one is sent. -/
def State.sendWback (s : State) (r : SpanRec) (release : Bool) : Option Nat × State :=
  let ws := if r.st = .ex && release then r.words else (r.dirty.map (· / 4)).eraseDups
  if ws.isEmpty || (r.st != .ex && r.st != .pv) then (none, s)
  else
    let (id, s) := s.newId
    let m : Msg :=
      { Msg.blank id .wback r.island r.core 0 with
        words := ws, ptype := r.ptype, solo := release && r.st == .ex
        cells := r.dirty.map fun a => (a, Memory.read r.data a), after := s.wbacksOf r.island r.core ws }
    (some id, (s.addMsg m).coreCount r.island r.core 7 1)

/-- Drops a record, writing back what is dirty (R128). -/
def State.discard (s : State) (r : SpanRec) : State := ((s.sendWback r true).2).dropSpan r.id

/-- Takes words from a record; a record left without words is dropped. -/
def SpanRec.without (r : SpanRec) (ws : List Nat) : SpanRec :=
  { r with
    words := r.words.filter fun w => !ws.contains w
    data := r.data.filter fun c => !ws.contains (c.1 / 4)
    dirty := r.dirty.filter fun a => !ws.contains (a / 4)
    torn := r.torn.filter fun w => !ws.contains w }

/-- Whether a record's words stay as they are under a fill of the frame: it holds them EX, PV or OW, or its write timestamp is the
later one (R125). -/
def SpanRec.stands (x r : SpanRec) : Bool := x.st != .sh || decide (r.wts < x.wts)

/-- The other word of an aligned pair of words. -/
def partner (w : Nat) : Nat := w ^^^ 1

/-- Words of `part` whose partner is among `ws` but not in `part`. -/
def halves (ws part : List Nat) : List Nat := part.filter fun w => ws.contains (partner w) && !part.contains (partner w)

/-- The record with the earliest expiry among those of a frame. Between equal expiries the older record goes, and a record without a
lease (OW, PV) goes only where all are such (DESIGN CHOICE, log 92). -/
def earliest : List SpanRec → Option SpanRec
  | [] => none
  | r :: rs =>
    let key (x : SpanRec) : Nat := if x.st = .ow || x.st = .pv then 2 ^ 64 else x.expiry
    match earliest rs with
    | some y => if key y < key r then some y else some r
    | none => some r

/-- A fill as it enters its frame (R125): words that an older record holds fast take that record's values. A pair of which only one
word does so, or whose words come from two records, is torn. -/
def SpanRec.entering (r : SpanRec) (olds : List SpanRec) : SpanRec :=
  let fast := olds.filter fun x => x.stands r
  let kept := r.words.filter fun w => fast.any fun x => x.words.contains w
  let whole (w : Nat) : Bool := fast.any fun x =>
    x.words.contains w && x.words.contains (partner w) && !overlaps x.torn [w, partner w]
  { r with
    data := fast.foldl (fun m x => copyWords m x.data (r.words.filter fun w => x.words.contains w)) r.data
    wts := fast.foldl (fun t x => max t x.wts) r.wts
    torn := if r.st = .sh then kept.filter fun w => r.words.contains (partner w) && !whole w else [] }

/-- An older record of the frame after a fill: the words that the fill replaces take its values (R125). -/
def SpanRec.refilled (x r : SpanRec) (olds : List SpanRec) : SpanRec :=
  let new := x.words.filter fun w => r.words.contains w && !(olds.any fun y => y.stands r && y.words.contains w)
  if new.isEmpty then x
  else
    { x with
      data := copyWords x.data r.data new
      wts := max x.wts r.wts
      torn := (x.torn.filter fun w => !(new.contains w && new.contains (partner w))) ++ halves x.words new }

/-- Frames of an L1: 128 KiB of regions of 256 bytes (R17). -/
def l1Frames : Nat := 512

/-- Makes room for a record's frame: an L1 whose frames are all taken evicts one, that of the record with the earliest expiry (R17,
R128; which frame goes is left open: DESIGN CHOICE, log 113). -/
def State.makeFrame (s : State) (r : SpanRec) : State :=
  let region (x : SpanRec) : Nat := regionOf (x.words.headD 0)
  let mine := s.spans.filter fun x => x.island == r.island && x.core == r.core
  let frames := (mine.map region).eraseDups
  if frames.contains (region r) || decide (frames.length < l1Frames) then s
  else match earliest mine with
    | some x => (mine.filter fun y => region y == region x).foldl State.discard s
    | none => s

/-- Places a record in its frame (R125): a word stays valid while any record covers it, every record that covers it holds the same
value, and a fifth record of the frame first evicts the one with the earliest expiry. -/
def State.addSpan (s : State) (r : SpanRec) : State :=
  if r.words.isEmpty then s
  else
    let s := s.makeFrame r
    let mine (x : SpanRec) : Bool := x.island == r.island && x.core == r.core
    let olds := s.spans.filter fun x => mine x && x.usable s && overlaps x.words r.words
    let s := { s with spans := s.spans.map fun x => if mine x && x.usable s && overlaps x.words r.words then x.refilled r olds else x }
    let frame := s.spans.filter fun x => mine x && regionOf (x.words.headD 0) == regionOf (r.words.headD 0)
    let s := if 4 ≤ frame.length then (match earliest frame with | some x => s.discard x | none => s) else s
    { s with spans := s.spans ++ [r.entering olds] }

/-- An acquire of cluster or island scope by a thread of the core (R128), or the arrival of a thread on it that has happens-before edges
from elsewhere (R82): REL words shared by the L1 are dropped, and data on its way is delivered but not kept. -/
def State.dropRel (s : State) (island core : Nat) : State :=
  { s with
    spans := s.spans.filter fun r => !(r.island == island && r.core == core && r.st == .sh && r.ptype == 1)
    msgs := s.msgs.map fun m =>
      if m.kind == .data && m.island == island && m.core == core && m.ptype == 1 then { m with keep := [] } else m }

/-- Performs operations in place on an EX or PV record (R128); other records of the core that cover the words hold the same. R133's
count of atomics counts one for each lane's operation (DESIGN CHOICE, log 91). -/
def State.inPlace (s : State) (r : SpanRec) (ops : List AtomOp) (atomics : Nat) : State × List (Nat × Nat) :=
  let x := runOps r.data ops
  let ws := (x.2.2.map (· / 4)).eraseDups
  let s := { s with spans := s.spans.map fun (y : SpanRec) =>
      if y.id = r.id then { r with data := x.1, dirty := (r.dirty ++ x.2.2).eraseDups, atomics := r.atomics + atomics }
      else if y.island == r.island && y.core == r.core && overlaps y.words ws then
        { y with data := copyWords y.data x.1 (ws.filter fun w => y.words.contains w) }
      else y }
  (s.touch ws, x.2.1)

/-- Whether the core holds the words of every operation EX or PV. -/
def State.ownsAll (s : State) (island core : Nat) (ops : List AtomOp) : Bool :=
  ops.all fun o => (s.ownRec island core (wordsOf o.pa o.bytes)).isSome

/-- Performs operations in place, each on a record that holds its words, in order. -/
def State.runOwned (s : State) (island core : Nat) (atomic : Bool) : List AtomOp → State × List (Nat × Nat)
  | [] => (s, [])
  | o :: os =>
    match s.ownRec island core (wordsOf o.pa o.bytes) with
    | none => s.runOwned island core atomic os
    | some r =>
      let x := s.inPlace r [o] (if atomic then 1 else 0)
      let y := x.1.runOwned island core atomic os
      (y.1, x.2 ++ y.2)

/-! ### The contention predictor (R133) -/

/-- Start word of the span of some words, which tags its predictor entry with its region. -/
def State.predict (s : State) (island core : Nat) (ws : List Nat) : Nat × State :=
  let c := s.core island core
  let k := lowest ws
  match c.predictor.find? fun e => e.1 == k with
  | some e =>
    (e.2.1, s.setCore island core { c with predictor := c.predictor.map fun x => if x.1 = k then (k, x.2.1, s.clk) else x })
  | none =>
    let old := c.predictor.foldl (fun (b : Option (Nat × Nat × Nat)) x => match b with
      | some y => if x.2.2 < y.2.2 then some x else some y
      | none => some x) none
    let kept := if c.predictor.length < 64 then c.predictor
      else match old with | some y => c.predictor.erase y | none => c.predictor
    (0, s.setCore island core { c with predictor := kept ++ [(k, 0, s.clk)] })

/-- Changes the counter of a span's entry, where there is one; not in plain mode (R134). -/
def State.retrain (s : State) (island core : Nat) (ws : List Nat) (f : Nat → Nat) : State :=
  if s.reg .islCohmode island % 2 = 1 then s
  else s.modCore island core fun c =>
    { c with predictor := c.predictor.map fun x => if x.1 = lowest ws then (x.1, f x.2.1, x.2.2) else x }

/-! ### Answers to outstanding instructions -/

/-- An answer for an outstanding instruction: bytes or old values arrive, and the reads of the lanes concerned are performed: those
of an acquire of cluster or island scope drop the core's REL words (R128). -/
def State.answer (s : State) (m : Msg) (cells : List Host.Cell) : State :=
  match m.asker with
  | none => s
  | some p =>
    match s.pend.find? fun x => x.id == p with
    | none => s
    | some x =>
      let vals := m.olds.flatMap fun o =>
        if x.size = 8 then [(o.1, x.dst, BitVec.ofNat 32 o.2), (o.1, x.dst + 1, BitVec.ofNat 32 (o.2 / 2 ^ 32))]
        else [(o.1, x.dst, BitVec.ofNat 32 o.2)]
      let x : Pend := { x with
        got := copyWords x.got cells (if m.kind = MsgKind.data then m.words else [])
        writes := x.writes ++ (if x.kind = PendKind.atomic then vals else [])
        waiting := x.waiting.filter (· != m.id) }
      let s := { s with pend := s.pend.map fun (y : Pend) => if y.id = p then x else y }
      if x.drops then s.dropRel m.island m.core else s

/-! ### The slice (R129, R130, R139, R140) -/

/-- Messages on their way from the slices to a core about a region: an answer follows those sent before it (log 14). -/
def State.respAfter (s : State) (m : Msg) : List Nat :=
  (s.msgs.filter fun x =>
    (x.kind == .data || x.kind == .xdata || x.kind == .wack || x.kind == .aack || x.kind == .recall || x.kind == .drain && x.acq) &&
      x.island == m.island && x.core == m.core && x.id != m.id && overlaps (x.words.map regionOf) (m.words.map regionOf)).map
    fun x => x.id

/-- Whether every event that must come before a message's delivery is performed. In the core clock in which an island relocks its L1s
and slices accept no request (R141). -/
def State.ready (s : State) (m : Msg) : Bool :=
  !s.now.relocked.contains m.island && m.after.all fun k => !s.msgs.any fun x => x.id == k

/-- Whether a `.wait` load still lacks a written word that it needs (R83). -/
def State.unwrittenWait (s : State) (m : Msg) : Bool :=
  m.ptype == 2 && match m.asker with
    | some p => s.pend.any fun x =>
        x.id == p && x.kind == .loadWait && x.lanes.any fun l => (wordsOf l.pa x.size).any fun w => m.words.contains w && !s.written w
    | none => false

/-- Whether a queued request still stands: an engine's place in the queue lapses with the command, the packet or the request that
took it. -/
def State.alive (s : State) (q : Msg) : Bool :=
  q.kind != .engine ||
    match q.asker with
    | some p => s.packets.any fun x => x.id == p
    | none =>
      let w := s.warp q.warp
      if q.acq then (w.mq ++ w.xq ++ w.fq).any fun c => c.running else s.mapJobs.any fun j => j.island == q.island

/-- A queued request that only reads. -/
def Msg.readsOnly (q : Msg) : Bool := q.kind == .gets || (q.kind == .engine && !q.solo)

/-- Whether a request at the slice stands before another in its queue: both name a word, and not both only read (R129). A load that
waits for a word to be written holds nothing up (R83). -/
def State.before (s : State) (q m : Msg) : Bool :=
  q.id != m.id && q.island == m.island && q.arr.isSome &&
    (match m.arr, q.arr with | some a, some b => decide (b < a) | _, _ => true) &&
    overlaps q.words m.words && !(q.readsOnly && m.readsOnly) && !s.unwrittenWait q && s.alive q

/-- Requests queued at the slice that a request stands behind (R129). -/
def State.behind (s : State) (m : Msg) : Bool := s.msgs.any fun q => s.before q m

/-- Puts a request into the slice's queue. -/
def State.enqueue (s : State) (m : Msg) (waited : Bool) : State :=
  if m.arr.isSome then s
  else
    let (k, s) := s.newId
    s.setMsg { m with arr := some k, since := s.itime m.island, solo := m.solo || waited }

/-- Whether a core has been asked for a word, or is giving it up: a RECALL of it, or a WBACK that ends the holding, is on its way. -/
def State.givingUp (s : State) (island core w : Nat) : Bool :=
  s.msgs.any fun m => (m.kind == .recall || m.kind == .wback && m.solo) && m.island == island && m.core == core && m.words.contains w

/-- Sends RECALL to each holder of the words, for those it has not been asked for (R129). -/
def State.recallHolders (s : State) (island : Nat) (ws : List Nat) : State :=
  (s.holders island ws).foldl (fun s c =>
    let held := ws.filter fun w => (s.dirWord island w).holder == some c && !s.givingUp island c w
    if held.isEmpty then s
    else
      let (id, s) := s.newId
      let m := { Msg.blank id .recall island c 0 with words := held }
      s.addMsg { m with after := s.respAfter m }) s

/-- The dual-home window that a word lies in (R139). -/
def State.windowOf (s : State) (w : Nat) : Option DualHome :=
  s.dual.find? fun d => hbmAddr d.island d.oldPa ≤ 4 * w && 4 * w < hbmAddr d.island d.oldPa + d.size

/-- Where a word of a dual-home window stands in the new frame. -/
def DualHome.there (d : DualHome) (w : Nat) : Nat := (hbmAddr d.newIsland d.newPa + (4 * w - hbmAddr d.island d.oldPa)) / 4

/-- Whether the mirrors of words may be written now at the new frame's slices: ITIME there exceeds their wts and, on a SEQ page, their
rts (R130, R139). -/
def State.mirrorFree (s : State) (ptype : Nat) (ws : List Nat) : Bool :=
  ws.all fun w =>
    match s.windowOf w with
    | some d => s.tsFree d.newIsland ptype [d.there w]
    | none => true

/-- Writes words of a dual-home window, as they stand at the old home, to the new frame, and notes them as mirrored (R139). To a frame on
another island it is a mirrored `put`, for which no rule gives a route or a packet: it is one event here, like a mirror on the island
(DESIGN CHOICE, log 137). -/
def State.mirrorNow (s : State) (ws : List Nat) : State :=
  let s := match s.windowOf (ws.headD 0) with
    | some d => s.l2Write d.newIsland (ws.map d.there)
    | none => s
  ws.foldl (fun s w =>
    match s.windowOf w with
    | none => s
    | some d =>
      let v := d.there w
      let s := (s.writeMem (4 * v) 4 (s.readMem (4 * w) 4)).modDir d.newIsland [v] fun x => { x with wts := s.itime d.newIsland }
      { s with dual := s.dual.map fun (x : DualHome) => if x.oldPa = d.oldPa && x.island = d.island then
          { x with mirrored := if x.mirrored.contains w then x.mirrored else x.mirrored ++ [w] } else x }) s

/-- Whether an atomic on words always runs far now (R132, R140): HOLD is in force, or a word lies in a dual-home window. -/
def State.mustFar (s : State) (island : Nat) (ws : List Nat) : Bool :=
  (s.isl island).inHold || ws.any fun w => (s.windowOf w).isSome

/-- Grants a shared lease (R129): rts rises, and a SEQ write of the words that stands in the queue then waits on a lease (R226). In HOLD the answer carries no lease and nothing of it is kept (R140); of a ONCE page
only words written now may be kept (R83). -/
def State.grantGets (s : State) (m : Msg) : State :=
  let now := s.itime m.island
  let hold := (s.isl m.island).inHold
  let e := if hold then now else now + s.leaseLen m.island m.cls
  let wts := (m.words.map fun w => (s.dirWord m.island w).wts).foldl max 0
  let s := if hold then s else s.modDir m.island m.words fun d => { d with rts := max d.rts e }
  let s := s.l2Request m.island m.part m.words
  let leased (q : Msg) : Msg :=
    if q.island != m.island || q.ptype != 0 || q.arr.isNone || !overlaps q.words m.words then q
    else if q.kind = .write then { q with solo := true }
    else if q.kind = .engine && q.solo then { q with ts := 1 } else q
  let s := if hold then s else { s with msgs := s.msgs.map leased }
  let keep := if hold then [] else if m.ptype = 2 then m.words.filter s.written else m.words
  let r := { m with kind := .data, cells := cellsOf s.mem m.words, ts := wts, expiry := e, keep := keep, arr := none }
  s.setMsg { r with after := s.respAfter r }

/-- Whether GETS may be granted now: on its arrival a GETX that waits for leases holds it up no more than they do, and in the queue
requests are served in the order of their arrival (R129). -/
def State.getsFree (s : State) (m : Msg) : Bool :=
  (s.holders m.island m.words).isEmpty && !s.unwrittenWait m &&
    !s.msgs.any fun q => s.before q m && (m.arr.isSome || q.kind != .getx)

/-- Whether GETX may be granted now. -/
def State.getxFree (s : State) (m : Msg) : Bool :=
  (s.holders m.island m.words).isEmpty && !s.behind m &&
    (m.ptype != 0 || m.words.all fun w => decide ((s.dirWord m.island w).rts < s.itime m.island))

/-- Grants an exclusive lease (R129). -/
def State.grantGetx (s : State) (m : Msg) : State :=
  let wts := (m.words.map fun w => (s.dirWord m.island w).wts).foldl max 0
  let s := s.modDir m.island m.words fun d => { d with holder := some m.core }
  let s := s.l2Request m.island m.part m.words
  let r := { m with kind := .xdata, cells := cellsOf s.mem m.words, ts := wts
                    expiry := s.itime m.island + s.leaseLen m.island m.cls, arr := none }
  s.setMsg { r with after := s.respAfter r }

/-- Whether a write, far atomic or drain may be performed now (R129, R130). -/
def State.writeFree (s : State) (m : Msg) : Bool :=
  (s.holders m.island m.words).isEmpty && !s.behind m && s.tsFree m.island m.ptype m.words

/-- Performs a write, far atomic or drain (R129, R130): its operations run in order, wts := ts, and on a ONCE page the written bits
are set. A drain performed (`acq`) stays until the core's copy has its values (R89; log 14). -/
def State.perform (s : State) (m : Msg) : State :=
  let now := s.itime m.island
  let x := runOps s.mem m.ops
  let isAtom := m.ops.any fun o => o.aop != 8
  let solo := m.words.all fun w => (s.dirWord m.island w).lastAtom == some m.core
  let pa := 4 * lowest m.words - hbmAddr m.island 0
  let s := { s with mem := x.1 }
  let s := s.modDir m.island m.words fun d =>
    { d with wts := now, lastAtom := if isAtom then some m.core else d.lastAtom }
  let s := if m.kind = .write && m.ptype = 2 then s.markWritten m.words else s
  let s := ((s.touch (x.2.2.map (· / 4)).eraseDups).l2Request m.island m.part m.words).l2Write m.island m.words
  let s := if m.kind = .write && m.solo && m.ptype = 0 then
      (s.islCount m.island 5 1).gaugeSee m.island 0x11 (homeSlice pa) (some m.part) (now - m.since)
    else s
  let s := if m.kind = .atom then s.gaugeSee m.island 0x12 (homeSlice pa) (some m.part) pa else s
  let s := if m.kind = .drain then
      (s.islCount m.island 6 m.ops.length).gaugeSee m.island 0x13 (homeSlice pa) (some m.part) m.ops.length
    else s
  let done : MsgKind := if m.kind = .write then .wack else if m.kind = .drain then .drain else .aack
  let r := { m with kind := done, ts := now, olds := x.2.1, cells := cellsOf s.mem m.words, solo := solo, arr := none
                    acq := m.acq || done == MsgKind.drain }
  match s.windowOf (m.words.headD 0) with
  | some _ => s.setMsg { r with kind := .mirror, since := if m.kind = .write then 0 else if m.kind = .drain then 2 else 1 }
  | none => s.setMsg { r with after := s.respAfter r }

/-- Serves or queues a write, far atomic or drain at its slice (R129). -/
def State.serveWrite (s : State) (m : Msg) : State :=
  if s.writeFree m then s.perform m
  else
    let lease := m.ptype == 0 && m.words.any fun w => decide (s.itime m.island ≤ (s.dirWord m.island w).rts)
    (s.recallHolders m.island m.words).enqueue m lease

/-- Turns a request for an exclusive lease into a far atomic (R140). -/
def Msg.toAtom (m : Msg) : Msg := { m with kind := .atom, words := opWords m.ops, solo := false }

/-- Words that the core itself holds PV are given up before its far atomic or its write of them at the slice, with a WBACK that it
follows: no RECALL ever asks for them (R128, R132). Answers the message and whether it must wait for one. -/
def State.givePv (s : State) (m : Msg) : Msg × Bool × State :=
  let rs := s.spans.filter fun r => r.island == m.island && r.core == m.core && r.st == .pv && overlaps r.words m.words
  if rs.isEmpty then (m, false, s)
  else
    let s := rs.foldl State.discard s
    ({ m with after := s.wbacksOf m.island m.core m.words }, true, s)

/-- A write or far atomic reaches its slice. -/
def State.toSlice (s : State) (m : Msg) : State :=
  let (m, waits, s) := s.givePv m
  if waits then s.setMsg m else s.serveWrite m

/-- An atomic that was to run near goes far. -/
def State.goFar (s : State) (m : Msg) : State :=
  let m := m.toAtom
  (((s.setMsg m).coreCount m.island m.core 9 1)).toSlice m

/-- Atomics run in place, where the core holds their words (R128, R133): the message ends with its answer. -/
def State.nearNow (s : State) (m : Msg) : State :=
  let (s, olds) := s.runOwned m.island m.core true m.ops
  ((s.dropMsg m.id).coreCount m.island m.core 8 1).answer { m with olds := olds } []

/-- `GETS` (R129, R140). A `.wait` load on unwritten words stays where it is (R83). -/
def execGets (id : Nat) (s : State) : Out :=
  match s.msg? id .gets with
  | none => .next s
  | some m => .next (
      if !s.ready m || s.unwrittenWait m then s else if s.getsFree m then s.grantGets m else s.enqueue m false)

/-- `GETX` (R129, R132 to R134, R140): an atomic that is to run near. Where its words are held by now it runs in place; an atomic of
plain mode makes no request. -/
def execGetx (id : Nat) (s : State) : Out :=
  match s.msg? id .getx with
  | none => .next s
  | some m => .next (
      if !s.ready m || m.arr.isSome then s
      else if s.mustFar m.island m.words then s.goFar m
      else if s.ownsAll m.island m.core m.ops then s.nearNow m
      else if m.solo then s.goFar m
      else if s.getxFree m then s.grantGetx m
      else (s.recallHolders m.island m.words).enqueue m false)

/-- A queued `GETX` is granted once the leases lapse, and at the head of the queue asks a later holder for its words (R129); in HOLD, or in a dual-home window, it becomes a far atomic at its place in
the queue (R132, R140). -/
def execQueuedGetxGrant (id : Nat) (s : State) : Out :=
  match s.msg? id .getx with
  | none => .next s
  | some m => .next (
      if m.arr.isNone || !s.ready m then s
      else if s.mustFar m.island m.words then
        let (m, _, s) := s.givePv m.toAtom
        (s.setMsg m).coreCount m.island m.core 9 1
      else if s.getxFree m then s.grantGetx m
      else if s.behind m then s else s.recallHolders m.island m.words)

/-- Operations that the core performs in place, on words that it holds EX or PV, and those that go to the slice (R128). -/
def State.splitOwned (s : State) (island core : Nat) (ops : List AtomOp) : List AtomOp × List AtomOp :=
  ops.partition fun o => (s.ownRec island core (wordsOf o.pa o.bytes)).isSome

/-- `SLICE_WRITE` (R129): what the core now holds EX or PV is written in place (R128), and the rest goes to the slice. -/
def execSliceWrite (id : Nat) (s : State) : Out :=
  match s.msg? id .write with
  | none => .next s
  | some m => .next (
      if !s.ready m || m.arr.isSome then s
      else
        let x := s.splitOwned m.island m.core m.ops
        let s := (s.runOwned m.island m.core false x.1).1
        if x.2.isEmpty then s.dropMsg id
        else
          let m := { m with ops := x.2, words := opWords x.2 }
          (s.setMsg m).toSlice m)

/-- `FAR_ATOM` (R129). -/
def execFarAtom (id : Nat) (s : State) : Out :=
  match s.msg? id .atom with
  | none => .next s
  | some m => .next (if s.ready m && m.arr.isNone then s.toSlice m else s)

/-- `QUEUED_WRITE_PERFORM` (R130): at the head of the queue the request asks a later holder for its words (R129). -/
def execQueuedWritePerform (id : Nat) (s : State) : Out :=
  match s.msgs.find? fun m => m.id == id && (m.kind == .write || m.kind == .atom || m.kind == .drain) with
  | none => .next s
  | some m =>
    .next (
      if m.arr.isNone || !s.ready m then s
      else if s.writeFree m then s.perform m
      else if s.behind m then s else s.recallHolders m.island m.words)

/-- `WBACK` (R129, R130): dirty words are written, in a dual-home window at both frames (R139), and a span given up has no holder. -/
def execWback (id : Nat) (s : State) : Out :=
  match s.msg? id .wback with
  | none => .next s
  | some m =>
    let ws := (m.cells.map fun c => c.1 / 4).eraseDups
    if s.ready m && s.tsFree m.island m.ptype ws && s.mirrorFree m.ptype ws then
      let s := { s with mem := Memory.writeCells s.mem m.cells }
      let s := s.modDir m.island ws fun d => { d with wts := s.itime m.island }
      let s := if m.solo then s.modDir m.island m.words fun d => { d with holder := if d.holder = some m.core then none else d.holder } else s
      .next ((((s.touch ws).l2Write m.island ws).mirrorNow ws).dropMsg id)
    else .next s

/-- `MIRROR_WRITE` (R139): the words as they stand at the old home are written to the new frame, where they take a timestamp (R130);
then the old home answers. -/
def execMirrorWrite (id : Nat) (s : State) : Out :=
  match s.msg? id .mirror with
  | none => .next s
  | some m =>
    if !s.mirrorFree m.ptype m.words then .next s
    else
      let s := s.mirrorNow m.words
      let r := { m with kind := if m.since = 0 then .wack else if m.since = 2 then .drain else .aack }
      .next (s.setMsg { r with after := s.respAfter r })

/-! ### The L1's side (R125, R128, R131, R133) -/

/-- `DATA` (R125): the words reach the lanes that asked, and those that may be kept enter a record, with a lease that still runs; on
ONCE and PRIV pages no lease is needed (R128). -/
def execDataMsg (id : Nat) (s : State) : Out :=
  match s.msg? id .data with
  | none => .next s
  | some m =>
    if !s.ready m then .next s
    else
      let s := s.dropMsg id
      let st : SpanState := if m.ptype = 2 then .ow else if m.ptype = 3 then .pv else .sh
      let r : SpanRec :=
        { id := id, island := m.island, core := m.core, words := m.keep, st := st, expiry := m.expiry, wts := m.ts
          ptype := m.ptype, data := cellsOf m.cells m.keep, dirty := [], torn := [], atomics := 0 }
      let s := if r.usable s then s.addSpan r else s
      .next (s.answer m m.cells)

/-- `XDATA` (R128): the span is held exclusive and the atomics that asked run in place; a lease that has already run out, or
that arrives in HOLD or in a dual-home window, is given back, and the atomics go far (R132, R139, R140; log 15). -/
def execXdata (id : Nat) (s : State) : Out :=
  match s.msg? id .xdata with
  | none => .next s
  | some m =>
    if !s.ready m then .next s
    else
      let r : SpanRec :=
        { id := id, island := m.island, core := m.core, words := m.words, st := .ex, expiry := m.expiry, wts := m.ts
          ptype := m.ptype, data := m.cells, dirty := [], torn := [], atomics := 0 }
      if r.usable s && !s.mustFar m.island m.words then .next ((s.addSpan r).nearNow m)
      else
        let (w, s) := s.sendWback r true
        .next ((s.setMsg { m.toAtom with after := w.toList }).coreCount m.island m.core 9 1)

/-- The copy of written words in the core's L1 takes the values the slice performed (R131); dirty bytes stay. -/
def State.updateCopy (s : State) (m : Msg) : State :=
  { s with spans := s.spans.map fun r =>
      if r.island == m.island && r.core == m.core && overlaps r.words m.words then
        let ws := m.words.filter fun w => r.words.contains w
        let bs := (bytesOfWords ws).filter fun a => !r.dirty.contains a
        { r with data := bs.foldl (fun x a => Memory.write x a (Memory.read m.cells a)) r.data, wts := max r.wts m.ts }
      else r }

/-- `DRAIN_ENTRY` (R129, R136): the entry is performed at its slice; once performed, the core's copy takes its values, and a barrier
that waits for it may complete. -/
def execDrainEntry (id : Nat) (s : State) : Out :=
  match s.msg? id .drain with
  | none => .next s
  | some m => .next (
      if !s.ready m then s
      else if m.acq then (((s.updateCopy m).dropMsg id).takeLate m.warp).barriers (s.warp m.warp).block
      else s.serveWrite m)

/-- `WACK` (R131). -/
def execWack (id : Nat) (s : State) : Out :=
  match s.msg? id .wack with
  | none => .next s
  | some m => .next (if s.ready m then (s.updateCopy m).dropMsg id else s)

/-- `AACK` (R129, R133). -/
def execAack (id : Nat) (s : State) : Out :=
  match s.msg? id .aack with
  | none => .next s
  | some m => .next (
      if !s.ready m then s
      else
        let s := (s.updateCopy m).dropMsg id
        let s := if m.solo then s.retrain m.island m.core m.words (· - 1) else s
        s.answer m [])

/-- `RECALL` (R128, R133). -/
def execRecall (id : Nat) (s : State) : Out :=
  match s.msg? id .recall with
  | none => .next s
  | some m =>
    if !s.ready m then .next s
    else
      let rs := s.spans.filter fun r =>
        r.island == m.island && r.core == m.core && r.st == .ex && overlaps r.words m.words
      .next (rs.foldl (fun s r =>
        let s := if r.atomics < 4 then s.retrain m.island m.core r.words (fun k => min 3 (k + 1)) else s
        s.discard r) (s.dropMsg id))

/-- `LEASE_LAPSE` of a span record (R127, R128, R133). -/
def execLeaseLapse (id : Nat) (s : State) : Out :=
  match s.spans.find? fun r => r.id == id with
  | none => .next s
  | some r =>
    if r.usable s then .next s
    else .next ((if r.st = .ex then s.retrain r.island r.core r.words (· - 1) else s).discard r)

/-! ### Mode and lease registers (R126, R134) -/

/-- Removes every predictor entry of an island (R133). -/
def State.clearPredictors (s : State) (island : Nat) : State :=
  { s with cores := s.cores.map fun p => if p.1 / 160 = island then (p.1, { p.2 with predictor := [] }) else p }

/-- A write of ISL_COHMODE.PLAIN (R134): entry into plain mode clears the predictors, and atomics issued in this core clock still take
the mode that stood at its start. -/
def State.setPlain (s : State) (island value : Nat) : State :=
  let old := s.reg .islCohmode island % 2
  let s := if value % 2 = 1 && old = 0 then s.clearPredictors island else s
  let s := if s.now.plain.any fun x => x.1 == island then s else { s with now := { s.now with plain := (island, old) :: s.now.plain } }
  s.setReg .islCohmode island (value % 2)

/-- `COHMODE_PLAIN_WRITE` (R133, R134). -/
def execCohmodePlainWrite (island value : Nat) (s : State) : Out := .next (s.setPlain island value)

/-- A write of 1 to PREDCLR (R134): every predictor entry of the island goes; the bit reads 1 in this core clock. -/
def State.predclr (s : State) (island : Nat) : State := (s.clearPredictors island).command .islCohmode island 1

/-- `PREDCLR` (R133, R134): the bit reads 0 again after one core clock. -/
def execPredclr (island : Nat) (s : State) : Out := .next (s.predclr island)

/-- `ISL_LEASE` (R126): a length outside 1 to 64 leaves its field. -/
def execIslLeaseWrite (island value : Nat) (s : State) : Out :=
  let v := (List.range 4).foldl (fun v k =>
    let x := bits value (8 * k + 6) (8 * k)
    if 1 ≤ x && x ≤ 64 then setBits v (8 * k + 6) (8 * k) x else v) (s.reg .islLease island)
  .next (s.setReg .islLease island v)

/-! ### Accesses of engines, the control die and packets: performed at the slices (R86, R122) -/

/-- Whether a message is the place in the queue that an engine's access took. -/
def Msg.samePlace (q m : Msg) : Bool :=
  q.kind == .engine && q.island == m.island && q.core == m.core && q.warp == m.warp && q.asker == m.asker && q.acq == m.acq &&
    q.solo == m.solo && q.words == m.words

/-- Takes a place in the slices' queue for an access that bypasses the L1s and must wait (R129): requests that come later stand behind
it. Places that nothing waits at are given up. -/
def State.takePlace (s : State) (place : Msg) : State :=
  if s.msgs.any fun q => q.samePlace place then s
  else
    let (k, s) := s.newId
    let lease := place.solo && place.ptype == 0 && place.words.any fun w => decide (s.itime place.island ≤ (s.dirWord place.island w).rts)
    { s with msgs := (s.msgs.filter s.alive) ++ [{ place with id := k, arr := some k, since := s.itime place.island, ts := if lease then 1 else 0 }] }

/-- The access goes ahead: its place is given up, and a SEQ write that has waited on a lease is counted (R223, R226). -/
def State.leavePlace (s : State) (place : Msg) : State :=
  match s.msgs.find? fun q => q.samePlace place with
  | none => s
  | some q =>
    let s := s.dropMsg q.id
    if q.ts = 1 then
      (s.islCount q.island 5 1).gaugeSee q.island 0x11 (homeSlice (4 * lowest q.words - hbmAddr q.island 0)) (some q.part)
        (s.itime q.island - q.since)
    else s

/-- Makes words free for an access that bypasses the L1s, `place` saying whose it is, on which words, and with `solo` that it writes: EX
holders are recalled, PV words of every core written back. Answers whether the access may be made now; where it may not, and no word
is of a ONCE page, it takes its place in the queue. A write to ONCE words waits for those on their way (R83). -/
def State.clearFor (s : State) (place : Msg) (once : Bool) : Bool × State :=
  let island := place.island
  let ws := place.words
  let s := s.recallHolders island ws
  let pvs := s.spans.filter fun r => r.island == island && r.st == .pv && overlaps r.words ws &&
    (place.solo || overlaps (r.dirty.map (· / 4)) ws)
  let s := pvs.foldl State.discard s
  let here := (s.msgs.find? fun q => q.samePlace place).getD place
  let busy := s.msgs.any fun m => m.island == island && overlaps m.words ws &&
    (m.kind == .wback || s.before m here || (once && place.solo && m.kind == .write && m.ptype == 2))
  if !s.now.relocked.contains island && (s.holders island ws).isEmpty && !busy &&
      (!place.solo || (s.tsFree island place.ptype ws && s.mirrorFree place.ptype ws)) then
    (true, s.leavePlace place)
  else (false, if once then s else s.takePlace place)

/-- A write that bypasses the L1s, once its words are free; in a dual-home window it is mirrored before it is acknowledged (R139). Data
of a PRIV page on its way to an L1 is not kept where it names the words (R85). An atomic of such an agent is none of a core's (R133). -/
def State.writeThrough (s : State) (island : Nat) (atomic : Bool) (cells : List Host.Cell) : State :=
  let ws := (cells.map fun c => c.1 / 4).eraseDups
  let s := { s with
    mem := Memory.writeCells s.mem cells
    msgs := s.msgs.map fun (m : Msg) => if m.kind == MsgKind.data && m.ptype == 3 && m.island == island && overlaps m.keep ws then
      { m with keep := m.keep.filter fun w => !ws.contains w } else m }
  (((s.modDir island ws fun d => { d with wts := s.itime island, lastAtom := if atomic then none else d.lastAtom }).touch ws).l2Write
    island ws).mirrorNow ws

end Sys2Proof.Machine
end

