-- ==== Sys2Proof/Machine/Usages.lean ====
section
/-!
DEFINITION. The usage of every Umavi instruction (R268 to R372), one row per constructor: what the meanings check at issue
and what WellFormed refers to.
-/
namespace Sys2Proof.Machine

/-- The usage of a Umavi instruction; none for a word with an unassigned opcode, gauge instructions and events. -/
def usageOf : Instr → Option Usage
  | .iadd w => some (useV3 w (tyWide ++ tyNarrow) true true true [0])
  | .isub w => some (useV3 w (tyWide ++ tyNarrow) true true true [0])
  | .imul w => some (useV3 w (tyWide ++ tyNarrow) true true true [0])
  | .imulh w => some (useV3 w tyWide true false false [0])
  | .imad w => some (useImad w)
  | .iaddi w => some (useVI w [0, 1, 2, 3] (regsOf3 w.type3.toNat))
  | .imuli w => some (useVI w [0, 1, 2, 3] (regsOf3 w.type3.toNat))
  | .idiv w => some (useV3 w tyWide true false false [0])
  | .irem w => some (useV3 w tyWide true false false [0])
  | .imin w => some (useV3 w (tyWide ++ tyNarrow) true false true [0])
  | .imax w => some (useV3 w (tyWide ++ tyNarrow) true false true [0])
  | .iabs w => some (useV3 w (tyWide ++ tyNarrow) false true true [0])
  | .ineg w => some (useV3 w (tyWide ++ tyNarrow) false true true [0])
  | .idot4 w => some (useIdot4 w)
  | .and w => some (useV3 w tyBits true false false [0])
  | .or w => some (useV3 w tyBits true false false [0])
  | .xor w => some (useV3 w tyBits true false false [0])
  | .not w => some (useV3 w tyBits false false false [0])
  | .andi w => some (useVI w [2, 3, 6] (regsOf3 w.type3.toNat))
  | .ori w => some (useVI w [2, 3, 6] (regsOf3 w.type3.toNat))
  | .xori w => some (useVI w [2, 3, 6] (regsOf3 w.type3.toNat))
  | .lut3 w => some (useLut3 w)
  | .shl w => some (useShift w [0])
  | .shr w => some (useShift w [0])
  | .sra w => some (useShift w [0])
  | .extr w => some (useExtr w)
  | .bfx w => some (useShift w [0, 1])
  | .bfi w => some (useBfi w)
  | .brev w => some (useV3 w tyBits false false false [0])
  | .popc w => some (useCount w)
  | .clz w => some (useCount w)
  | .ctz w => some (useCount w)
  | .icmp w => some (useIcmp w)
  | .icmpi w => some (useIcmpi w)
  | .sel w => some (useSel w)
  | .plop w => some (usePlop w)
  | .mov w => some (useMov w)
  | .movi w => some (useMovi w)
  | .movw w => some (useMovw w)
  | .icvt w => some (useIcvt w)
  | .lea w => some (useLea w)
  | .brec w => some (useBrec w)
  | .bget w => some (useBget w)
  | .sadd w => some (useSY w)
  | .ssub w => some (useSY w)
  | .smul w => some (useSY w)
  | .sand w => some (useSY w)
  | .sor w => some (useSY w)
  | .sxor w => some (useSY w)
  | .sshl w => some (useSY w)
  | .sshr w => some (useSY w)
  | .ssra w => some (useSY w)
  | .smin w => some (useSminmax w)
  | .smax w => some (useSminmax w)
  | .scmp w => some (useScmp w)
  | .smov w => some (useSmov w)
  | .ssel w => some (useSsel w)
  | .qlop w => some (useQlop w)
  | .fadd w => some (useF w tyF true true true true [0])
  | .fsub w => some (useF w tyF true true true true [0])
  | .fmul w => some (useF w tyF true true true true [0])
  | .ffma w => some (useFfma w)
  | .fmin w => some (useF w tyF true false false true [0])
  | .fmax w => some (useF w tyF true false false true [0])
  | .fabs w => some (useF w tyF false false false true [0])
  | .fneg w => some (useF w tyF false false false true [0])
  | .fdiv w => some (useF w tyF true true true true [0])
  | .fsqrt w => some (useF w tyF false true true true [0])
  | .frsqrt w => some (useF w tyF false true true true [0])
  | .frcp w => some (useF w tyF false true true true [0])
  | .fcmp w => some (useFcmp w)
  | .fclass w => some (useFclass w)
  | .faddi w => some (useFI w)
  | .fmuli w => some (useFI w)
  | .fdot2 w => some (useFdot w [6, 7])
  | .fdot4 w => some (useFdot w [8, 9])
  | .fround w => some (useF w tyF false true false true [0])
  | .fcvt w => some (useFcvt w)
  | .f2i w => some (useF2i w)
  | .i2f w => some (useI2f w)
  | .fpack w => some (useFpack w)
  | .funpack w => some (useFunpack w)
  | .fscale w => some (useFscale w)
  | .fexp2 w => some (useF w [4, 6, 7] false true true true [0])
  | .flog2 w => some (useF w [4, 6, 7] false true true true [0])
  | .fsin w => some (useF w [4, 6, 7] false true true true [0])
  | .fcos w => some (useF w [4, 6, 7] false true true true [0])
  | .ftanh w => some (useF w [4, 6, 7] false true true true [0])
  | .fsigm w => some (useF w [4, 6, 7] false true true true [0])
  | .fsgn w => some (useFsgn w)
  | .ffrac w => some (useF w tyF false true false true [0])
  | .fmxsc w => some (useFmxsc w)
  | .shfl w => some (useShfl w)
  | .vote w => some (useVote w true [0, 1, 2])
  | .ballot w => some (useVote w false [0])
  | .matchLanes w => some (useMatch w)
  | .qswap w => some (useQuad w [0, 1, 2])
  | .qbcast w => some (useQuad w [0, 1, 2, 3])
  | .wred w => some (useWred w false)
  | .wscan w => some (useWred w true)
  | .tilew w => some (useTilew w)
  | .rdlane w => some (useRdlane w)
  | .wrlane w => some (useWrlane w)
  | .grpmask w => some (useGrpmask w)
  | .ldg w => some (useLoad w true)
  | .ldgWait w => some (useLoad w true)
  | .stg w => some (useStore w true)
  | .ldl w => some (useLoad w false)
  | .stl w => some (useStore w false)
  | .lds w => some (useLoad w false)
  | .sts w => some (useStore w false)
  | .ldc w => some (useLoad w false)
  | .stc w => some (useStore w false)
  | .ldbm w => some (useLoad w false)
  | .stbm w => some (useStore w false)
  | .atom w => some (useAtom w true false false)
  | .atoms w => some (useAtom w false false false)
  | .atomc w => some (useAtom w false false false)
  | .sldg w => some (useSldg w)
  | .red w => some (useAtom w true true false)
  | .redOrd w => some (useAtom w true true true)
  | .redflush w => some (useUnguarded w)
  | .fence w => some (useFence w)
  | .fenceLanes w => some (useUnguarded w)
  | .fenceFetch w => some (useUnguarded w)
  | .wb w => some (useCache w)
  | .inv w => some (useCache w)
  | .bar w => some (useBar w)
  | .ldrec w => some (useLdrec w)
  | .pref w => some (useCache w)
  | .br w => some (useB w)
  | .brm w => some (useBrm w)
  | .call w => some (useB w)
  | .callr w => some (useJmpr w)
  | .fcall w => some (useFcall w)
  | .ret w => some (usePlain w)
  | .jmpr w => some (useJmpr w)
  | .exit w => some (usePlain w)
  | .nop w => some (usePlain w)
  | .brq w => some (useB w)
  | .wbload w => some (useWbload w)
  | .mloop w => some (useMloop w false)
  | .mloopc w => some (useMloop w true)
  | .accrd w => some (useAccrd w)
  | .accwr w => some (useAccwr w)
  | .acczero w => some (useAcczero w)
  | .wbzero w => some (useWbzero w)
  | .put w => some (usePut w)
  | .get w => some (useGet w)
  | .ratom w => some (useRatom w)
  | .arm w => some (useArm w)
  | .waitarr w => some (useWaitarr w)
  | .notify w => some (useNotify w)
  | .garm w => some (useGarm w)
  | .gset w => some (useGset w)
  | .xfill w => some (useXfill w)
  | .ovld w => some (useOvld w)
  | .onceinit w => some (useOnceinit w)
  | .launch w => some (useLaunch w)
  | .keymap w => some (useKeymap w)
  | .srd w => some (useSrd w)
  | .swr w => some (useSwr w)
  | .trap w => some (useTrap w)
  | .sleep w => some (useTrap w)
  | .sysrd w => some (useSysrd w)
  | .syswr w => some (useSyswr w)
  | .gmark w => some (useTrap w)
  | .unassignedOpcode _ => none
  | .warpIssueSelect _ _ _ => none
  | .warpOwed _ => none
  | .spinFloorFall _ => none
  | .spinFloorTimeout _ => none
  | .loadReturn _ => none
  | .divideReturn _ => none
  | .specialFunctionReturn _ => none
  | .accrdReturn _ => none
  | .keymapReturn _ => none
  | .ldrecComplete _ => none
  | .onceWaitTimeout _ => none
  | .sleepWake _ _ => none
  | .waitarrRelease _ => none
  | .engineCommandStart _ _ => none
  | .matrixKStep _ => none
  | .engineCommandEnd _ => none
  | .engineLineRetry _ => none
  | .warpRetire _ => none
  | .blockRetire _ => none
  | .gridEnd _ => none
  | .blockPlacement _ => none
  | .reservationTimeout _ => none
  | .lkpQtailWrite _ _ => none
  | .lkpQbaseWrite _ _ => none
  | .lkpQctlWrite _ _ => none
  | .recordRelease => none
  | .launchRecordArrival _ => none
  | .gridPreempt _ => none
  | .gridResume _ => none
  | .gridEndRequest _ => none
  | .blockHalt _ => none
  | .contextRestore _ => none
  | .accessReplay _ _ => none
  | .replayAsid _ _ => none
  | .replayAll _ => none
  | .faultRecordPost _ => none
  | .islFqheadWrite _ _ => none
  | .islFqbaseWrite _ _ => none
  | .gets _ => none
  | .getx _ => none
  | .sliceWrite _ => none
  | .farAtom _ => none
  | .wback _ => none
  | .queuedWritePerform _ => none
  | .drainEntry _ => none
  | .recall _ => none
  | .dataMsg _ => none
  | .xdata _ => none
  | .wack _ => none
  | .aack _ => none
  | .leaseLapse _ => none
  | .mirrorWrite _ => none
  | .mapkCopy _ _ => none
  | .switchMessage _ => none
  | .cohmodePlainWrite _ _ => none
  | .predclr _ => none
  | .islLeaseWrite _ _ => none
  | .coreDrainWrite _ _ _ => none
  | .mapkRqtailWrite _ _ _ => none
  | .mapkRqbaseWrite _ _ _ => none
  | .map _ _ => none
  | .unmap _ _ => none
  | .protect _ _ => none
  | .chtype _ _ => none
  | .migrate _ _ => none
  | .asidget _ _ => none
  | .asidput _ _ => none
  | .transitTimeout _ => none
  | .routerForward _ => none
  | .packetSend _ => none
  | .allowanceReturn _ _ _ _ => none
  | .flitAcknowledge _ _ _ => none
  | .codewordError _ _ => none
  | .replayRequest _ _ _ => none
  | .replayLimit _ _ => none
  | .sourceFailure _ _ _ => none
  | .wavelengthChangeRequest _ _ => none
  | .wavelengthChangeAck _ _ => none
  | .wavelengthChangeComplete _ _ => none
  | .drain _ _ => none
  | .dark _ _ => none
  | .relock _ _ => none
  | .clrerr _ _ => none
  | .drainMarkerAck _ _ => none
  | .darkmaxExpiry _ _ => none
  | .lightLoss _ _ => none
  | .portTrained _ _ _ _ _ => none
  | .relockTimeout _ _ => none
  | .putPacketAtTarget _ => none
  | .getRequestAtTarget _ => none
  | .ratomAtTarget _ => none
  | .sourceCounterAdvance _ => none
  | .getDataReturn _ => none
  | .ratomResultReturn _ => none
  | .errorNotice _ => none
  | .retryNotice _ => none
  | .retryResend _ => none
  | .notifyAddition _ => none
  | .islNctrWrite _ _ _ => none
  | .rankEntryWrite _ _ _ _ => none
  | .referenceLoss _ => none
  | .reroot => none
  | .islandRelock _ => none
  | .itimeCatchUp _ => none
  | .lkpTstageGo _ => none
  | .tableVerify _ => none
  | .tableAnswer => none
  | .tableCommit => none
  | .budgetPeriodBoundary _ => none
  | .partBudWrite _ _ _ => none
  | .partCfgWrite _ _ => none
  | .partSliceWrite _ _ _ => none
  | .partShareWrite _ _ _ => none
  | .partToffWrite _ _ => none
  | .partPresWrite _ _ _ _ => none
  | .attestationRequest _ => none
  | .attestationReport => none
  | .imageKeyEnrol _ _ => none
  | .imageKeyLock => none
  | .gaugeEvent _ _ _ _ _ => none
  | .gaugeRunStart _ => none
  | .gaugeRunEnd _ => none
  | .tgpAttEnable _ _ _ => none
  | .tgpAttVerifyEnd _ _ => none
  | .tgpAttDisable _ _ _ => none
  | .ipendClear _ _ => none
  | .tgpGwinWrite _ _ _ => none
  | .tgpBudWrite _ _ _ => none
  | .gaugeBudgetPeriod _ => none
  | .gaugeDone => none
  | .gaugeMov _ _ => none
  | .gaugeLi _ _ => none
  | .gaugeAdd _ _ _ => none
  | .gaugeSub _ _ _ => none
  | .gaugeAnd _ _ _ => none
  | .gaugeOr _ _ _ => none
  | .gaugeXor _ _ _ => none
  | .gaugeAddi _ _ _ => none
  | .gaugeShl _ _ _ => none
  | .gaugeShr _ _ _ => none
  | .gaugeMin _ _ _ => none
  | .gaugeClz _ _ => none
  | .gaugeHash _ _ _ => none
  | .gaugeLd _ _ _ => none
  | .gaugeSt _ _ _ => none
  | .gaugeAcc _ _ _ => none
  | .histLin _ _ _ _ => none
  | .histLog _ _ _ _ => none
  | .gaugeCms _ _ _ => none
  | .gaugeCmq _ _ _ _ => none
  | .gaugeBz _ _ => none
  | .gaugeBnz _ _ => none
  | .gaugeBltu _ _ _ => none
  | .gaugeNtfy _ _ => none
  | .gaugeIrq _ => none
  | .gaugeTrc _ _ => none
  | .gaugeFrz => none
  | .powerOn => none
  | .startWarm => none
  | .startCold => none
  | .stage0 _ => none
  | .stage1 => none
  | .stage2 _ => none
  | .stage3 => none
  | .firmwareRecovery _ => none
  | .powerControlAction _ _ _ => none
  | .hbmUncorrectable _ _ => none
  | .coreSoftError _ _ _ => none
  | .laserAgeingRefresh _ _ _ _ _ => none
  | .replaceRequestClear => none
  | .registerWrite _ _ _ => none
  | .belyelImageLoad _ _ => none
  | .gaugeMemoryWrite _ _ _ => none
  | .drainMarker _ _ => none
  | .queuedGetxGrant _ => none

end Sys2Proof.Machine
end

