-- ==== Sys2Proof/WellFormed.lean ====
section
/-!
DEFINITION. Well-formed instructions: a Umavi word whose fields are legal (R243 to R256), a gauge word within its limits
(R229, R232), and an event whose subject's numbers lie in the ranges the spec gives them.
-/
namespace Sys2Proof

/-- Whether a Umavi opcode is assigned (R255): 0xFF is the header word (R241). -/
def opcodeAssigned (op : Nat) : Bool :=
  (op ≤ 0x3E && ! [0x07, 0x0E, 0x22, 0x2E, 0x2F].contains op) || (0x40 ≤ op && op ≤ 0x61) || (0x80 ≤ op && op ≤ 0x8B) ||
    (0xA0 ≤ op && op ≤ 0xB9 && op != 0xAE) || (0xC0 ≤ op && op ≤ 0xC9) || (0xD0 ≤ op && op ≤ 0xD6) ||
    (0xE0 ≤ op && op ≤ 0xEC) || (0xF0 ≤ op && op ≤ 0xF7) || op == 0xFF

/-- The limits of a gauge instruction's immediate (R229, R232). -/
def gaugeLimits : Instr → Bool
  | .gaugeCms _ _ w => 4 ≤ w.toNat && w.toNat ≤ 12
  | .gaugeCmq _ _ _ w => 4 ≤ w.toNat && w.toNat ≤ 12
  | .gaugeBz _ i => 1 ≤ i.toNat && i.toNat ≤ 63
  | .gaugeBnz _ i => 1 ≤ i.toNat && i.toNat ≤ 63
  | .gaugeBltu _ _ i => 1 ≤ i.toNat && i.toNat ≤ 63
  | .gaugeNtfy _ i => i != 0
  | _ => true

/-- The ranges of an event's subject. -/
def eventRanges : Instr → Bool
  | .warpIssueSelect island core pipe => decide (island < 24) && decide (core < 160) && decide (pipe < 4)
  | .sleepWake _ lane => decide (lane < 32)
  | .engineCommandStart _ queue => decide (queue < 3)
  | .gridEnd grid => decide (grid < 2 ^ 16)
  | .blockPlacement island => decide (island < 24)
  | .reservationTimeout island => decide (island < 24)
  | .lkpQtailWrite queue value => decide (queue < 64) && decide (value < 2 ^ 64)
  | .lkpQbaseWrite queue value => decide (queue < 64) && decide (value < 2 ^ 64)
  | .lkpQctlWrite queue value => decide (queue < 64) && decide (value < 2 ^ 64)
  | .launchRecordArrival grid => decide (grid < 2 ^ 16)
  | .gridPreempt grid => decide (grid < 2 ^ 16)
  | .gridResume grid => decide (grid < 2 ^ 16)
  | .gridEndRequest grid => decide (grid < 2 ^ 16)
  | .replayAsid island asid => decide (island < 24) && decide (asid < 4096)
  | .replayAll island => decide (island < 24)
  | .faultRecordPost island => decide (island < 24)
  | .islFqheadWrite island value => decide (island < 24) && decide (value < 2 ^ 64)
  | .islFqbaseWrite island value => decide (island < 24) && decide (value < 2 ^ 64)
  | .cohmodePlainWrite island value => decide (island < 24) && decide (value < 2 ^ 64)
  | .predclr island => decide (island < 24)
  | .islLeaseWrite island value => decide (island < 24) && decide (value < 2 ^ 64)
  | .coreDrainWrite island core value => decide (island < 24) && decide (core < 160) && decide (value < 2 ^ 64)
  | .mapkRqtailWrite part island value => decide (part < 128) && decide (island < 24) && decide (value < 2 ^ 64)
  | .mapkRqbaseWrite part island value => decide (part < 128) && decide (island < 24) && decide (value < 2 ^ 64)
  | .map part island => decide (part < 128) && decide (island < 24)
  | .unmap part island => decide (part < 128) && decide (island < 24)
  | .protect part island => decide (part < 128) && decide (island < 24)
  | .chtype part island => decide (part < 128) && decide (island < 24)
  | .migrate part island => decide (part < 128) && decide (island < 24)
  | .asidget part island => decide (part < 128) && decide (island < 24)
  | .asidput part island => decide (part < 128) && decide (island < 24)
  | .routerForward (.entering o) => decide (o.payload.length ≤ 256) && (o.kind == 3 || decide (o.len ≤ 256))
  | .allowanceReturn node port cls _ => decide (node ≤ 24) && decide (port < 12) && decide (cls < 2)
  | .flitAcknowledge node port _ => decide (node ≤ 24) && decide (port < 12)
  | .codewordError node x => decide (node ≤ 24) && decide (x.port < 12) && decide (x.kind < 3) && decide (x.seq < 4096)
  | .replayRequest node port seq => decide (node ≤ 24) && decide (port < 12) && decide (seq < 4096)
  | .replayLimit node port => decide (node ≤ 24) && decide (port < 12)
  | .sourceFailure node port x => decide (node ≤ 24) && decide (port < 12) && decide (x.source < 9)
  | .wavelengthChangeRequest node port => decide (node ≤ 24) && decide (port < 12)
  | .wavelengthChangeAck node port => decide (node ≤ 24) && decide (port < 12)
  | .wavelengthChangeComplete node port => decide (node ≤ 24) && decide (port < 12)
  | .drain node port => decide (node ≤ 24) && decide (port < 12)
  | .dark node port => decide (node ≤ 24) && decide (port < 12)
  | .relock node port => decide (node ≤ 24) && decide (port < 12)
  | .clrerr node port => decide (node ≤ 24) && decide (port < 12)
  | .drainMarkerAck node port => decide (node ≤ 24) && decide (port < 12)
  | .darkmaxExpiry node port => decide (node ≤ 24) && decide (port < 12)
  | .lightLoss node port => decide (node ≤ 24) && decide (port < 12)
  | .portTrained node port farNode farPort _ => decide (node ≤ 24) && decide (port < 12) && decide (farNode ≤ 24) && decide (farPort < 12)
  | .relockTimeout node port => decide (node ≤ 24) && decide (port < 12)
  | .islNctrWrite island counter value => decide (island < 24) && decide (counter < 4096) && decide (value < 2 ^ 64)
  | .rankEntryWrite _ island _ value => decide (island ≤ 24) && decide (value < 2 ^ 64)
  | .referenceLoss x => decide (x.island ≤ 24) && decide (x.side < 3)
  | .islandRelock island => decide (island ≤ 24)
  | .itimeCatchUp island => decide (island < 24)
  | .lkpTstageGo value => decide (value < 2 ^ 64)
  | .tableVerify x => decide (x.node ≤ 24)
  | .budgetPeriodBoundary island => decide (island < 24)
  | .partBudWrite part island value => decide (part < 128) && decide (island < 24) && decide (value < 2 ^ 64)
  | .partCfgWrite part value => decide (part < 128) && decide (value < 2 ^ 64)
  | .partSliceWrite part island value => decide (part < 128) && decide (island < 24) && decide (value < 2 ^ 64)
  | .partShareWrite part island value => decide (part < 128) && decide (island < 24) && decide (value < 2 ^ 64)
  | .partToffWrite part value => decide (part < 128) && decide (value < 2 ^ 64)
  | .partPresWrite part island presented value => decide (part < 128) && decide (island ≤ 24) && decide (presented < 256) && decide (value < 2 ^ 64)
  | .attestationRequest part => decide (part < 128)
  | .imageKeyEnrol slot key => decide (slot < 8) && decide (key < 2 ^ 768)
  | .gaugeEvent gauge code unit _ payload => decide (gauge ≤ 24) && decide (code < 256) && decide (unit < 256) && decide (payload < 2 ^ 64)
  | .gaugeRunStart gauge => decide (gauge ≤ 24)
  | .gaugeRunEnd gauge => decide (gauge ≤ 24)
  | .tgpAttEnable gauge att value => decide (gauge ≤ 24) && decide (att < 16) && decide (value < 2 ^ 64)
  | .tgpAttVerifyEnd gauge att => decide (gauge ≤ 24) && decide (att < 16)
  | .tgpAttDisable gauge att value => decide (gauge ≤ 24) && decide (att < 16) && decide (value < 2 ^ 64)
  | .ipendClear gauge att => decide (gauge ≤ 24) && decide (att < 16)
  | .tgpGwinWrite gauge part value => decide (gauge ≤ 24) && decide (part < 128) && decide (value < 2 ^ 64)
  | .tgpBudWrite gauge part value => decide (gauge ≤ 24) && decide (part < 128) && decide (value < 2 ^ 64)
  | .gaugeBudgetPeriod gauge => decide (gauge ≤ 24)
  | .powerControlAction island _ _ => decide (island < 24)
  | .hbmUncorrectable island error => decide (island < 24) && decide (error.address < 2 ^ 48)
  | .coreSoftError island core _ => decide (island < 24) && decide (core < 160)
  | .laserAgeingRefresh node port source lasa lasb => decide (node ≤ 24) && decide (port < 12) && decide (source < 9) && decide (lasa < 2 ^ 64) && decide (lasb < 2 ^ 64)
  | .registerWrite _ _ value => decide (value < 2 ^ 64)
  | .belyelImageLoad x _ => decide (x.part < 128) && decide (x.island < 24) && decide (x.asid < 4096) && decide (x.job < 2 ^ 16)
  | .gaugeMemoryWrite x address _ => decide (x.part < 128) && decide (x.gauge ≤ 24) && decide (address < 2 ^ 19)
  | .drainMarker node port => decide (node ≤ 24) && decide (port < 12)
  | _ => true

/-- Well-formedness as a test. -/
def Instr.wellFormed (i : Instr) : Bool :=
  match i with
  | .unassignedOpcode x => !opcodeAssigned (x.toNat / 2 ^ 56)
  | i =>
    match Machine.usageOf i with
    | some u => u.ok && u.fieldsOk
    | none => gaugeLimits i && eventRanges i

/-- A well-formed instruction. -/
def Instr.WellFormed (i : Instr) : Prop := i.wellFormed = true

end Sys2Proof
end

