-- ==== Sys2Proof/Decode.lean ====
section
/-!
DEFINITION. The decoder of Umavi words (R240 to R255) and of gauge words (R232), total on any bytes and rejecting by
name, and the encoder written from the same tables. `decodeTableWord` reads a row's bits as opcode_table.json numbers them.
-/
namespace Sys2Proof

/-- n bits of a 64-bit word from bit lo (R3). -/
def fieldN (x : BitVec 64) (lo n : Nat) : BitVec n := BitVec.ofNat n (x.toNat / 2 ^ lo)

/-- The first word of V3 (R245 to R253). -/
def WordV3.pack (op : Nat) (w : WordV3) : BitVec 64 :=
  BitVec.ofNat 64 (op * 2 ^ 56 + w.guard.toNat * 2 ^ 52 + w.dst.toNat * 2 ^ 41 + w.sa.toNat * 2 ^ 30 + w.sb.toNat * 2 ^ 19 + w.ctla.toNat * 2 ^ 16 + w.ctlb.toNat * 2 ^ 13 + w.ty.toNat * 2 ^ 9 + w.md.toNat * 2 ^ 0)

/-- The fields of V3. -/
def WordV3.unpack (x : BitVec 64) : WordV3 where
  guard := fieldN x 52 4
  dst := fieldN x 41 11
  sa := fieldN x 30 11
  sb := fieldN x 19 11
  ctla := fieldN x 16 3
  ctlb := fieldN x 13 3
  ty := fieldN x 9 4
  md := fieldN x 0 9

/-- The first word of VI (R245 to R253). -/
def WordVI.pack (op : Nat) (w : WordVI) : BitVec 64 :=
  BitVec.ofNat 64 (op * 2 ^ 56 + w.guard.toNat * 2 ^ 52 + w.dst.toNat * 2 ^ 41 + w.sa.toNat * 2 ^ 30 + w.ctla.toNat * 2 ^ 27 + w.type3.toNat * 2 ^ 24 + w.imm24.toNat * 2 ^ 0)

/-- The fields of VI. -/
def WordVI.unpack (x : BitVec 64) : WordVI where
  guard := fieldN x 52 4
  dst := fieldN x 41 11
  sa := fieldN x 30 11
  ctla := fieldN x 27 3
  type3 := fieldN x 24 3
  imm24 := fieldN x 0 24

/-- The first word of V4 (R245 to R253). -/
def WordV4.pack (op : Nat) (w : WordV4) : BitVec 64 :=
  BitVec.ofNat 64 (op * 2 ^ 56 + w.guard.toNat * 2 ^ 52 + w.dst.toNat * 2 ^ 41 + w.sa.toNat * 2 ^ 30 + w.sb.toNat * 2 ^ 19 + w.ctla.toNat * 2 ^ 16 + w.ctlb.toNat * 2 ^ 13 + w.ty.toNat * 2 ^ 9 + w.md.toNat * 2 ^ 0)

/-- The second word of V4. -/
def WordV4.pack2 (w : WordV4) : BitVec 64 :=
  BitVec.ofNat 64 (w.sc.toNat * 2 ^ 53 + w.ctlc.toNat * 2 ^ 50 + w.xmod.toNat * 2 ^ 32 + w.imm32.toNat * 2 ^ 0)

/-- The fields of V4. -/
def WordV4.unpack (x y : BitVec 64) : WordV4 where
  guard := fieldN x 52 4
  dst := fieldN x 41 11
  sa := fieldN x 30 11
  sb := fieldN x 19 11
  ctla := fieldN x 16 3
  ctlb := fieldN x 13 3
  ty := fieldN x 9 4
  md := fieldN x 0 9
  sc := fieldN y 53 11
  ctlc := fieldN y 50 3
  xmod := fieldN y 32 18
  imm32 := fieldN y 0 32

/-- The first word of M (R245 to R253). -/
def WordM.pack (op : Nat) (w : WordM) : BitVec 64 :=
  BitVec.ofNat 64 (op * 2 ^ 56 + w.guard.toNat * 2 ^ 52 + w.data.toNat * 2 ^ 41 + w.brec.toNat * 2 ^ 36 + w.index.toNat * 2 ^ 25 + w.ctl.toNat * 2 ^ 22 + w.size.toNat * 2 ^ 19 + w.order.toNat * 2 ^ 16 + w.scope.toNat * 2 ^ 14 + w.ofs.toNat * 2 ^ 0)

/-- The fields of M. -/
def WordM.unpack (x : BitVec 64) : WordM where
  guard := fieldN x 52 4
  data := fieldN x 41 11
  brec := fieldN x 36 5
  index := fieldN x 25 11
  ctl := fieldN x 22 3
  size := fieldN x 19 3
  order := fieldN x 16 3
  scope := fieldN x 14 2
  ofs := fieldN x 0 14

/-- The first word of MA (R245 to R253). -/
def WordMA.pack (op : Nat) (w : WordMA) : BitVec 64 :=
  BitVec.ofNat 64 (op * 2 ^ 56 + w.guard.toNat * 2 ^ 52 + w.data.toNat * 2 ^ 41 + w.brec.toNat * 2 ^ 36 + w.index.toNat * 2 ^ 25 + w.ctl.toNat * 2 ^ 22 + w.size.toNat * 2 ^ 19 + w.order.toNat * 2 ^ 16 + w.scope.toNat * 2 ^ 14 + w.ofs.toNat * 2 ^ 0)

/-- The second word of MA. -/
def WordMA.pack2 (w : WordMA) : BitVec 64 :=
  BitVec.ofNat 64 (w.aop.toNat * 2 ^ 59 + w.atype.toNat * 2 ^ 55 + w.arnd.toNat * 2 ^ 52 + w.res.toNat * 2 ^ 41 + w.ret.toNat * 2 ^ 40 + w.ctlr.toNat * 2 ^ 37 + w.cmp.toNat * 2 ^ 26 + w.rsv.toNat * 2 ^ 0)

/-- The fields of MA. -/
def WordMA.unpack (x y : BitVec 64) : WordMA where
  guard := fieldN x 52 4
  data := fieldN x 41 11
  brec := fieldN x 36 5
  index := fieldN x 25 11
  ctl := fieldN x 22 3
  size := fieldN x 19 3
  order := fieldN x 16 3
  scope := fieldN x 14 2
  ofs := fieldN x 0 14
  aop := fieldN y 59 5
  atype := fieldN y 55 4
  arnd := fieldN y 52 3
  res := fieldN y 41 11
  ret := fieldN y 40 1
  ctlr := fieldN y 37 3
  cmp := fieldN y 26 11
  rsv := fieldN y 0 26

/-- The first word of S (R245 to R253). -/
def WordS.pack (op : Nat) (w : WordS) : BitVec 64 :=
  BitVec.ofNat 64 (op * 2 ^ 56 + w.guard.toNat * 2 ^ 52 + w.sd.toNat * 2 ^ 46 + w.sa.toNat * 2 ^ 40 + w.sb.toNat * 2 ^ 34 + w.im.toNat * 2 ^ 32 + w.imm32.toNat * 2 ^ 0)

/-- The fields of S. -/
def WordS.unpack (x : BitVec 64) : WordS where
  guard := fieldN x 52 4
  sd := fieldN x 46 6
  sa := fieldN x 40 6
  sb := fieldN x 34 6
  im := fieldN x 32 2
  imm32 := fieldN x 0 32

/-- The first word of E (R245 to R253). -/
def WordE.pack (op : Nat) (w : WordE) : BitVec 64 :=
  BitVec.ofNat 64 (op * 2 ^ 56 + w.gslot.toNat * 2 ^ 52 + w.ge.toNat * 2 ^ 51 + w.xf.toNat * 2 ^ 50 + w.s1.toNat * 2 ^ 44 + w.s2.toNat * 2 ^ 38 + w.s3.toNat * 2 ^ 32 + w.s4.toNat * 2 ^ 26 + w.s5.toNat * 2 ^ 20 + w.ext.toNat * 2 ^ 0)

/-- The second word of E. -/
def WordE.pack2 (w : WordE) : BitVec 64 :=
  BitVec.ofNat 64 (w.imm64.toNat * 2 ^ 0)

/-- The fields of E. -/
def WordE.unpack (x y : BitVec 64) : WordE where
  gslot := fieldN x 52 4
  ge := fieldN x 51 1
  xf := fieldN x 50 1
  s1 := fieldN x 44 6
  s2 := fieldN x 38 6
  s3 := fieldN x 32 6
  s4 := fieldN x 26 6
  s5 := fieldN x 20 6
  ext := fieldN x 0 20
  imm64 := fieldN y 0 64

/-- The first word of B (R245 to R253). -/
def WordB.pack (op : Nat) (w : WordB) : BitVec 64 :=
  BitVec.ofNat 64 (op * 2 ^ 56 + w.guard.toNat * 2 ^ 52 + w.ofs20.toNat * 2 ^ 32 + w.ovl.toNat * 2 ^ 16 + w.rsv.toNat * 2 ^ 0)

/-- The fields of B. -/
def WordB.unpack (x : BitVec 64) : WordB where
  guard := fieldN x 52 4
  ofs20 := fieldN x 32 20
  ovl := fieldN x 16 16
  rsv := fieldN x 0 16

/-- The first word of BM (R245 to R253). -/
def WordBM.pack (op : Nat) (w : WordBM) : BitVec 64 :=
  BitVec.ofNat 64 (op * 2 ^ 56 + w.guard.toNat * 2 ^ 52 + w.p0.toNat * 2 ^ 48 + w.t0.toNat * 2 ^ 28 + w.p1.toNat * 2 ^ 24 + w.t1.toNat * 2 ^ 4 + w.rsv.toNat * 2 ^ 0)

/-- The second word of BM. -/
def WordBM.pack2 (w : WordBM) : BitVec 64 :=
  BitVec.ofNat 64 (w.p2.toNat * 2 ^ 60 + w.t2.toNat * 2 ^ 40 + w.p3.toNat * 2 ^ 36 + w.t3.toNat * 2 ^ 16 + w.rsv2.toNat * 2 ^ 0)

/-- The fields of BM. -/
def WordBM.unpack (x y : BitVec 64) : WordBM where
  guard := fieldN x 52 4
  p0 := fieldN x 48 4
  t0 := fieldN x 28 20
  p1 := fieldN x 24 4
  t1 := fieldN x 4 20
  rsv := fieldN x 0 4
  p2 := fieldN y 60 4
  t2 := fieldN y 40 20
  p3 := fieldN y 36 4
  t3 := fieldN y 16 20
  rsv2 := fieldN y 0 16

/-- Whether an opcode's instruction has two words (R240, R255). -/
def isTwoWord (op : Nat) : Bool :=
  [0x04, 0x0F, 0x17, 0x1B, 0x1D, 0x25, 0x29, 0x43, 0x50, 0x51, 0x56, 0xAB, 0xAC, 0xAD, 0xB0, 0xB1, 0xC1, 0xD0, 0xD1, 0xD2, 0xD3, 0xD4, 0xD6, 0xE0, 0xE1, 0xE2, 0xE5, 0xE8, 0xE9, 0xEA, 0xEB].contains op

/-- The instruction of a first word `x` and, for the two-word formats, a second word `y` (R255). An unassigned opcode
is the instruction that raises ILLEGAL_OPCODE. -/
def decodeWords (x y : BitVec 64) : Instr :=
  match x.toNat / 2 ^ 56 with
  | 0x00 => .iadd (.unpack x)
  | 0x01 => .isub (.unpack x)
  | 0x02 => .imul (.unpack x)
  | 0x03 => .imulh (.unpack x)
  | 0x04 => .imad (.unpack x y)
  | 0x05 => .iaddi (.unpack x)
  | 0x06 => .imuli (.unpack x)
  | 0x08 => .idiv (.unpack x)
  | 0x09 => .irem (.unpack x)
  | 0x0A => .imin (.unpack x)
  | 0x0B => .imax (.unpack x)
  | 0x0C => .iabs (.unpack x)
  | 0x0D => .ineg (.unpack x)
  | 0x0F => .idot4 (.unpack x y)
  | 0x10 => .and (.unpack x)
  | 0x11 => .or (.unpack x)
  | 0x12 => .xor (.unpack x)
  | 0x13 => .not (.unpack x)
  | 0x14 => .andi (.unpack x)
  | 0x15 => .ori (.unpack x)
  | 0x16 => .xori (.unpack x)
  | 0x17 => .lut3 (.unpack x y)
  | 0x18 => .shl (.unpack x)
  | 0x19 => .shr (.unpack x)
  | 0x1A => .sra (.unpack x)
  | 0x1B => .extr (.unpack x y)
  | 0x1C => .bfx (.unpack x)
  | 0x1D => .bfi (.unpack x y)
  | 0x1E => .brev (.unpack x)
  | 0x1F => .popc (.unpack x)
  | 0x20 => .clz (.unpack x)
  | 0x21 => .ctz (.unpack x)
  | 0x23 => .icmp (.unpack x)
  | 0x24 => .icmpi (.unpack x)
  | 0x25 => .sel (.unpack x y)
  | 0x26 => .plop (.unpack x)
  | 0x27 => .mov (.unpack x)
  | 0x28 => .movi (.unpack x)
  | 0x29 => .movw (.unpack x y)
  | 0x2A => .icvt (.unpack x)
  | 0x2B => .lea (.unpack x)
  | 0x2C => .brec (.unpack x)
  | 0x2D => .bget (.unpack x)
  | 0x30 => .sadd (.unpack x)
  | 0x31 => .ssub (.unpack x)
  | 0x32 => .smul (.unpack x)
  | 0x33 => .sand (.unpack x)
  | 0x34 => .sor (.unpack x)
  | 0x35 => .sxor (.unpack x)
  | 0x36 => .sshl (.unpack x)
  | 0x37 => .sshr (.unpack x)
  | 0x38 => .ssra (.unpack x)
  | 0x39 => .smin (.unpack x)
  | 0x3A => .smax (.unpack x)
  | 0x3B => .scmp (.unpack x)
  | 0x3C => .smov (.unpack x)
  | 0x3D => .ssel (.unpack x)
  | 0x3E => .qlop (.unpack x)
  | 0x40 => .fadd (.unpack x)
  | 0x41 => .fsub (.unpack x)
  | 0x42 => .fmul (.unpack x)
  | 0x43 => .ffma (.unpack x y)
  | 0x44 => .fmin (.unpack x)
  | 0x45 => .fmax (.unpack x)
  | 0x46 => .fabs (.unpack x)
  | 0x47 => .fneg (.unpack x)
  | 0x48 => .fdiv (.unpack x)
  | 0x49 => .fsqrt (.unpack x)
  | 0x4A => .frsqrt (.unpack x)
  | 0x4B => .frcp (.unpack x)
  | 0x4C => .fcmp (.unpack x)
  | 0x4D => .fclass (.unpack x)
  | 0x4E => .faddi (.unpack x)
  | 0x4F => .fmuli (.unpack x)
  | 0x50 => .fdot2 (.unpack x y)
  | 0x51 => .fdot4 (.unpack x y)
  | 0x52 => .fround (.unpack x)
  | 0x53 => .fcvt (.unpack x)
  | 0x54 => .f2i (.unpack x)
  | 0x55 => .i2f (.unpack x)
  | 0x56 => .fpack (.unpack x y)
  | 0x57 => .funpack (.unpack x)
  | 0x58 => .fscale (.unpack x)
  | 0x59 => .fexp2 (.unpack x)
  | 0x5A => .flog2 (.unpack x)
  | 0x5B => .fsin (.unpack x)
  | 0x5C => .fcos (.unpack x)
  | 0x5D => .ftanh (.unpack x)
  | 0x5E => .fsigm (.unpack x)
  | 0x5F => .fsgn (.unpack x)
  | 0x60 => .ffrac (.unpack x)
  | 0x61 => .fmxsc (.unpack x)
  | 0x80 => .shfl (.unpack x)
  | 0x81 => .vote (.unpack x)
  | 0x82 => .ballot (.unpack x)
  | 0x83 => .matchLanes (.unpack x)
  | 0x84 => .qswap (.unpack x)
  | 0x85 => .qbcast (.unpack x)
  | 0x86 => .wred (.unpack x)
  | 0x87 => .wscan (.unpack x)
  | 0x88 => .tilew (.unpack x)
  | 0x89 => .rdlane (.unpack x)
  | 0x8A => .wrlane (.unpack x)
  | 0x8B => .grpmask (.unpack x)
  | 0xA0 => .ldg (.unpack x)
  | 0xA1 => .ldgWait (.unpack x)
  | 0xA2 => .stg (.unpack x)
  | 0xA3 => .ldl (.unpack x)
  | 0xA4 => .stl (.unpack x)
  | 0xA5 => .lds (.unpack x)
  | 0xA6 => .sts (.unpack x)
  | 0xA7 => .ldc (.unpack x)
  | 0xA8 => .stc (.unpack x)
  | 0xA9 => .ldbm (.unpack x)
  | 0xAA => .stbm (.unpack x)
  | 0xAB => .atom (.unpack x y)
  | 0xAC => .atoms (.unpack x y)
  | 0xAD => .atomc (.unpack x y)
  | 0xAF => .sldg (.unpack x)
  | 0xB0 => .red (.unpack x y)
  | 0xB1 => .redOrd (.unpack x y)
  | 0xB2 => .redflush (.unpack x)
  | 0xB3 => .fence (.unpack x)
  | 0xB4 => .fenceLanes (.unpack x)
  | 0xB5 => .fenceFetch (.unpack x)
  | 0xB6 => .wb (.unpack x)
  | 0xB7 => .inv (.unpack x)
  | 0xB8 => .bar (.unpack x)
  | 0xB9 => .ldrec (.unpack x)
  | 0xC0 => .br (.unpack x)
  | 0xC1 => .brm (.unpack x y)
  | 0xC2 => .call (.unpack x)
  | 0xC3 => .callr (.unpack x)
  | 0xC4 => .fcall (.unpack x)
  | 0xC5 => .ret (.unpack x)
  | 0xC6 => .jmpr (.unpack x)
  | 0xC7 => .exit (.unpack x)
  | 0xC8 => .nop (.unpack x)
  | 0xC9 => .brq (.unpack x)
  | 0xD0 => .wbload (.unpack x y)
  | 0xD1 => .mloop (.unpack x y)
  | 0xD2 => .mloopc (.unpack x y)
  | 0xD3 => .accrd (.unpack x y)
  | 0xD4 => .accwr (.unpack x y)
  | 0xD5 => .acczero (.unpack x)
  | 0xD6 => .wbzero (.unpack x y)
  | 0xE0 => .put (.unpack x y)
  | 0xE1 => .get (.unpack x y)
  | 0xE2 => .ratom (.unpack x y)
  | 0xE3 => .arm (.unpack x)
  | 0xE4 => .waitarr (.unpack x)
  | 0xE5 => .notify (.unpack x y)
  | 0xE6 => .garm (.unpack x)
  | 0xE7 => .gset (.unpack x)
  | 0xE8 => .xfill (.unpack x y)
  | 0xE9 => .ovld (.unpack x y)
  | 0xEA => .onceinit (.unpack x y)
  | 0xEB => .launch (.unpack x y)
  | 0xEC => .keymap (.unpack x)
  | 0xF0 => .srd (.unpack x)
  | 0xF1 => .swr (.unpack x)
  | 0xF2 => .trap (.unpack x)
  | 0xF3 => .sleep (.unpack x)
  | 0xF4 => .sysrd (.unpack x)
  | 0xF5 => .syswr (.unpack x)
  | 0xF6 => .gmark (.unpack x)
  | 0xF7 => .pref (.unpack x)
  | _ => .unassignedOpcode x

/-- Why a decoder gives no instruction. -/
inductive DecodeReject where
  /-- fewer bytes than the first word needs -/
  | truncated
  /-- opcode 0xFF, legal only as a header (R255) -/
  | headerWord
  /-- a two-word instruction whose second word is not there (R242) -/
  | secondWordMissing
  /-- a gauge opcode from 0x1B to 0x3F (R232) -/
  | gaugeUnassigned
  /-- a gauge word with a non-zero field its instruction does not use (R232) -/
  | gaugeUnusedField
  deriving DecidableEq, Repr

/-- The first n bytes of a list, if it has them. -/
def takeBytes : Nat → List Byte → Option (List Byte × List Byte)
  | 0, bs => some ([], bs)
  | _ + 1, [] => none
  | n + 1, b :: bs =>
    match takeBytes n bs with
    | some (h, t) => some (b :: h, t)
    | none => none

/-- Reads one Umavi instruction from little-endian bytes (R240) and answers it with the bytes that follow. -/
def decode (bs : List Byte) : Except DecodeReject (Instr × List Byte) :=
  match takeBytes 8 bs with
  | none => .error .truncated
  | some (h1, t1) =>
    let x := BitVec.ofNat 64 (valueOf h1)
    let op := x.toNat / 2 ^ 56
    if op = 0xFF then .error .headerWord
    else if isTwoWord op then
      match takeBytes 8 t1 with
      | none => .error .secondWordMissing
      | some (h2, t2) => .ok (decodeWords x (BitVec.ofNat 64 (valueOf h2)), t2)
    else .ok (decodeWords x 0, t1)

/-- Reads one gauge word (R232): the opcode, then every field the instruction does not use must be zero. The limits of an
immediate are checks of `Instr.WellFormed`, made at verification (R229). -/
def decodeGauge (x : BitVec 32) : Except DecodeReject Instr :=
  let n := x.toNat
  let d := BitVec.ofNat 4 (n / 2 ^ 22)
  let a := BitVec.ofNat 4 (n / 2 ^ 18)
  let b := BitVec.ofNat 4 (n / 2 ^ 14)
  let i := BitVec.ofNat 14 n
  let unused (mask : Nat) (r : Instr) : Except DecodeReject Instr :=
    if n &&& mask = 0 then .ok r else .error .gaugeUnusedField
  match n / 2 ^ 26 with
  | 0x00 => unused 0x3FFFFFF (.gaugeDone)
  | 0x01 => unused 0x3FFFF (.gaugeMov d a)
  | 0x02 => unused 0x3FC000 (.gaugeLi d i)
  | 0x03 => unused 0x3FFF (.gaugeAdd d a b)
  | 0x04 => unused 0x3FFF (.gaugeSub d a b)
  | 0x05 => unused 0x3FFF (.gaugeAnd d a b)
  | 0x06 => unused 0x3FFF (.gaugeOr d a b)
  | 0x07 => unused 0x3FFF (.gaugeXor d a b)
  | 0x08 => unused 0x3C000 (.gaugeAddi d a i)
  | 0x09 => unused 0x3FFC0 (.gaugeShl d a (BitVec.ofNat 6 n))
  | 0x0A => unused 0x3FFC0 (.gaugeShr d a (BitVec.ofNat 6 n))
  | 0x0B => unused 0x3FFF (.gaugeMin d a b)
  | 0x0C => unused 0x3FFFF (.gaugeClz d a)
  | 0x0D => unused 0x3C000 (.gaugeHash d a i)
  | 0x0E => unused 0x3C000 (.gaugeLd d a i)
  | 0x0F => unused 0x3C00000 (.gaugeSt a b i)
  | 0x10 => unused 0x3C00000 (.gaugeAcc a b i)
  | 0x11 =>
    if n.testBit 12 then unused 0x3C02000 (.histLog a b (BitVec.ofNat 6 (n / 2 ^ 6)) (BitVec.ofNat 6 n)) else unused 0x3C02000 (.histLin a b (BitVec.ofNat 6 (n / 2 ^ 6)) (BitVec.ofNat 6 n))
  | 0x12 => unused 0x3C03FF0 (.gaugeCms a b (BitVec.ofNat 4 n))
  | 0x13 => unused 0x3FF0 (.gaugeCmq d a b (BitVec.ofNat 4 n))
  | 0x14 => unused 0x3C3C000 (.gaugeBz a i)
  | 0x15 => unused 0x3C3C000 (.gaugeBnz a i)
  | 0x16 => unused 0x3C00000 (.gaugeBltu a b i)
  | 0x17 => unused 0x3C3C000 (.gaugeNtfy a i)
  | 0x18 => unused 0x3FFFF00 (.gaugeIrq (BitVec.ofNat 8 n))
  | 0x19 => unused 0x3C03FFF (.gaugeTrc a b)
  | 0x1A => unused 0x3FFFFFF (.gaugeFrz)
  | _ => .error .gaugeUnassigned

/-- The words of an instruction. -/
inductive Code where
  | gauge (w : BitVec 32)
  | one (x : BitVec 64)
  | two (x y : BitVec 64)
  deriving DecidableEq, Repr

/-- The words of an instruction (R232, R245 to R255). An event of the opcode table has no words. -/
def encode : Instr → Option Code
  | .iadd w => some (.one (w.pack 0x00))
  | .isub w => some (.one (w.pack 0x01))
  | .imul w => some (.one (w.pack 0x02))
  | .imulh w => some (.one (w.pack 0x03))
  | .imad w => some (.two (w.pack 0x04) w.pack2)
  | .iaddi w => some (.one (w.pack 0x05))
  | .imuli w => some (.one (w.pack 0x06))
  | .idiv w => some (.one (w.pack 0x08))
  | .irem w => some (.one (w.pack 0x09))
  | .imin w => some (.one (w.pack 0x0A))
  | .imax w => some (.one (w.pack 0x0B))
  | .iabs w => some (.one (w.pack 0x0C))
  | .ineg w => some (.one (w.pack 0x0D))
  | .idot4 w => some (.two (w.pack 0x0F) w.pack2)
  | .and w => some (.one (w.pack 0x10))
  | .or w => some (.one (w.pack 0x11))
  | .xor w => some (.one (w.pack 0x12))
  | .not w => some (.one (w.pack 0x13))
  | .andi w => some (.one (w.pack 0x14))
  | .ori w => some (.one (w.pack 0x15))
  | .xori w => some (.one (w.pack 0x16))
  | .lut3 w => some (.two (w.pack 0x17) w.pack2)
  | .shl w => some (.one (w.pack 0x18))
  | .shr w => some (.one (w.pack 0x19))
  | .sra w => some (.one (w.pack 0x1A))
  | .extr w => some (.two (w.pack 0x1B) w.pack2)
  | .bfx w => some (.one (w.pack 0x1C))
  | .bfi w => some (.two (w.pack 0x1D) w.pack2)
  | .brev w => some (.one (w.pack 0x1E))
  | .popc w => some (.one (w.pack 0x1F))
  | .clz w => some (.one (w.pack 0x20))
  | .ctz w => some (.one (w.pack 0x21))
  | .icmp w => some (.one (w.pack 0x23))
  | .icmpi w => some (.one (w.pack 0x24))
  | .sel w => some (.two (w.pack 0x25) w.pack2)
  | .plop w => some (.one (w.pack 0x26))
  | .mov w => some (.one (w.pack 0x27))
  | .movi w => some (.one (w.pack 0x28))
  | .movw w => some (.two (w.pack 0x29) w.pack2)
  | .icvt w => some (.one (w.pack 0x2A))
  | .lea w => some (.one (w.pack 0x2B))
  | .brec w => some (.one (w.pack 0x2C))
  | .bget w => some (.one (w.pack 0x2D))
  | .sadd w => some (.one (w.pack 0x30))
  | .ssub w => some (.one (w.pack 0x31))
  | .smul w => some (.one (w.pack 0x32))
  | .sand w => some (.one (w.pack 0x33))
  | .sor w => some (.one (w.pack 0x34))
  | .sxor w => some (.one (w.pack 0x35))
  | .sshl w => some (.one (w.pack 0x36))
  | .sshr w => some (.one (w.pack 0x37))
  | .ssra w => some (.one (w.pack 0x38))
  | .smin w => some (.one (w.pack 0x39))
  | .smax w => some (.one (w.pack 0x3A))
  | .scmp w => some (.one (w.pack 0x3B))
  | .smov w => some (.one (w.pack 0x3C))
  | .ssel w => some (.one (w.pack 0x3D))
  | .qlop w => some (.one (w.pack 0x3E))
  | .fadd w => some (.one (w.pack 0x40))
  | .fsub w => some (.one (w.pack 0x41))
  | .fmul w => some (.one (w.pack 0x42))
  | .ffma w => some (.two (w.pack 0x43) w.pack2)
  | .fmin w => some (.one (w.pack 0x44))
  | .fmax w => some (.one (w.pack 0x45))
  | .fabs w => some (.one (w.pack 0x46))
  | .fneg w => some (.one (w.pack 0x47))
  | .fdiv w => some (.one (w.pack 0x48))
  | .fsqrt w => some (.one (w.pack 0x49))
  | .frsqrt w => some (.one (w.pack 0x4A))
  | .frcp w => some (.one (w.pack 0x4B))
  | .fcmp w => some (.one (w.pack 0x4C))
  | .fclass w => some (.one (w.pack 0x4D))
  | .faddi w => some (.one (w.pack 0x4E))
  | .fmuli w => some (.one (w.pack 0x4F))
  | .fdot2 w => some (.two (w.pack 0x50) w.pack2)
  | .fdot4 w => some (.two (w.pack 0x51) w.pack2)
  | .fround w => some (.one (w.pack 0x52))
  | .fcvt w => some (.one (w.pack 0x53))
  | .f2i w => some (.one (w.pack 0x54))
  | .i2f w => some (.one (w.pack 0x55))
  | .fpack w => some (.two (w.pack 0x56) w.pack2)
  | .funpack w => some (.one (w.pack 0x57))
  | .fscale w => some (.one (w.pack 0x58))
  | .fexp2 w => some (.one (w.pack 0x59))
  | .flog2 w => some (.one (w.pack 0x5A))
  | .fsin w => some (.one (w.pack 0x5B))
  | .fcos w => some (.one (w.pack 0x5C))
  | .ftanh w => some (.one (w.pack 0x5D))
  | .fsigm w => some (.one (w.pack 0x5E))
  | .fsgn w => some (.one (w.pack 0x5F))
  | .ffrac w => some (.one (w.pack 0x60))
  | .fmxsc w => some (.one (w.pack 0x61))
  | .shfl w => some (.one (w.pack 0x80))
  | .vote w => some (.one (w.pack 0x81))
  | .ballot w => some (.one (w.pack 0x82))
  | .matchLanes w => some (.one (w.pack 0x83))
  | .qswap w => some (.one (w.pack 0x84))
  | .qbcast w => some (.one (w.pack 0x85))
  | .wred w => some (.one (w.pack 0x86))
  | .wscan w => some (.one (w.pack 0x87))
  | .tilew w => some (.one (w.pack 0x88))
  | .rdlane w => some (.one (w.pack 0x89))
  | .wrlane w => some (.one (w.pack 0x8A))
  | .grpmask w => some (.one (w.pack 0x8B))
  | .ldg w => some (.one (w.pack 0xA0))
  | .ldgWait w => some (.one (w.pack 0xA1))
  | .stg w => some (.one (w.pack 0xA2))
  | .ldl w => some (.one (w.pack 0xA3))
  | .stl w => some (.one (w.pack 0xA4))
  | .lds w => some (.one (w.pack 0xA5))
  | .sts w => some (.one (w.pack 0xA6))
  | .ldc w => some (.one (w.pack 0xA7))
  | .stc w => some (.one (w.pack 0xA8))
  | .ldbm w => some (.one (w.pack 0xA9))
  | .stbm w => some (.one (w.pack 0xAA))
  | .atom w => some (.two (w.pack 0xAB) w.pack2)
  | .atoms w => some (.two (w.pack 0xAC) w.pack2)
  | .atomc w => some (.two (w.pack 0xAD) w.pack2)
  | .sldg w => some (.one (w.pack 0xAF))
  | .red w => some (.two (w.pack 0xB0) w.pack2)
  | .redOrd w => some (.two (w.pack 0xB1) w.pack2)
  | .redflush w => some (.one (w.pack 0xB2))
  | .fence w => some (.one (w.pack 0xB3))
  | .fenceLanes w => some (.one (w.pack 0xB4))
  | .fenceFetch w => some (.one (w.pack 0xB5))
  | .wb w => some (.one (w.pack 0xB6))
  | .inv w => some (.one (w.pack 0xB7))
  | .bar w => some (.one (w.pack 0xB8))
  | .ldrec w => some (.one (w.pack 0xB9))
  | .pref w => some (.one (w.pack 0xF7))
  | .br w => some (.one (w.pack 0xC0))
  | .brm w => some (.two (w.pack 0xC1) w.pack2)
  | .call w => some (.one (w.pack 0xC2))
  | .callr w => some (.one (w.pack 0xC3))
  | .fcall w => some (.one (w.pack 0xC4))
  | .ret w => some (.one (w.pack 0xC5))
  | .jmpr w => some (.one (w.pack 0xC6))
  | .exit w => some (.one (w.pack 0xC7))
  | .nop w => some (.one (w.pack 0xC8))
  | .brq w => some (.one (w.pack 0xC9))
  | .wbload w => some (.two (w.pack 0xD0) w.pack2)
  | .mloop w => some (.two (w.pack 0xD1) w.pack2)
  | .mloopc w => some (.two (w.pack 0xD2) w.pack2)
  | .accrd w => some (.two (w.pack 0xD3) w.pack2)
  | .accwr w => some (.two (w.pack 0xD4) w.pack2)
  | .acczero w => some (.one (w.pack 0xD5))
  | .wbzero w => some (.two (w.pack 0xD6) w.pack2)
  | .put w => some (.two (w.pack 0xE0) w.pack2)
  | .get w => some (.two (w.pack 0xE1) w.pack2)
  | .ratom w => some (.two (w.pack 0xE2) w.pack2)
  | .arm w => some (.one (w.pack 0xE3))
  | .waitarr w => some (.one (w.pack 0xE4))
  | .notify w => some (.two (w.pack 0xE5) w.pack2)
  | .garm w => some (.one (w.pack 0xE6))
  | .gset w => some (.one (w.pack 0xE7))
  | .xfill w => some (.two (w.pack 0xE8) w.pack2)
  | .ovld w => some (.two (w.pack 0xE9) w.pack2)
  | .onceinit w => some (.two (w.pack 0xEA) w.pack2)
  | .launch w => some (.two (w.pack 0xEB) w.pack2)
  | .keymap w => some (.one (w.pack 0xEC))
  | .srd w => some (.one (w.pack 0xF0))
  | .swr w => some (.one (w.pack 0xF1))
  | .trap w => some (.one (w.pack 0xF2))
  | .sleep w => some (.one (w.pack 0xF3))
  | .sysrd w => some (.one (w.pack 0xF4))
  | .syswr w => some (.one (w.pack 0xF5))
  | .gmark w => some (.one (w.pack 0xF6))
  | .unassignedOpcode x => some (.one x)
  | .warpIssueSelect _ _ _ => none
  | .warpOwed _ => none
  | .spinFloorFall _ => none
  | .spinFloorTimeout _ => none
  | .loadReturn _ => none
  | .divideReturn _ => none
  | .specialFunctionReturn _ => none
  | .accrdReturn _ => none
  | .keymapReturn _ => none
  | .ldrecComplete _ => none
  | .onceWaitTimeout _ => none
  | .sleepWake _ _ => none
  | .waitarrRelease _ => none
  | .engineCommandStart _ _ => none
  | .matrixKStep _ => none
  | .engineCommandEnd _ => none
  | .engineLineRetry _ => none
  | .warpRetire _ => none
  | .blockRetire _ => none
  | .gridEnd _ => none
  | .blockPlacement _ => none
  | .reservationTimeout _ => none
  | .lkpQtailWrite _ _ => none
  | .lkpQbaseWrite _ _ => none
  | .lkpQctlWrite _ _ => none
  | .recordRelease => none
  | .launchRecordArrival _ => none
  | .gridPreempt _ => none
  | .gridResume _ => none
  | .gridEndRequest _ => none
  | .blockHalt _ => none
  | .contextRestore _ => none
  | .accessReplay _ _ => none
  | .replayAsid _ _ => none
  | .replayAll _ => none
  | .faultRecordPost _ => none
  | .islFqheadWrite _ _ => none
  | .islFqbaseWrite _ _ => none
  | .gets _ => none
  | .getx _ => none
  | .sliceWrite _ => none
  | .farAtom _ => none
  | .wback _ => none
  | .queuedWritePerform _ => none
  | .drainEntry _ => none
  | .recall _ => none
  | .dataMsg _ => none
  | .xdata _ => none
  | .wack _ => none
  | .aack _ => none
  | .leaseLapse _ => none
  | .mirrorWrite _ => none
  | .mapkCopy _ _ => none
  | .switchMessage _ => none
  | .cohmodePlainWrite _ _ => none
  | .predclr _ => none
  | .islLeaseWrite _ _ => none
  | .coreDrainWrite _ _ _ => none
  | .mapkRqtailWrite _ _ _ => none
  | .mapkRqbaseWrite _ _ _ => none
  | .map _ _ => none
  | .unmap _ _ => none
  | .protect _ _ => none
  | .chtype _ _ => none
  | .migrate _ _ => none
  | .asidget _ _ => none
  | .asidput _ _ => none
  | .transitTimeout _ => none
  | .routerForward _ => none
  | .packetSend _ => none
  | .allowanceReturn _ _ _ _ => none
  | .flitAcknowledge _ _ _ => none
  | .codewordError _ _ => none
  | .replayRequest _ _ _ => none
  | .replayLimit _ _ => none
  | .sourceFailure _ _ _ => none
  | .wavelengthChangeRequest _ _ => none
  | .wavelengthChangeAck _ _ => none
  | .wavelengthChangeComplete _ _ => none
  | .drain _ _ => none
  | .dark _ _ => none
  | .relock _ _ => none
  | .clrerr _ _ => none
  | .drainMarkerAck _ _ => none
  | .darkmaxExpiry _ _ => none
  | .lightLoss _ _ => none
  | .portTrained _ _ _ _ _ => none
  | .relockTimeout _ _ => none
  | .putPacketAtTarget _ => none
  | .getRequestAtTarget _ => none
  | .ratomAtTarget _ => none
  | .sourceCounterAdvance _ => none
  | .getDataReturn _ => none
  | .ratomResultReturn _ => none
  | .errorNotice _ => none
  | .retryNotice _ => none
  | .retryResend _ => none
  | .notifyAddition _ => none
  | .islNctrWrite _ _ _ => none
  | .rankEntryWrite _ _ _ _ => none
  | .referenceLoss _ => none
  | .reroot => none
  | .islandRelock _ => none
  | .itimeCatchUp _ => none
  | .lkpTstageGo _ => none
  | .tableVerify _ => none
  | .tableAnswer => none
  | .tableCommit => none
  | .budgetPeriodBoundary _ => none
  | .partBudWrite _ _ _ => none
  | .partCfgWrite _ _ => none
  | .partSliceWrite _ _ _ => none
  | .partShareWrite _ _ _ => none
  | .partToffWrite _ _ => none
  | .partPresWrite _ _ _ _ => none
  | .attestationRequest _ => none
  | .attestationReport => none
  | .imageKeyEnrol _ _ => none
  | .imageKeyLock => none
  | .gaugeEvent _ _ _ _ _ => none
  | .gaugeRunStart _ => none
  | .gaugeRunEnd _ => none
  | .tgpAttEnable _ _ _ => none
  | .tgpAttVerifyEnd _ _ => none
  | .tgpAttDisable _ _ _ => none
  | .ipendClear _ _ => none
  | .tgpGwinWrite _ _ _ => none
  | .tgpBudWrite _ _ _ => none
  | .gaugeBudgetPeriod _ => none
  | .powerOn => none
  | .startWarm => none
  | .startCold => none
  | .stage0 _ => none
  | .stage1 => none
  | .stage2 _ => none
  | .stage3 => none
  | .firmwareRecovery _ => none
  | .powerControlAction _ _ _ => none
  | .hbmUncorrectable _ _ => none
  | .coreSoftError _ _ _ => none
  | .laserAgeingRefresh _ _ _ _ _ => none
  | .replaceRequestClear => none
  | .registerWrite _ _ _ => none
  | .belyelImageLoad _ _ => none
  | .gaugeMemoryWrite _ _ _ => none
  | .drainMarker _ _ => none
  | .queuedGetxGrant _ => none
  | .gaugeDone => some (.gauge (BitVec.ofNat 32 (0x0)))
  | .gaugeMov d a => some (.gauge (BitVec.ofNat 32 (0x4000000 + d.toNat * 2 ^ 22 + a.toNat * 2 ^ 18)))
  | .gaugeLi d i => some (.gauge (BitVec.ofNat 32 (0x8000000 + d.toNat * 2 ^ 22 + i.toNat * 2 ^ 0)))
  | .gaugeAdd d a b => some (.gauge (BitVec.ofNat 32 (0xC000000 + d.toNat * 2 ^ 22 + a.toNat * 2 ^ 18 + b.toNat * 2 ^ 14)))
  | .gaugeSub d a b => some (.gauge (BitVec.ofNat 32 (0x10000000 + d.toNat * 2 ^ 22 + a.toNat * 2 ^ 18 + b.toNat * 2 ^ 14)))
  | .gaugeAnd d a b => some (.gauge (BitVec.ofNat 32 (0x14000000 + d.toNat * 2 ^ 22 + a.toNat * 2 ^ 18 + b.toNat * 2 ^ 14)))
  | .gaugeOr d a b => some (.gauge (BitVec.ofNat 32 (0x18000000 + d.toNat * 2 ^ 22 + a.toNat * 2 ^ 18 + b.toNat * 2 ^ 14)))
  | .gaugeXor d a b => some (.gauge (BitVec.ofNat 32 (0x1C000000 + d.toNat * 2 ^ 22 + a.toNat * 2 ^ 18 + b.toNat * 2 ^ 14)))
  | .gaugeAddi d a i => some (.gauge (BitVec.ofNat 32 (0x20000000 + d.toNat * 2 ^ 22 + a.toNat * 2 ^ 18 + i.toNat * 2 ^ 0)))
  | .gaugeShl d a i => some (.gauge (BitVec.ofNat 32 (0x24000000 + d.toNat * 2 ^ 22 + a.toNat * 2 ^ 18 + i.toNat * 2 ^ 0)))
  | .gaugeShr d a i => some (.gauge (BitVec.ofNat 32 (0x28000000 + d.toNat * 2 ^ 22 + a.toNat * 2 ^ 18 + i.toNat * 2 ^ 0)))
  | .gaugeMin d a b => some (.gauge (BitVec.ofNat 32 (0x2C000000 + d.toNat * 2 ^ 22 + a.toNat * 2 ^ 18 + b.toNat * 2 ^ 14)))
  | .gaugeClz d a => some (.gauge (BitVec.ofNat 32 (0x30000000 + d.toNat * 2 ^ 22 + a.toNat * 2 ^ 18)))
  | .gaugeHash d a i => some (.gauge (BitVec.ofNat 32 (0x34000000 + d.toNat * 2 ^ 22 + a.toNat * 2 ^ 18 + i.toNat * 2 ^ 0)))
  | .gaugeLd d a i => some (.gauge (BitVec.ofNat 32 (0x38000000 + d.toNat * 2 ^ 22 + a.toNat * 2 ^ 18 + i.toNat * 2 ^ 0)))
  | .gaugeSt a b i => some (.gauge (BitVec.ofNat 32 (0x3C000000 + a.toNat * 2 ^ 18 + b.toNat * 2 ^ 14 + i.toNat * 2 ^ 0)))
  | .gaugeAcc a b i => some (.gauge (BitVec.ofNat 32 (0x40000000 + a.toNat * 2 ^ 18 + b.toNat * 2 ^ 14 + i.toNat * 2 ^ 0)))
  | .histLin a b s n => some (.gauge (BitVec.ofNat 32 (0x44000000 + a.toNat * 2 ^ 18 + b.toNat * 2 ^ 14 + s.toNat * 2 ^ 6 + n.toNat * 2 ^ 0)))
  | .histLog a b s n => some (.gauge (BitVec.ofNat 32 (0x44001000 + a.toNat * 2 ^ 18 + b.toNat * 2 ^ 14 + s.toNat * 2 ^ 6 + n.toNat * 2 ^ 0)))
  | .gaugeCms a b w => some (.gauge (BitVec.ofNat 32 (0x48000000 + a.toNat * 2 ^ 18 + b.toNat * 2 ^ 14 + w.toNat * 2 ^ 0)))
  | .gaugeCmq d a b w => some (.gauge (BitVec.ofNat 32 (0x4C000000 + d.toNat * 2 ^ 22 + a.toNat * 2 ^ 18 + b.toNat * 2 ^ 14 + w.toNat * 2 ^ 0)))
  | .gaugeBz a i => some (.gauge (BitVec.ofNat 32 (0x50000000 + a.toNat * 2 ^ 18 + i.toNat * 2 ^ 0)))
  | .gaugeBnz a i => some (.gauge (BitVec.ofNat 32 (0x54000000 + a.toNat * 2 ^ 18 + i.toNat * 2 ^ 0)))
  | .gaugeBltu a b i => some (.gauge (BitVec.ofNat 32 (0x58000000 + a.toNat * 2 ^ 18 + b.toNat * 2 ^ 14 + i.toNat * 2 ^ 0)))
  | .gaugeNtfy a i => some (.gauge (BitVec.ofNat 32 (0x5C000000 + a.toNat * 2 ^ 18 + i.toNat * 2 ^ 0)))
  | .gaugeIrq v => some (.gauge (BitVec.ofNat 32 (0x60000000 + v.toNat * 2 ^ 0)))
  | .gaugeTrc a b => some (.gauge (BitVec.ofNat 32 (0x64000000 + a.toNat * 2 ^ 18 + b.toNat * 2 ^ 14)))
  | .gaugeFrz => some (.gauge (BitVec.ofNat 32 (0x68000000)))

/-- The bytes of an instruction as memory holds them (R3). -/
def encodeBytes (i : Instr) : List Byte :=
  match encode i with
  | some (.gauge w) => bytesOf 4 w.toNat
  | some (.one x) => bytesOf 8 x.toNat
  | some (.two x y) => bytesOf 8 x.toNat ++ bytesOf 8 y.toNat
  | none => []

/-- The instruction this decoder reads from `nbits` bits numbered as opcode_table.json numbers them: a 32-bit row is a
gauge word; any other is a Umavi word, with a second word of the bits above 64. -/
def decodeTableWord (nbits w : Nat) : Option Instr :=
  if nbits ≤ 32 then
    match decodeGauge (BitVec.ofNat 32 w) with
    | .ok i => some i
    | .error _ => none
  else
    match decode (bytesOf 16 w) with
    | .ok (i, _) => some i
    | .error _ => none

end Sys2Proof
end

