-- ==== Sys2Proof/Machine/Access.lean ====
section
/-!
DEFINITION. One access to global memory by the lanes of an instruction (R115, R150, R321, R374): bounds, translation, page type and
permission, then the load, store, atomic or reduction itself; parking and the operand log (R375), and replay (R377).
-/
namespace Sys2Proof.Machine

/-- One lane's source values as read at issue. -/
structure LaneArg where
  lane : Nat
  helper : Bool
  index : Nat
  data : Nat
  cmp : Nat
  deriving DecidableEq, Repr

/-- What a global memory instruction does. -/
inductive AccKind where
  | load | loadWait | store | atomic | red | redOrd | scalar
  deriving DecidableEq, Repr

/-- A global memory instruction with everything it read at issue. -/
structure Access where
  wid : Nat
  kind : AccKind
  n : Nat
  brec : BitVec 128
  ofs : Int
  order : Nat
  scope : Nat
  dst : Nat
  aop : Nat
  ty : Nat
  rnd : Nat
  seed : Nat
  ret : Bool
  words : List Word
  pc : PC
  ovl : Nat
  issueTime : Nat
  lanes : List LaneArg
  /-- admitted member lanes of a scalar access -/
  members : List Nat
  /-- helper lanes whose result is zero (R328) -/
  zero : List Nat
  /-- the log entry that is being replayed -/
  replay : Option Nat

/-- What becomes of one lane's access before it acts. -/
inductive LaneRes where
  | outside
  /-- a replayable class, with the page's type, 4 where it does not translate -/
  | fault (cls ptype : Nat)
  | stop (cls : Nat)
  | transit
  /-- a word of a ONCE page that a write on its way will set -/
  | busy
  /-- the leaf and the byte address in the model's memory -/
  | ok (leaf pa : Nat)
  deriving DecidableEq, Repr

def Access.isAcquire (a : Access) : Bool := a.order == 1 || a.order == 3
def Access.isRelease (a : Access) : Bool := a.order == 2 || a.order == 3
def Access.writes (a : Access) : Bool :=
  match a.kind with
  | .load | .loadWait | .scalar => false
  | .store | .atomic | .red | .redOrd => true
def Access.reads (a : Access) : Bool := a.kind != .store && a.kind != .redOrd

/-- Element index of a lane (R150). -/
def Access.elem (a : Access) (x : LaneArg) : Int := (x.index : Int) + a.ofs
/-- Virtual address of a lane's access (R150). -/
def Access.va (a : Access) (x : LaneArg) : Nat := recVA a.brec.toNat (a.elem x)

/-- ASID of a grid (R181). -/
def Grid.asid (g : Grid) : Nat := recBits g.record 1 50 39

/-! ### Instructions as accesses -/

/-- The access of an M word for some lanes. -/
def accessM (w : WordM) (kind : AccKind) (wid : Nat) (lanes : List LaneArg) (members : List Nat) : Access where
  wid := wid
  kind := kind
  n := 2 ^ w.size.toNat
  brec := 0
  ofs := sext 14 w.ofs.toNat
  order := w.order.toNat
  scope := w.scope.toNat
  dst := w.data.toNat
  aop := 0
  ty := 0
  rnd := 0
  seed := 0
  ret := false
  words := []
  pc := ⟨0, 0⟩
  ovl := 0
  issueTime := 0
  lanes := lanes
  members := members
  zero := []
  replay := none

/-- The access of an MA word for some lanes. -/
def accessMA (w : WordMA) (kind : AccKind) (wid : Nat) (lanes : List LaneArg) : Access where
  wid := wid
  kind := kind
  n := 2 ^ w.size.toNat
  brec := 0
  ofs := sext 14 w.ofs.toNat
  order := w.order.toNat
  scope := w.scope.toNat
  dst := w.res.toNat
  aop := w.aop.toNat
  ty := w.atype.toNat
  rnd := w.arnd.toNat
  seed := 0
  ret := w.ret == 1
  words := []
  pc := ⟨0, 0⟩
  ovl := 0
  issueTime := 0
  lanes := lanes
  members := []
  zero := []
  replay := none

/-- An operand of a lane as a log entry holds it: 0, 1 and 2 are the values read, 3 the rounding mode, 4 marks a helper lane, 5 is MODE,
and 6 marks a helper lane that receives zero. -/
def LogEntry.operand (e : LogEntry) (l k : Nat) : Nat := ((e.ops.find? fun x => x.1 == l && x.2.1 == k).map fun x => x.2.2).getD 0

/-- Lanes of a log entry whose operands it holds. -/
def LogEntry.opLanes (e : LogEntry) : List Nat := (e.ops.map fun x => x.1).eraseDups

/-- Source values of the lanes of a logged access. -/
def LogEntry.args (e : LogEntry) : List LaneArg :=
  (e.opLanes.filter fun l => e.operand l 6 == 0).map fun l => ⟨l, e.operand l 4 == 1, e.operand l 0, e.operand l 1, e.operand l 2⟩

/-- The instruction of a log entry as an access of the lanes whose replay is not under way (R375, R377); none for a request packet of a
lane instruction. -/
def LogEntry.access (e : LogEntry) (wid : Nat) : Option Access :=
  let x := e.words.getD 0 0
  let y := e.words.getD 1 0
  let m := WordM.unpack x
  let ma := WordMA.unpack x y
  let here (l : Nat) : Bool := e.lanes.contains l && !e.going.contains l
  let args := e.args.filter fun a => here a.lane
  let base : Option Access :=
    match x.toNat / 2 ^ 56 with
    | 0xA0 => some (accessM m .load wid args [])
    | 0xA1 => some (accessM m .loadWait wid args [])
    | 0xA2 => some (accessM m .store wid args [])
    | 0xAF => some (accessM m .scalar wid e.args e.lanes)
    | 0xAB => some (accessMA ma .atomic wid args)
    | 0xB0 => some (accessMA ma .red wid args)
    | 0xB1 => some (accessMA ma .redOrd wid args)
    | _ => none
  base.map fun a =>
    { a with brec := e.brec, words := e.words, pc := e.pc, ovl := e.ovl, issueTime := e.issueTime, seed := e.seed
             rnd := ((e.ops.find? fun x => x.2.1 == 3).map fun x => x.2.2).getD 0, replay := some e.num
             zero := e.opLanes.filter fun l => e.operand l 6 == 1 && here l }

/-! ### What becomes of each lane (R150, R71, R145) -/

/-- The class that the page's type raises (R71, R83, R85), if any. -/
def typeFault (s : State) (a : Access) (core leaf pa : Nat) : Option Nat :=
  let ws := wordsOf pa a.n
  match leafType leaf with
  | 0 => if a.kind = .redOrd then some 0x12 else none
  | 1 => none
  | 2 =>
    match a.kind with
    | .load | .scalar => if ws.all s.written then none else some 0x14
    | .loadWait => none
    | .store => if a.n < 4 then some 0x12 else if ws.any s.written then some 0x13 else none
    | .atomic | .red | .redOrd => some 0x12
  | _ => if a.kind = .redOrd then some 0x12 else if leafOwner leaf != core then some 0x15 else none

/-- Whether the leaf permits the access (R145). An ordered reduction reads and writes as an unordered one (log 17). -/
def permitted (a : Access) (leaf : Nat) : Bool :=
  match a.kind with
  | .load | .loadWait | .scalar => leafR leaf
  | .store => leafW leaf
  | .atomic | .red | .redOrd => leafR leaf && leafW leaf

/-- Lanes whose event a scalar access is: its admitted members; otherwise the lane itself. -/
def Access.eventLanes (a : Access) (x : LaneArg) : List Nat := if a.kind = .scalar then a.members else [x.lane]

/-- Whether an access to a ONCE page waits for a write on its way (R83): a store, for any write of its words, which will have set their
bits; a load, for its own threads' (R131). -/
def State.onceBusy (s : State) (a : Access) (x : LaneArg) (leaf pa : Nat) : Bool :=
  let ws := wordsOf pa a.n
  let mine (m : Msg) : Bool := m.warp == a.wid && overlaps m.lanes (a.eventLanes x)
  leafType leaf == 2 && !(a.writes && ws.any s.written) &&
    s.msgs.any fun m => m.ptype == 2 && m.isEvent && !m.ops.isEmpty && overlaps m.words ws && (a.writes || mine m)

/-- Bounds, translation, type and permission of one lane (R150, R71, R145). -/
def State.resolve (s : State) (a : Access) (x : LaneArg) : LaneRes × State :=
  let b := s.block (s.warp a.wid).block
  let asid := (s.grid b.grid).asid
  if recOutside a.brec.toNat a.n (a.elem x) then (.outside, s)
  else
    let va := a.va x
    match s.translate b.island (some b.core) asid va with
    | (.absent _, s) => (.fault 0x10 4, s)
    | (.leaf e k, s) =>
      let pa := hbmAddr b.island (leafPA e k va)
      if leafTransit e then (.transit, s)
      else if permitted a e && s.onceBusy a x e pa then (.busy, s)
      else match typeFault s a b.core e pa with
        | some c => (.stop c, s)
        | none => if permitted a e then (.ok e pa, s) else (.fault 0x11 (leafType e), s)

/-- Every lane's result, lane by lane. A page that does not translate is walked once, for the first lane that needs it: `gone` are the
64 KiB pages found absent (R150). -/
def State.resolveFrom (s : State) (a : Access) : List Nat → List LaneArg → List (LaneArg × LaneRes) × State
  | _, [] => ([], s)
  | gone, x :: xs =>
    let page := a.va x / 65536
    let r := if !recOutside a.brec.toNat a.n (a.elem x) && gone.contains page then (LaneRes.fault 0x10 4, s) else s.resolve a x
    let rest := r.2.resolveFrom a (if r.1 = .fault 0x10 4 then page :: gone else gone) xs
    ((x, r.1) :: rest.1, rest.2)

/-- Every lane's result. -/
def State.resolveAll (s : State) (a : Access) (xs : List LaneArg) : List (LaneArg × LaneRes) × State := s.resolveFrom a [] xs

/-- Lanes of a store that cover one word of a ONCE page together with another lane (R324). -/
def clashes (a : Access) (rs : List (LaneArg × LaneRes)) : List Nat :=
  if a.kind != .store then []
  else rs.filterMap fun r =>
    match r.2 with
    | .ok e pa =>
      if leafType e = 2 && rs.any fun q => q.1.lane != r.1.lane && !q.1.helper &&
          (match q.2 with | .ok _ pb => overlaps (wordsOf pa a.n) (wordsOf pb a.n) | _ => false) then some r.1.lane
      else none
    | _ => none

/-- Warp-stopping classes of the surviving member lanes, as (lane, class, address) (R374 step 3). -/
def stopsOf (a : Access) (rs : List (LaneArg × LaneRes)) : List (Nat × Nat × Nat) :=
  rs.filterMap fun r =>
    if r.1.helper then none
    else match r.2 with
      | .stop c => some (r.1.lane, c, a.va r.1)
      | .ok _ _ => if (clashes a rs).contains r.1.lane then some (r.1.lane, 0x13, a.va r.1) else none
      | _ => none

/-- Lanes that go on, with leaf and address. -/
def oksOf (rs : List (LaneArg × LaneRes)) : List (LaneArg × Nat × Nat) :=
  rs.filterMap fun r => match r.2 with | .ok e pa => some (r.1, e, pa) | _ => none

/-- Page type of words of an access: that of the lane that touches them. -/
def pageOf (a : Access) (oks : List (LaneArg × Nat × Nat)) (ws : List Nat) : Nat × Nat :=
  match oks.find? fun x => overlaps (wordsOf x.2.2 a.n) ws with
  | some x => (leafType x.2.1, leafClass x.2.1)
  | none => (0, 0)

/-- Whether an access of `n` bytes at a virtual address meets what a log entry accesses. -/
def LogEntry.meets (e : LogEntry) (wid va n : Nat) : Bool :=
  match e.access wid with
  | some b => b.lanes.any fun y => decide (b.va y < va + n) && decide (va < b.va y + b.n)
  | none => false

/-- Whether a lane must wait for an earlier event of its own (R75, R131; log 16): any acquire or SEQ read; for a read, an outstanding read
of the same words, or on a SEQ page an earlier SEQ write. A scalar load that stands in the log counts as an outstanding read: what is
ordered after it waits until it is replayed (R69, R91; log 89). -/
def State.mustWait (s : State) (a : Access) (x : LaneArg) (e pa : Nat) : Bool :=
  (a.eventLanes x).any fun l =>
    let parked := ((s.warp a.wid).parkedReads l).filter fun r => a.replay.all fun k => r.num < k
    let out := s.outstanding a.wid l
    let ws := wordsOf pa a.n
    let isRead (m : Msg) : Bool := m.kind == .gets || m.kind == .data || m.ops.any fun o => o.aop != 8
    out.any (fun m => m.acq) ||
      (a.reads && !a.writes && out.any fun m => isRead m && overlaps m.words ws) ||
      (a.reads && !a.writes && leafType e == 0 && out.any fun m => m.ptype == 0 && !m.ops.isEmpty) ||
      parked.any (fun r => r.acq || r.meets a.wid (a.va x) a.n) ||
      (a.writes && (a.isRelease || leafType e == 0) && !parked.isEmpty)

/-- Events of the lanes that must be performed before a write of theirs (R75 rows 1, 3, 4, 6; R131). -/
def State.precede (s : State) (a : Access) (lanes ws : List Nat) (ptype core island : Nat) : List Nat :=
  let all := a.isRelease || ptype == 0
  let own := lanes.flatMap fun l => (s.outstanding a.wid l).filter fun m => all || overlaps m.words ws
  ((own.map fun m => m.id) ++ s.wbacksOf island core ws).eraseDups

/-! ### Loads (R321 to R323) -/

/-- The bytes of a lane's own unacknowledged stores that its access reads (R131). -/
def State.forwards (s : State) (a : Access) (x : LaneArg) (pa : Nat) : List Host.Cell :=
  let ops := (a.eventLanes x).flatMap fun l => (s.outstanding a.wid l).flatMap fun m => m.ops.filter fun o => o.aop == 8 && o.lane == l
  (ops.flatMap fun o => ((bytesOf o.bytes o.d).zipIdx).map fun b => (o.pa + b.2, b.1)).foldl (fun m c =>
    if pa ≤ c.1 && c.1 < pa + a.n then NMap.set m c.1 c.2 else m) []

/-- The words of an access that are read together: single words, or pairs from 8 bytes upwards (R70). -/
def unitsOf (pa n : Nat) : List (List Nat) :=
  if n < 8 then (wordsOf pa n).map fun w => [w]
  else (List.range (n / 8)).map fun k => [pa / 4 + 2 * k, pa / 4 + 2 * k + 1]

/-- Units of a lane that neither its own stores nor the L1 supply. -/
def State.missing (s : State) (a : Access) (island core : Nat) (x : LaneArg) (pa : Nat) : List (List Nat) :=
  let f := s.forwards a x pa
  (unitsOf pa a.n).filter fun u =>
    !((bytesOfWords u).all fun c => !(pa ≤ c && c < pa + a.n) || (NMap.find? f c).isSome) && (s.l1Find island core u).isNone

/-- Bytes that the L1 supplies. -/
def State.l1Bytes (s : State) (a : Access) (island core pa : Nat) (m : List Host.Cell) : List Host.Cell :=
  (unitsOf pa a.n).foldl (fun m u =>
    match s.l1Find island core u with
    | some r => copyWords m r.data u
    | none => m) m

/-- Adds the regions of loads to the watch set (R41). -/
def Warp.watchWords (w : Warp) (ws : List Nat) : Warp :=
  if w.spinCount = 0 then w
  else { w with watch := (ws.map regionOf).foldl (fun l r => if l.contains r || 8 ≤ l.length then l else l ++ [r]) w.watch }

/-- Sends out the load of some lanes and records it: hits are read at once, and GETS goes out for the spans that are missing (R124). Where
the write buffer or the L1 supplies part of the words, the span is the smallest that covers the words which are lacking: R124 speaks of
every byte needed (DESIGN CHOICE, log 120). -/
def State.sendLoad (s : State) (a : Access) (inst : Nat) (kind : PendKind) (drops : Bool) (oks : List (LaneArg × Nat × Nat))
    (zeros : List Nat) : State :=
  let w := s.warp a.wid
  let b := s.block w.block
  let (pid, s) := s.newId
  let lacking := oks.map fun x => (x.1, (s.missing a b.island b.core x.1 x.2.2).flatten)
  let ids := (allSpans (lacking.flatMap fun x => x.2).eraseDups).zipIdx
  let base := s.fresh
  let wbs := ids.map fun x => s.wbacksOf b.island b.core x.1
  let lanes := oks.map fun x => (⟨x.1.lane, x.1.helper, x.2.2, s.forwards a x.1 x.2.2⟩ : LaneLoad)
  let p : Pend :=
    { id := pid, inst := inst, warp := a.wid, gen := w.gen.toNat, kind := kind, dst := a.dst, size := a.n, lanes := lanes
      got := oks.foldl (fun m x => s.l1Bytes a b.island b.core x.2.2 m) [], waiting := ids.map fun x => base + x.2
      who := if a.kind = .scalar then a.members else []
      writes := zeros.flatMap fun l => (List.range (max 1 (a.n / 4))).map fun k => (l, a.dst + k, 0#32)
      bad := [], flags := [], due := s.clk + 32, issueTime := a.issueTime, drops := drops, words := a.words, pc := a.pc, ovl := a.ovl
      brec := a.brec, seed := 0, entry := a.replay
      ops := ((oks.map fun x => x.1).flatMap fun x => [(x.lane, 0, x.index), (x.lane, 4, if x.helper then 1 else 0)]) ++
        zeros.map fun l => (l, 6, 1) }
  let s := { s with fresh := s.fresh + ids.length, pend := s.pend ++ [p] }
  let s := ids.foldl (fun s x =>
    let ty := pageOf a oks x.1
    let who := (lacking.filter fun y => overlaps y.2 x.1).flatMap fun y => a.eventLanes y.1
    s.addMsg { Msg.blank (base + x.2) .gets b.island b.core a.wid with
      lanes := who.eraseDups, gen := w.gen.toNat, words := x.1, ptype := ty.1, cls := ty.2, asker := some pid
      part := (s.grid b.grid).part, acq := a.isAcquire || ty.1 == 0, after := wbs.getD x.2 [] }) s
  let hits := oks.length - (lacking.filter fun x => !x.2.isEmpty).length
  (s.coreCount b.island b.core 6 hits).coreCount b.island b.core 7 ids.length

/-- Performs a load, or the read of a scalar load. Each lane of an `ldg.wait` that finds an unwritten word stalls by itself (R323); the
watch set takes the regions that members and following helpers read (R41); an acquire of cluster or island scope, or a read of a SEQ
page, drops the core's REL words (R75, R128). -/
def State.doLoad (s : State) (a : Access) (oks : List (LaneArg × Nat × Nat)) (zeros : List Nat) : State :=
  let b := s.block (s.warp a.wid).block
  let drops := (oks.any fun x => !x.1.helper && leafType x.2.1 == 0) || (a.isAcquire && 2 ≤ a.scope)
  let stalls (x : LaneArg × Nat × Nat) : Bool :=
    a.kind == .loadWait && leafType x.2.1 == 2 && !((wordsOf x.2.2 a.n).all s.written)
  let inst := s.fresh
  let now := oks.filter fun x => !stalls x
  let s1 := if now.isEmpty && zeros.isEmpty then s
    else s.sendLoad a inst (if a.kind = .scalar then .scalarLoad else .load) drops now zeros
  let s1 := (oks.filter stalls).foldl (fun s1 x => s1.sendLoad a inst .loadWait drops [x] []) s1
  let s1 := s1.modWarp a.wid fun w => w.watchWords (oks.flatMap fun x => wordsOf x.2.2 a.n)
  if drops then s1.dropRel b.island b.core else s1

/-! ### Stores (R324) -/

/-- The operations of stores: a 16-byte store is two of 8 bytes (R321). -/
def storeOps (a : Access) (oks : List (LaneArg × Nat × Nat)) : List AtomOp :=
  oks.flatMap fun x =>
    if a.n = 16 then [⟨x.1.lane, x.2.2, 8, 8, 0, 0, x.1.data % 2 ^ 64, 0⟩, ⟨x.1.lane, x.2.2 + 8, 8, 8, 0, 0, x.1.data / 2 ^ 64, 0⟩]
    else [⟨x.1.lane, x.2.2, 8, a.n, 0, 0, x.1.data, 0⟩]

/-- Operations by span: one message to the home slice for each (R124). -/
def opSpans (ops : List AtomOp) : List (List AtomOp) :=
  (allSpans (opWords ops)).filterMap fun sp =>
    let os := ops.filter fun o => (wordsOf o.pa o.bytes).all fun w => sp.contains w
    if os.isEmpty then none else some os

/-- Writes in place what the core holds EX or PV, and sends a WRITE for the rest (R128). On a ONCE page the WRITE sets the words' bits
as it is performed; no other write of them is issued until then (R83, R121). -/
def State.sendWrite (s : State) (a : Access) (b : Block) (page : Nat × Nat) (ops : List AtomOp) : State :=
  let ws := opWords ops
  let lanes := (ops.map fun o => o.lane).eraseDups
  let (id, s) := s.newId
  let m : Msg :=
    { Msg.blank id .write b.island b.core a.wid with
      lanes := lanes, gen := (s.warp a.wid).gen.toNat, words := ws, ptype := page.1, cls := page.2, ops := ops
      part := (s.grid b.grid).part, after := s.precede a lanes ws page.1 b.core b.island }
  if !m.after.isEmpty then (s.addMsg m).coreCount b.island b.core 7 1
  else
    let x := s.splitOwned b.island b.core ops
    let s := (s.runOwned b.island b.core false x.1).1
    if x.2.isEmpty then s else (s.addMsg { m with ops := x.2, words := opWords x.2 }).coreCount b.island b.core 7 1

/-- Performs a store. -/
def State.doStore (s : State) (a : Access) (oks : List (LaneArg × Nat × Nat)) : State :=
  let b := s.block (s.warp a.wid).block
  (opSpans (storeOps a oks)).foldl (fun s ops => s.sendWrite a b (pageOf a oks (opWords ops)) ops) s

/-! ### Atomics and unordered reductions (R327 to R329, R132 to R134) -/

/-- Where a span's atomics run. -/
inductive AtomPlace where
  | far | near | nearHeld
  deriving DecidableEq, Repr

/-- Whether the core holds the words of every operation EX (R134). -/
def State.holdsEx (s : State) (island core : Nat) (ops : List AtomOp) : Bool :=
  ops.all fun o => s.spans.any fun r => r.island == island && r.core == core && r.st == .ex && r.usable s &&
    (wordsOf o.pa o.bytes).all fun w => r.words.contains w

/-- ISL_COHMODE.PLAIN for an atomic that issues now: the value that stood when the core clock began (R134). -/
def State.plainMode (s : State) (island : Nat) : Bool :=
  match s.now.plain.find? fun x => x.1 == island with
  | some x => x.2 == 1
  | none => s.reg .islCohmode island % 2 == 1

/-- Where a span's atomics run (R132 to R134, R140), with the predictor's use noted, by an atomic that must run far too: `nearHeld` runs
near only on an EX span that the L1 holds. -/
def State.atomPlace (s : State) (island core : Nat) (ops : List AtomOp) : AtomPlace × State :=
  let ws := opWords ops
  if s.plainMode island then (if !s.mustFar island ws && s.holdsEx island core ops then .nearHeld else .far, s)
  else
    let (k, s) := s.predict island core ws
    (if k < 2 && !s.mustFar island ws then .near else .far, s)

/-- Sends one span's atomics near or far, or performs them in place. What runs near after earlier events of its threads waits for them
with its GETX. -/
def State.sendAtom (s : State) (a : Access) (b : Block) (page : Nat × Nat) (asker : Option Nat) (ops : List AtomOp) : State :=
  let ws := opWords ops
  let lanes := (ops.map fun o => o.lane).eraseDups
  let (id, s) := s.newId
  let m : Msg :=
    { Msg.blank id .atom b.island b.core a.wid with
      lanes := lanes, gen := (s.warp a.wid).gen.toNat, words := ws, ptype := page.1, cls := page.2, ops := ops, asker := asker
      part := (s.grid b.grid).part, acq := a.isAcquire || page.1 == 0, after := s.precede a lanes ws page.1 b.core b.island }
  let (place, s) := s.atomPlace b.island b.core ops
  if place != .far && m.after.isEmpty && s.ownsAll b.island b.core ops then s.nearNow m
  else
    let s := match asker with
      | some p => { s with pend := s.pend.map fun (x : Pend) => if x.id = p then { x with waiting := x.waiting ++ [id] } else x }
      | none => s
    let s := s.coreCount b.island b.core 7 1
    match place with
    | .far => (s.addMsg m).coreCount b.island b.core 9 1
    | .near => s.addMsg { m with kind := .getx, words := spanOver ws }
    | .nearHeld => s.addMsg { m with kind := .getx, words := spanOver ws, solo := true }

/-- Performs an atomic or an unordered reduction. -/
def State.doAtomic (s : State) (a : Access) (oks : List (LaneArg × Nat × Nat)) (zeros : List Nat) : State :=
  let w := s.warp a.wid
  let b := s.block w.block
  let seq := oks.any fun x => leafType x.2.1 == 0
  let drops := seq || (a.isAcquire && 2 ≤ a.scope)
  let ops := oks.map fun x => (⟨x.1.lane, x.2.2, a.aop, a.ty, a.rnd, a.seed, x.1.data, x.1.cmp⟩ : AtomOp)
  let (pid, s) := s.newId
  let p : Pend :=
    { id := pid, inst := pid, warp := a.wid, gen := w.gen.toNat, kind := if a.ret then .atomic else .load
      dst := a.dst, size := a.n, lanes := [], got := [], bad := [], waiting := [], who := []
      writes := if a.ret then zeros.flatMap fun l => (List.range (a.n / 4)).map fun k => (l, a.dst + k, 0#32) else []
      flags := [], due := s.clk + 32, issueTime := a.issueTime, drops := drops, words := a.words, pc := a.pc, ovl := a.ovl
      brec := a.brec, entry := if a.ret then a.replay else none
      ops := (oks.map fun x => x.1).flatMap fun x => [(x.lane, 0, x.index), (x.lane, 1, x.data), (x.lane, 2, x.cmp), (x.lane, 3, a.rnd)]
      seed := a.seed }
  let asks := a.ret || drops
  let s := if asks then { s with pend := s.pend ++ [p] } else s
  (opSpans ops).foldl (fun s os =>
    s.sendAtom a b (pageOf a oks (opWords os)) (if asks then some pid else none) os) s

/-! ### Ordered reductions (R329, R135) -/

/-- A flush of the warp's entries on which lanes wait until they are applied (R330). -/
def State.flushHeld (s : State) (wid : Nat) (lanes : List Nat) : State :=
  let s := s.flushWarp wid
  let ids := (s.msgs.filter fun m => m.isDrain && m.warp == wid).map fun m => m.id
  s.modWarp wid fun w => w.modThreads lanes fun t => { t with hold := t.hold ++ ids }

/-- Takes one contribution, or lets it wait where no entry is free or others wait already (R135). -/
def Warp.takeEntry (w : Warp) (a : Access) (x : LaneArg × Nat × Nat) : Warp :=
  let e : RedEntry := ⟨x.2.2, a.aop, a.ty, x.1.data, a.rnd, a.seed, w.pipe, w.warpNo, x.1.lane, w.redSeq⟩
  if w.red.length < 1024 && w.redLate.isEmpty then { w with red := w.red ++ [e], redSeq := w.redSeq + 1 }
  else { w with redLate := w.redLate ++ [e], redSeq := w.redSeq + 1 }

/-- Takes the contributions of an instruction. Where one finds no free entry the warp's own entries are flushed, as a `redflush` by the
group would: the contribution enters once they are applied (R135, R136), and the group waits until then. -/
def State.takeEntries (s : State) (a : Access) (xs : List (LaneArg × Nat × Nat)) : State :=
  let s := s.modWarp a.wid fun w => xs.foldl (fun w x => w.takeEntry a x) w
  if (s.warp a.wid).redLate.isEmpty then s else s.flushHeld a.wid (a.lanes.map fun y => y.lane)

/-! ### Parking (R375, R376) -/

/-- A log entry of an access for some lanes. -/
def Access.logEntry (a : Access) (num gen : Nat) (lanes : List LaneArg) (parked : Bool) (ptype : Nat) : LogEntry where
  num := num
  words := a.words
  pc := a.pc
  ovl := a.ovl
  lanes := if a.kind = .scalar then a.members else lanes.map fun x => x.lane
  ops := lanes.flatMap fun x =>
    [(x.lane, 0, x.index), (x.lane, 1, x.data), (x.lane, 2, x.cmp), (x.lane, 3, a.rnd), (x.lane, 4, if x.helper then 1 else 0)]
  brec := a.brec
  gen := gen
  issueTime := a.issueTime
  seed := a.seed
  parkedLanes := parked
  replay := false
  going := []
  ptype := ptype

/-- Posts the records of replayable faults: one for each class, with the lowest faulting line (R380; log 18). -/
def State.postFaults (s : State) (a : Access) (fs : List (LaneArg × Nat)) : State :=
  let w := s.warp a.wid
  let b := s.block w.block
  let asid := (s.grid b.grid).asid
  [0x10, 0x11, 0x16].foldl (fun s c =>
    let xs := fs.filter fun f => f.2 == c
    if xs.isEmpty then s
    else
      let va := (xs.map fun f => a.va f.1 / 256 * 256).foldl min (2 ^ 48)
      let info := va + asid * 2 ^ 48 + (if a.writes then 2 ^ 60 else 0)
      let lanes := if a.kind = .scalar then [] else xs.map fun f => f.1.lane
      s.post b.island (warpRecord s w c 1 (laneMask lanes) a.pc a.ovl info 0 0)) s

/-- Parks lanes with an entry `num` in the operand log (R375); on a replay the entry stands already. -/
def State.park (s : State) (a : Access) (num : Nat) (xs : List (LaneArg × Nat × Nat)) : State :=
  if xs.isEmpty then s
  else
    let fs := xs.map fun x => (x.1, x.2.1)
    let ptype := (xs.map fun x => x.2.2).headD 4
    let s := s.postFaults a fs
    let ls := if a.kind = .scalar then [] else fs.map fun f => f.1.lane
    match a.replay with
    | some k => s.modWarp a.wid fun w =>
        { w.modThreads ls (fun t => { t with st := .parked }) with
          log := w.log.map fun e => if e.num = k then { e with parkedLanes := true, replay := false, ptype := ptype } else e }
    | none =>
      s.modWarp a.wid fun w =>
        { w.modThreads ls (fun t => { t with st := .parked }) with
          log := w.log ++ [a.logEntry num w.gen.toNat (fs.map fun f => f.1) true ptype] }

/-- Stalls lanes at translation while their page is in TRANSIT (R157): they issue nothing further until it ends (log 19), nor until entry
`num` is replayed, if they are put into it. The lanes of a replay are in their entry already. -/
def State.stallLanes (s : State) (a : Access) (num : Nat) (xs : List LaneArg) : State :=
  match xs with
  | [] => s
  | x :: _ =>
    let (id, s) := s.newId
    let b := s.block (s.warp a.wid).block
    let e := a.logEntry num (s.warp a.wid).gen.toNat xs false 4
    let s := if a.replay.isSome then s
      else s.modWarp a.wid fun w => w.modThreads e.lanes fun t => { t with hold := t.hold ++ [id, num] }
    { s with stalls := s.stalls ++ [⟨id, a.wid, e, s.itime b.island, a.va x, a.writes⟩] }

/-! ### The access as a whole (R374) -/

/-- What an access comes to. -/
inductive AccOut where
  | wait
  | stop (s : State) (cls lanes va : Nat)
  | done (s : State)

/-- Performs the access for the lanes that go on. -/
def State.act (s : State) (a : Access) (oks : List (LaneArg × Nat × Nat)) (zeros : List Nat) : State :=
  let mem := oks.filter fun x => !x.1.helper
  match a.kind with
  | .load | .loadWait | .scalar => if oks.isEmpty && zeros.isEmpty then s else s.doLoad a oks zeros
  | .store => s.doStore a mem
  | .atomic | .red => if mem.isEmpty && zeros.isEmpty then s else s.doAtomic a mem zeros
  | .redOrd => if mem.isEmpty then s else s.takeEntries a mem

/-- Lanes that a failed bounds check switches off: the lane, or for a scalar access every admitted member still neither exited
nor switched off (R325). -/
def Access.outLanes (a : Access) (w : Warp) (rs : List (LaneArg × LaneRes)) : List Nat :=
  if rs.any fun r => !r.1.helper && r.2 == .outside then
    if a.kind = .scalar then a.members.filter fun l => (w.thread l).st != .exited && (w.thread l).st != .switchedOff
    else rs.filterMap fun r => if !r.1.helper && r.2 == .outside then some r.1.lane else none
  else []

/-- Whether a log entry keeps a lane parked (R375): a scalar load parks none, and a request packet is of no parked lane. -/
def LogEntry.parksLane (e : LogEntry) (l : Nat) : Bool := e.parkedLanes && !e.isScalar && e.lanes.contains l

/-- The replay of entry `k` has completed in some lanes (R376, R377): the entry no longer names them and is freed with the last of them,
and a lane that no entry keeps parked any more is Active again. -/
def Warp.endReplay (w : Warp) (k : Nat) (ls : List Nat) : Warp :=
  let log := (w.log.map fun (e : LogEntry) =>
    if e.num = k then { e with lanes := e.lanes.filter fun l => !ls.contains l, going := e.going.filter fun l => !ls.contains l }
    else e).filter fun e => e.num != k || !e.lanes.isEmpty
  let back := ls.filter fun l =>
    (w.thread l).st == .parked && (w.log.any fun e => e.num == k && e.parksLane l) && !log.any fun e => e.parksLane l
  { w.modThreads back (fun t => { t with st := .active }) with log := log }

/-- Whether lanes of an access get a result when it returns. -/
def Access.returns (a : Access) : Bool :=
  match a.kind with
  | .load | .loadWait | .scalar => true
  | .atomic | .red => a.ret
  | .store | .redOrd => false

/-- After a replay has been made (R377): of an entry of parked lanes, those that went on complete, or stay parked until their result is
written (R376); a lane that was switched off leaves it. A request packet keeps the lanes that did not go on. -/
def Warp.settle (w : Warp) (k : Nat) (late : Bool) (went stayed : List Nat) : Warp :=
  let parked := w.log.any fun e => e.num == k && e.parkedLanes
  let log := w.log.map fun (e : LogEntry) =>
    if e.num != k then e
    else { e with
      replay := false
      lanes := e.lanes.filter fun l => stayed.contains l || e.going.contains l || parked && went.contains l
      going := if parked && late then e.going ++ went else e.going }
  let w := { w with log := log.filter fun e => e.num != k || !e.lanes.isEmpty }
  if parked && !late then w.endReplay k went else w

/-- The lanes of the replayed entry that went on, and those that did not: of a scalar access, all of them together. -/
def State.settle (s : State) (a : Access) (went stayed : List Nat) : State :=
  match a.replay with
  | none => s
  | some k =>
    let all (ls : List Nat) : List Nat := if a.kind = .scalar && !ls.isEmpty then a.members else ls
    s.modWarp a.wid fun w => w.settle k a.returns (all went) (all stayed)

/-- A helper lane whose address breaks the alignment or gap rules, which are tested in members only: it receives zero (R31, R110, R321). -/
def Access.offGrid (a : Access) (x : LaneArg) : Bool := recGaps a.brec.toNat a.n || a.va x % a.n != 0

/-- Whether a helper lane receives zero instead of its access: an address out of rule, a class that a member would raise, or unwritten
words under `.wait` (R31, R110, R323). A page in TRANSIT stalls it as it does a member (R157). -/
def State.helperZero (s : State) (a : Access) (r : LaneArg × LaneRes) : Bool :=
  r.1.helper && (a.offGrid r.1 || match r.2 with
    | .ok e pa => a.kind == .loadWait && leafType e == 2 && !((wordsOf pa a.n).all s.written)
    | .transit | .busy => false
    | _ => true)

/-- Checks and performs an access (R374): lane checks, warp-stopping classes, replayable classes, then the access. A helper lane waits for
its own earlier events as a member does (R31). The lanes that park and those that stall share one entry (R375). -/
def State.access (s : State) (a : Access) : AccOut :=
  let (rs, s) := s.resolveAll a a.lanes
  let off := a.outLanes (s.warp a.wid) rs
  if rs.any fun r => !(r.1.helper && a.offGrid r.1) && r.2 == .busy then .wait
  else match (stopsOf a rs).head? with
  | some f =>
    .stop (s.switchOff a.wid off 0x21 a.pc a.ovl) f.2.1
      (laneMask (((stopsOf a rs).filter fun x => x.2.1 == f.2.1).map fun x => x.1)) f.2.2
  | none =>
    let live := rs.filter fun r => !s.helperZero a r
    let oks := oksOf live
    if oks.any fun x => s.mustWait a x.1 x.2.1 x.2.2 then .wait
    else
      let faults := live.filterMap fun r => match r.2 with | .fault c t => some (r.1, c, t) | _ => none
      let transit := live.filterMap fun r => if r.2 == .transit then some r.1 else none
      let zeros := a.zero ++ (rs.filter (s.helperZero a)).map fun r => r.1.lane
      let s := s.act a oks zeros
      let (num, s) := if a.replay.isNone && !(faults.isEmpty && transit.isEmpty) then s.newId else (a.replay.getD 0, s)
      let s := s.park a num faults
      let s := s.stallLanes a num transit
      let s := s.settle a (oks.map fun x => x.1.lane) (faults.map (fun f => f.1.lane) ++ transit.map fun x => x.lane)
      .done (s.switchOff a.wid off 0x21 a.pc a.ovl)

/-! ### From the issue, and by replay -/

/-- EffRM of ARND (R55, R328). -/
def atomRM (w : Warp) (arnd : Nat) : Nat := if arnd = 6 then (if 6 ≤ w.mode.toNat % 8 then 0 else w.mode.toNat % 8) else arnd

/-- Fills an access in from what was read at issue. -/
def Access.issued (a : Access) (s : State) (c : Ctx) (brec : Nat) : Access :=
  { a with brec := c.w.bufRec brec, words := c.words, pc := c.i.pc, ovl := c.ovl, issueTime := s.itime c.b.island
           rnd := atomRM c.w a.rnd, seed := c.w.srseed.toNat }

/-- Whether a warp's VA or access lies in an address space, for the triggers of R377. -/
def State.warpAsid (s : State) (wid : Nat) : Nat := (s.grid (s.block (s.warp wid).block).grid).asid

/-- Replays an access from its log entry (R377): success writes destinations and frees lanes; a warp-stopping class stops the warp, names
every lane of a scalar load, and keeps the entry; a wait leaves it marked, for ACCESS_REPLAY to try again. -/
def State.replayAccess (s : State) (wid : Nat) (e : LogEntry) (a : Access) : State :=
  match s.access a with
  | .wait => s.modWarp wid fun w =>
      { w with log := w.log.map fun x => if x.num = e.num then { x with replay := true } else x }
  | .done s => s
  | .stop s cls lanes va =>
    let mask := if e.isScalar then laneMask e.lanes else lanes
    (s.stopWarp wid cls mask e.pc e.ovl (va + s.warpAsid wid * 2 ^ 48) 0).modWarp wid fun w => { w with stopReplay := some e.num }

end Sys2Proof.Machine
end

