-- ==== Sys2Proof/Machine/FloatLanes.lean ====
section
/-!
DEFINITION. The floating-point instructions of opcodes 0x40 to 0x61 (R296 to R311) and lane exchange, opcodes 0x80 to
0x8B (R312 to R319).
-/
namespace Sys2Proof.Machine

/-- EffRM (R55): code 6 takes MODE.RND, whose codes 6 and 7 act as rne. -/
def effRM (w : Warp) (md : BitVec 9) : Nat :=
  let r := md.toNat / 64
  if r = 6 then (if 6 ≤ w.mode.toNat % 8 then 0 else w.mode.toNat % 8) else r

/-- FTZ of MOD (R246). -/
def mdFtz (md : BitVec 9) : Bool := md.getLsbD 4

/-- The warp after an issue: SRSEED advances in stochastic mode (R62). -/
def seedStep (md : BitVec 9) (w : Warp) : Warp :=
  if effRM w md = 5 then { w with srseed := BitVec.ofNat 64 (nextSeed w.srseed.toNat) } else w

/-- Round for lane l and element j of an issuing instruction (R56), with the flags the operation itself raised. -/
def Ctx.round (c : Ctx) (ty : Nat) (md : BitVec 9) (l j : Nat) (x : FVal × BitVec 32) : Nat × BitVec 32 :=
  let r := fround x.1 ty (effRM c.w md) (mdSat md) (mdFtz md) (stochHigh c.w.srseed.toNat l j)
  (r.1, r.2 ||| x.2)

/-- The result of one operation element by element (R297): `f j xs` gives the bits of element j and its flags, from the
elements' bits. -/
def fElems (dst n : Nat) (pk : Bool) (f : Nat → List Nat → Nat × BitVec 32) (xs : List Nat) : LaneOut :=
  if pk then
    let e (j : Nat) : Nat × BitVec 32 := f j (xs.map fun x => x / 2 ^ (16 * j) % 2 ^ 16)
    { vals := [(dst, n, (e 0).1 + (e 1).1 * 2 ^ 16)], flags := (e 0).2 ||| (e 1).2 }
  else
    let e := f 0 xs
    { vals := [(dst, n, e.1)], flags := e.2 }

/-- A V3 floating-point instruction that rounds `f` of its decoded operands (R299). -/
def fRounded (w : WordV3) (u : Usage) (f : Nat → List FVal → FVal × BitVec 32) (s : State) : Out :=
  let ty := w.ty.toNat
  laneInstr s w.guard u 1 (fun c l xs =>
    fElems w.dst.toNat (regsOf ty) (mdPk w.md) (fun j es =>
      c.round ty w.md l j (f (effRM c.w w.md) (es.map fun e => fdecode ty e (mdFtz w.md)))) xs) (seedStep w.md)

/-- An exact result encoded in a format without rounding (R300). -/
def fexact (ty : Nat) (x : FVal) : Nat := (fround x ty 0 false false 0).1

/-- A V3 floating-point instruction that never rounds (R300). -/
def fPlain (w : WordV3) (u : Usage) (f : List FVal → FVal × BitVec 32) (s : State) : Out :=
  let ty := w.ty.toNat
  laneInstr s w.guard u 1 fun _ _ xs =>
    fElems w.dst.toNat (regsOf ty) (mdPk w.md) (fun _ es =>
      let r := f (es.map fun e => fdecode ty e (mdFtz w.md))
      (fexact ty r.1, r.2)) xs

/-- First, second and third floating-point operand. -/
def fa (xs : List FVal) (i : Nat) : FVal := xs.getD i (.nan false)

/-- `fadd` (R299). -/
def execFadd (w : WordV3) (s : State) : Out :=
  fRounded w (useF w tyF true true true true [0]) (fun rm x => exactSum [fa x 0, fa x 1] rm) s
/-- `fsub` (R299). -/
def execFsub (w : WordV3) (s : State) : Out :=
  fRounded w (useF w tyF true true true true [0]) (fun rm x => exactSum [fa x 0, (fa x 1).neg] rm) s
/-- `fmul` (R299). -/
def execFmul (w : WordV3) (s : State) : Out :=
  fRounded w (useF w tyF true true true true [0]) (fun _ x => fmul (fa x 0) (fa x 1)) s

/-- `ffma` (R299). -/
def execFfma (w : WordV4) (s : State) : Out :=
  let ty := w.ty.toNat
  laneInstr s w.guard (useFfma w) 2 (fun c l xs =>
    fElems w.dst.toNat (regsOf ty) (mdPk w.md) (fun j es =>
      let x := es.map fun e => fdecode ty e (mdFtz w.md)
      c.round ty w.md l j (fmulAdd (fa x 0) (fa x 1) (fa x 2) (effRM c.w w.md))) xs) (seedStep w.md)

/-- `fmin` (R300). -/
def execFmin (w : WordV3) (s : State) : Out :=
  fPlain w (useF w tyF true false false true [0]) (fun x => fminmax false (fa x 0) (fa x 1)) s
/-- `fmax` (R300). -/
def execFmax (w : WordV3) (s : State) : Out :=
  fPlain w (useF w tyF true false false true [0]) (fun x => fminmax true (fa x 0) (fa x 1)) s

/-- A value with the given sign. -/
def FVal.withSign (n : Bool) : FVal → FVal
  | .nan s => .nan s
  | .inf _ => .inf n
  | .fin _ m e st => .fin n m e st

/-- `fabs` (R300). -/
def execFabs (w : WordV3) (s : State) : Out :=
  fPlain w (useF w tyF false false false true [0]) (fun x => ((fa x 0).withSign false, 0)) s
/-- `fneg` (R300). -/
def execFneg (w : WordV3) (s : State) : Out :=
  fPlain w (useF w tyF false false false true [0]) (fun x => ((fa x 0).neg, 0)) s

/-- The latency of the root and divide group (R305). -/
def rootLatency (ty : Nat) : Nat := if ty = 5 then 24 else 12

/-- What a special function writes in lane l, from its operands (R304). -/
def specialOut (w : WordV3) (f : Nat → List FVal → FVal × BitVec 32) (c : Ctx) (l : Nat) (xs : List Nat) : LaneOut :=
  let ty := w.ty.toNat
  fElems w.dst.toNat (regsOf ty) (mdPk w.md) (fun j es =>
    c.round ty w.md l j (f (effRM c.w w.md) (es.map fun e => fdecode ty e (mdFtz w.md)))) xs

/-- A special function (R304, R305): rounded at issue, returned after its latency. -/
def fSpecial (w : WordV3) (u : Usage) (latency : Nat) (f : Nat → List FVal → FVal × BitVec 32) (s : State) : Out :=
  lateInstr s w.guard u 1 .special (fun _ => .go) (fun _ => latency) (specialOut w f) (seedStep w.md)

/-- `fdiv` (R304). -/
def execFdiv (w : WordV3) (s : State) : Out :=
  fSpecial w (useF w tyF true true true true [0]) (rootLatency w.ty.toNat) (fun _ x => fdiv (fa x 0) (fa x 1)) s
/-- `fsqrt` (R304). -/
def execFsqrt (w : WordV3) (s : State) : Out :=
  fSpecial w (useF w tyF false true true true [0]) (rootLatency w.ty.toNat) (fun _ x => fsqrtV (fa x 0)) s
/-- `frsqrt` (R304). -/
def execFrsqrt (w : WordV3) (s : State) : Out :=
  fSpecial w (useF w tyF false true true true [0]) (rootLatency w.ty.toNat) (fun _ x => frsqrtV (fa x 0)) s
/-- `frcp` (R304). -/
def execFrcp (w : WordV3) (s : State) : Out :=
  fSpecial w (useF w tyF false true true true [0]) (rootLatency w.ty.toNat) (fun _ x => frcpV (fa x 0)) s

/-- Types of the one-argument functions of 0x59 to 0x5E (R298). -/
def tyS : List Nat := [4, 6, 7]

/-- `fexp2` (R304). -/
def execFexp2 (w : WordV3) (s : State) : Out :=
  fSpecial w (useF w tyS false true true true [0]) 16 (fun _ x => specialV .exp2 (fa x 0)) s
/-- `flog2` (R304). -/
def execFlog2 (w : WordV3) (s : State) : Out :=
  fSpecial w (useF w tyS false true true true [0]) 16 (fun _ x => specialV .log2 (fa x 0)) s
/-- `fsin` (R304). -/
def execFsin (w : WordV3) (s : State) : Out :=
  fSpecial w (useF w tyS false true true true [0]) 20 (fun _ x => specialV .sin (fa x 0)) s
/-- `fcos` (R304). -/
def execFcos (w : WordV3) (s : State) : Out :=
  fSpecial w (useF w tyS false true true true [0]) 20 (fun _ x => specialV .cos (fa x 0)) s
/-- `ftanh` (R304). -/
def execFtanh (w : WordV3) (s : State) : Out :=
  fSpecial w (useF w tyS false true true true [0]) 16 (fun _ x => specialV .tanh (fa x 0)) s
/-- `fsigm` (R304). -/
def execFsigm (w : WordV3) (s : State) : Out :=
  fSpecial w (useF w tyS false true true true [0]) 16 (fun _ x => specialV .sigm (fa x 0)) s

/-- The relations of R301. -/
def frelation (op : Nat) (a b : FVal) : Bool :=
  let un := a.isNan || b.isNan
  let lt := !un && fless false a b
  let gt := !un && fless false b a
  match op with
  | 0 => !un && !lt && !gt
  | 1 => un || lt || gt
  | 2 => lt
  | 3 => !un && !gt
  | 4 => gt
  | 5 => !un && !lt
  | 6 => un
  | _ => !un

/-- `fcmp` (R301). -/
def execFcmp (w : WordV3) (s : State) : Out :=
  laneInstr s w.guard (useFcmp w) 1 fun _ _ xs =>
    let a := fdecode w.ty.toNat (argN xs 0) (mdFtz w.md)
    let b := fdecode w.ty.toNat (argN xs 1) (mdFtz w.md)
    let op := mdOp w.md
    let inv := if 2 ≤ op && op ≤ 5 then a.isNan || b.isNan else (a.sigFlag ||| b.sigFlag) != 0
    { preds := [(w.dst.toNat, frelation op a b)], flags := if inv then fINV else 0 }

/-- The class bit of a value of format f (R302). -/
def fclassBit (f : Fmt) : FVal → Nat
  | .nan sig => if sig then 8 else 9
  | .inf n => if n then 0 else 7
  | .fin n m _ _ =>
    if m = 0 then (if n then 3 else 4)
    else if m < 2 ^ f.mb then (if n then 2 else 5)
    else if n then 1 else 6

/-- `fclass` (R302). -/
def execFclass (w : WordV3) (s : State) : Out :=
  laneInstr s w.guard (useFclass w) 1 fun _ _ xs =>
    { vals := [(w.dst.toNat, 1, 2 ^ fclassBit (fmtOf w.ty.toNat) (fdecode w.ty.toNat (argN xs 0) (mdFtz w.md)))] }

/-- A VI floating-point instruction: rne, no SAT, no FTZ (R299). -/
def fImm (w : WordVI) (f : FVal → FVal → FVal × BitVec 32) (s : State) : Out :=
  let t := w.type3.toNat
  laneInstr s w.guard (useFI w) 1 fun _ _ xs =>
    let r := f (fdecode t (argN xs 0) false) (fdecode t (viImm t w.imm24.toNat) false)
    let y := fround r.1 t 0 false false 0
    { vals := [(w.dst.toNat, regsOf3 t, y.1)], flags := y.2 ||| r.2 }

/-- `faddi` (R299). -/
def execFaddi (w : WordVI) (s : State) : Out := fImm w (fun a i => exactSum [a, i] 0) s
/-- `fmuli` (R299). -/
def execFmuli (w : WordVI) (s : State) : Out := fImm w fmul s

/-- A packed dot product into f32 (R299): `n` elements of `k` bits. -/
def fDotInstr (w : WordV4) (types : List Nat) (n k : Nat) (s : State) : Out :=
  let ftz := mdFtz w.md
  laneInstr s w.guard (useFdot w types) 2 (fun c l xs =>
    let el (x j : Nat) : FVal := fdecode w.ty.toNat (x / 2 ^ (k * j) % 2 ^ k) ftz
    let ps := (List.range n).map fun j => (el (argN xs 0) j, el (argN xs 1) j)
    let r := c.round 4 w.md l 0 (fdot (fdecode 4 (argN xs 2) ftz) ps (effRM c.w w.md))
    { vals := [(w.dst.toNat, 1, r.1)], flags := r.2 }) (seedStep w.md)

/-- `fdot2` (R299). -/
def execFdot2 (w : WordV4) (s : State) : Out := fDotInstr w [6, 7] 2 16 s
/-- `fdot4` (R299). -/
def execFdot4 (w : WordV4) (s : State) : Out := fDotInstr w [8, 9] 4 8 s

/-- The value rounded to an integer with its sign (R303). -/
def roundIntegral (x : FVal) (rm draw : Nat) : FVal :=
  match x with
  | .fin n m e st => if 0 ≤ e then x else .fin n (roundInt m (-e).toNat st n rm draw).1 0 false
  | x => x

/-- `fround` (R303). -/
def execFround (w : WordV3) (s : State) : Out :=
  let ty := w.ty.toNat
  laneInstr s w.guard (useF w tyF false true false true [0]) 1 (fun c l xs =>
    fElems w.dst.toNat (regsOf ty) (mdPk w.md) (fun j es =>
      let x := fdecode ty (es.headD 0) (mdFtz w.md)
      (fexact ty (roundIntegral x (effRM c.w w.md) (stochHigh c.w.srseed.toNat l j)), x.sigFlag)) xs) (seedStep w.md)

/-- `fcvt` (R307). -/
def execFcvt (w : WordV3) (s : State) : Out :=
  laneInstr s w.guard (useFcvt w) 1 (fun c l xs =>
    let x := fdecode (fcvtSrc (mdOp w.md)) (argN xs 0) (mdFtz w.md)
    let r := c.round w.ty.toNat w.md l 0 (x, x.sigFlag)
    { vals := [(w.dst.toNat, regsOf w.ty.toNat, r.1)], flags := r.2 }) (seedStep w.md)

/-- `f2i` (R308). -/
def execF2i (w : WordV3) (s : State) : Out :=
  let ty := w.ty.toNat
  let n := tyW ty
  let lo : Int := if tySigned ty then -(2 ^ (n - 1) : Nat) else 0
  let hi : Int := if tySigned ty then (2 ^ (n - 1) : Nat) - 1 else (2 ^ n : Nat) - 1
  laneInstr s w.guard (useF2i w) 1 (fun c l xs =>
    let x := fdecode (fcvtSrc (mdOp w.md)) (argN xs 0) (mdFtz w.md)
    let r := toInt x lo hi (effRM c.w w.md) (stochHigh c.w.srseed.toNat l 0)
    { vals := [(w.dst.toNat, regsOf ty, extendInt ty (wrapN n r.1))], flags := r.2 }) (seedStep w.md)

/-- An integer as an exact value. -/
def ofInt (v : Int) : FVal := .fin (v < 0) v.natAbs 0 false

/-- `i2f` (R308). -/
def execI2f (w : WordV3) (s : State) : Out :=
  laneInstr s w.guard (useI2f w) 1 (fun c l xs =>
    let r := c.round w.ty.toNat w.md l 0 (ofInt (readInt (icvtSrc (mdOp w.md)) (argN xs 0)), 0)
    { vals := [(w.dst.toNat, regsOf w.ty.toNat, r.1)], flags := r.2 }) (seedStep w.md)

/-- `fpack` (R309). -/
def execFpack (w : WordV4) (s : State) : Out :=
  let ty := w.ty.toNat
  let k := w.xmod.toNat
  laneInstr s w.guard (useFpack w) 2 (fun c l xs =>
    let el (i : Nat) : Nat × BitVec 32 :=
      let x := fdecode 4 (argN xs i) (mdFtz w.md)
      c.round ty w.md l i (x, x.sigFlag)
    let v :=
      if ty = 6 || ty = 7 then (el 1).1 * 2 ^ 16 + (el 0).1
      else if ty = 14 then setBits (argN xs 2) (8 * k + 7) (8 * k) ((el 0).1 + (el 1).1 * 16)
      else setBits (argN xs 2) (16 * k + 15) (16 * k) ((el 0).1 + (el 1).1 * 256)
    { vals := [(w.dst.toNat, 1, v)], flags := (el 0).2 ||| (el 1).2 }) (seedStep w.md)

/-- `funpack` (R310). -/
def execFunpack (w : WordV3) (s : State) : Out :=
  let ty := w.ty.toNat
  let n := if ty = 14 then 4 else if ty = 8 || ty = 9 then 8 else 16
  laneInstr s w.guard (useFunpack w) 1 fun _ _ xs =>
    let x := fdecode ty (argN xs 0 / 2 ^ (n * mdOp w.md) % 2 ^ n) (mdFtz w.md)
    { vals := [(w.dst.toNat, 1, fexact 4 x)], flags := x.sigFlag }

/-- A value times a power of two (R299). -/
def fscaleBy (x : FVal) (n : Int) : FVal :=
  match x with
  | .fin s m e st => .fin s m (e + n) st
  | x => x

/-- `fscale` (R299). -/
def execFscale (w : WordV3) (s : State) : Out :=
  let ty := w.ty.toNat
  laneInstr s w.guard (useFscale w) 1 (fun c l xs =>
    fElems w.dst.toNat (regsOf ty) (mdPk w.md) (fun j es =>
      let x := fdecode ty (es.headD 0) (mdFtz w.md)
      let n := max (-8000) (min 8000 (sext 32 (argN xs 1)))
      c.round ty w.md l j (fscaleBy x n, x.sigFlag)) [argN xs 0]) (seedStep w.md)

/-- `fsgn` (R300). -/
def execFsgn (w : WordV3) (s : State) : Out :=
  let ty := w.ty.toNat
  let f := fmtOf ty
  laneInstr s w.guard (useFsgn w) 1 fun _ _ xs =>
    fElems w.dst.toNat (regsOf ty) (mdPk w.md) (fun _ es =>
      let a := fdecode ty (argN es 0) (mdFtz w.md)
      let r :=
        if mdOp w.md = 1 then a.withSign ((argN es 1 / 2 ^ (f.eb + f.mb)) % 2 == 1)
        else if a.isNan || a.isZero then a
        else .fin a.isNeg 1 0 false
      (fexact ty r, 0)) xs

/-- a − ⌊a⌋ as an exact value; a zero is +0, whatever the mode (R299; log 85). -/
def fracV (a : FVal) : FVal × BitVec 32 :=
  match a with
  | .nan sg => (.nan false, if sg then fINV else 0)
  | .inf _ => (.nan false, fINV)
  | .fin n m e st =>
    let k := (-e).toNat
    if m % 2 ^ k = 0 then (.fin false 0 0 false, 0)
    else exactSum [.fin n m e st, .fin (!n) (m / 2 ^ k + if n then 1 else 0) 0 false] 0

/-- `ffrac` (R299). -/
def execFfrac (w : WordV3) (s : State) : Out :=
  fRounded w (useF w tyF false true false true [0]) (fun _ x => fracV (fa x 0)) s

/-- The E8M0 scale of a largest magnitude (R311). -/
def mxScale : FVal → Nat
  | .fin _ m e _ => if m = 0 then 0 else (min 254 (max 0 (log2i m + e - 2 + 127))).toNat
  | _ => 0xFF

/-- `fmxsc` (R311). -/
def execFmxsc (w : WordV3) (s : State) : Out :=
  laneInstr s w.guard (useFmxsc w) 1 fun _ _ xs =>
    { vals := [(w.dst.toNat, 1, mxScale (fdecode 4 (argN xs 0) (mdFtz w.md)))] }

/-! ### Lane exchange (R312 to R319) -/

/-- Lanes of l's tile that exist and are neither exited, helper nor switched off (R314). -/
def Ctx.tileLive (c : Ctx) (l : Nat) : List Nat :=
  (tileOf c.w l).filter fun k => (c.w.thread k).st.live

/-- The named set N(l) of a member (R314): the tile form, or the mask form with l's own mask. -/
def Ctx.named (c : Ctx) (mask : Option Nat) (l : Nat) : List Nat :=
  match mask with
  | none => c.tileLive l
  | some r => (c.tileLive l).filter fun k => k == l || (readV c.w l r 1).testBit k

/-- Whether the group may issue (R314): every named lane of every admitted member has arrived. -/
def Ctx.arrived (c : Ctx) (g : BitVec 4) (mask : Option Nat) : Bool :=
  (c.members g).all fun l => (c.named mask l).all fun k => c.i.lanes.contains k

/-- The contributors C(l) of a member, and of a helper, which takes the tile form (R314). -/
def Ctx.contributors (c : Ctx) (g : BitVec 4) (mask : Option Nat) (l : Nat) : List Nat :=
  (c.named (if c.i.helpers.contains l then none else mask) l).filter fun k => (c.members g).contains k

/-- Members of the group and helpers that follow it. -/
def Ctx.present (c : Ctx) (k : Nat) : Bool := c.i.lanes.contains k || c.i.helpers.contains k

/-- Whether lane l of an exchange receives a dead register; with `trapOnly`, one whose read traps (R313). `reads l` are the lanes whose
first source lane l reads; every other source is its own. -/
def receivesDead (c : Ctx) (u : Usage) (reads : Ctx → Nat → List Nat) (trapOnly : Bool) (l : Nat) : Bool :=
  (u.srcs.zipIdx).any fun x =>
    (!trapOnly || c.w.ptrap || x.1.2.2 % 2 == 1) &&
      if x.2 = 0 then (reads c l).any fun k => isDead c.w k x.1.1 x.1.2.1 else isDead c.w l x.1.1 x.1.2.1

/-- Whether the first source is empty in a lane that an admitted lane reads and that is neither a member nor a helper that follows: the
group waits for it too (R96, R313). -/
def farEmpty (c : Ctx) (g : BitVec 4) (u : Usage) (reads : Ctx → Nat → List Nat) : Bool :=
  (c.members g ++ c.helpers g).any fun l => (reads c l).any fun k => !c.present k && (u.srcs.take 1).any fun x => isEmptyV c.w k x.1 x.2.1

/-- Lanes in which an exchange raises POISON_TRAP (R98, R256, R313): an admitted member that receives a dead register, and any member, whatever
lanes the guard admits, of whose own sources one is dead. The first source is another lane's unless `own0` holds. -/
def exchangeTraps (c : Ctx) (g : BitVec 4) (u : Usage) (own0 : Bool) (reads : Ctx → Nat → List Nat) : List Nat :=
  c.i.lanes.filter fun l =>
    ((u.srcs.zipIdx).any fun x => (own0 || x.2 != 0) && (c.w.ptrap || x.1.2.2 % 2 == 1) && isDead c.w l x.1.1 x.1.2.1) ||
      (c.members g).contains l && receivesDead c u reads true l

/-- The checks of an exchange (R256, R313, R314): encoding, full/empty, arrival, poison. -/
def exchangeChecks (g : BitVec 4) (u : Usage) (own0 : Bool) (waits : Ctx → Bool) (reads : Ctx → Nat → List Nat) (c : Ctx) : Check :=
  (checkEncoding c u).andThen ((checkEmpty c u (c.members g ++ c.helpers g)).andThen
    ((if farEmpty c g u reads || waits c then Check.wait else .go).andThen
      (let t := exchangeTraps c g u own0 reads
       if t.isEmpty then .go else .stop 0x06 t 0 0)))

/-- Results of zero in place of a lane's own (R31). -/
def zeroOut (o : LaneOut) : LaneOut := { vals := o.vals.map fun v => (v.1, v.2.1, 0), preds := o.preds.map fun p => (p.1, false) }

/-- A lane-exchange instruction. Poison is flagged, and traps, in the lane that receives the value (R313). -/
def exchange (s : State) (g : BitVec 4) (u : Usage) (own0 : Bool) (waits : Ctx → Bool) (reads : Ctx → Nat → List Nat)
    (f : Ctx → Nat → LaneOut) (after : Ctx → Warp → Warp := fun _ w => w) : Out :=
  issueWith s (exchangeChecks g u own0 waits reads) fun c =>
    let w := ((c.members g).filter (receivesDead c u reads false)).foldl (fun w l => w.setFlags l flagPoison) c.w
    let w := w.lastUse c u
    let w := (c.members g).foldl (fun w l => w.writeLane l false (f c l)) w
    let w := (c.helpers g).foldl (fun w l =>
      w.writeLane l true (if receivesDead c u reads true l then zeroOut (f c l) else f c l)) w
    s.setWarp c.wid (after c (w.advance c.i.lanes 1))

/-- The mask operand of a lane-exchange word other than `shfl`. -/
def maskSb (w : WordV3) : Option Nat := if mkOf w.md then some w.sb.toNat else none

/-- Source lane of `shfl` (R315), if any. -/
def shflSource (op tw l d : Nat) : Option Nat :=
  let b := l % tw
  let t := l - b
  match op with
  | 0 => some (t + d % tw)
  | 1 => if l < d + t then none else some (l - d)
  | 2 => if t + tw ≤ l + d then none else some (l + d)
  | _ => some (t + (b ^^^ (d % tw)))

/-- The lane whose value lane l receives from `shfl`, and whether SHFL_OOB is set (R315). -/
def shflFrom (c : Ctx) (w : WordV3) (l : Nat) : Nat × Bool :=
  let mask := if mkOf w.md && !c.i.helpers.contains l then some (w.sb.toNat + 1) else none
  match shflSource (mdOp w.md) c.w.tilew.toNat l (readV c.w l w.sb.toNat 1) with
  | none => (l, false)
  | some k =>
    if c.w.threads.length ≤ k then (l, true)
    else if c.i.helpers.contains k || (c.named mask l).contains k then (k, false)
    else (l, false)

/-- `shfl` (R315). -/
def execShfl (w : WordV3) (s : State) : Out :=
  let n := regsOf w.ty.toNat
  exchange s w.guard (useShfl w) false (fun c => !c.arrived w.guard (if mkOf w.md then some (w.sb.toNat + 1) else none))
    (fun c l => [(shflFrom c w l).1]) fun c l =>
      { vals := [(w.dst.toNat, n, readV c.w (shflFrom c w l).1 w.sa.toNat n)],
        flags := if (shflFrom c w l).2 then flagShfl else 0 }

/-- `vote` (R316). -/
def execVote (w : WordV3) (s : State) : Out :=
  exchange s w.guard (useVote w true [0, 1, 2]) true (fun c => !c.arrived w.guard (maskSb w)) (fun _ l => [l]) fun c l =>
    let ps := (c.contributors w.guard (maskSb w) l).map fun k => readPred (c.w.thread k).p w.sa.toNat
    let r := match mdOp w.md with
      | 0 => ps.all id
      | 1 => ps.any id
      | _ => ps.all id || ps.all (!·)
    { preds := [(w.dst.toNat, r)] }

/-- `ballot` (R316). -/
def execBallot (w : WordV3) (s : State) : Out :=
  exchange s w.guard (useVote w false [0]) true (fun c => !c.arrived w.guard (maskSb w)) (fun _ l => [l]) fun c l =>
    { vals := [(w.dst.toNat, 1, laneMask ((c.contributors w.guard (maskSb w) l).filter fun k =>
        readPred (c.w.thread k).p w.sa.toNat))] }

/-- The contributors of `match`: without a mask, the admitted members of the tile (R314). -/
def matchSet (c : Ctx) (w : WordV3) (l : Nat) : List Nat :=
  if mkOf w.md then c.contributors w.guard (maskSb w) l
  else (tileOf c.w l).filter fun k => (c.members w.guard).contains k

/-- `match` (R316). -/
def execMatchLanes (w : WordV3) (s : State) : Out :=
  let n := regsOf w.ty.toNat
  exchange s w.guard (useMatch w) false (fun c => mkOf w.md && !c.arrived w.guard (maskSb w))
    (fun c l => l :: matchSet c w l) fun c l =>
      { vals := [(w.dst.toNat, 1, laneMask ((matchSet c w l).filter fun k =>
          readV c.w k w.sa.toNat n == readV c.w l w.sa.toNat n))] }

/-- A quad exchange (R317): the partner's value where the partner is present. -/
def quadInstr (w : WordV3) (ops : List Nat) (partner : Nat → Nat) (s : State) : Out :=
  let n := regsOf w.ty.toNat
  let src (c : Ctx) (l : Nat) : Nat := if c.present (partner l) then partner l else l
  exchange s w.guard (useQuad w ops) false (fun _ => false) (fun c l => [src c l]) fun c l =>
    { vals := [(w.dst.toNat, n, readV c.w (src c l) w.sa.toNat n)] }

/-- `qswap` (R317). -/
def execQswap (w : WordV3) (s : State) : Out := quadInstr w [0, 1, 2] (fun l => l ^^^ (mdOp w.md + 1)) s
/-- `qbcast` (R317). -/
def execQbcast (w : WordV3) (s : State) : Out := quadInstr w [0, 1, 2, 3] (fun l => l / 4 * 4 + mdOp w.md) s

/-- The identity of a reduction (R316). -/
def redIdentity (op ty : Nat) : Nat :=
  let w := tyW ty
  let f := fmtOf ty
  let float := tyF.contains ty
  match op with
  | 1 => if float then fexact ty (.inf false) else if tySigned ty then 2 ^ (w - 1) - 1 else 2 ^ w - 1
  | 2 => if float then signBits f true + fexact ty (.inf false) else if tySigned ty then 2 ^ (w - 1) else 0
  | 3 => 2 ^ w - 1
  | _ => 0

/-- A minimum or maximum over floating-point values (R300, R316). -/
def fminmaxAll (isMax : Bool) : List FVal → FVal × BitVec 32
  | [] => (.nan false, 0)
  | x :: xs => xs.foldl (fun a y => let r := fminmax isMax a.1 y; (r.1, a.2 ||| y.sigFlag)) (x, x.sigFlag)

/-- The reduction of the contributors' values (R316), rounded for lane l with lane `dl`'s draw. -/
def reduce (c : Ctx) (op ty : Nat) (md : BitVec 9) (dl : Nat) (xs : List Nat) : Nat × BitVec 32 :=
  if xs.isEmpty then (redIdentity op ty, 0)
  else if 3 ≤ op then
    (xs.tail.foldl (fun a x => if op = 3 then a &&& x else if op = 4 then a ||| x else a ^^^ x) (xs.headD 0), 0)
  else if tyF.contains ty then
    let vs := xs.map fun x => fdecode ty x (mdFtz md)
    if op = 0 then c.round ty md dl 0 (exactSum vs (effRM c.w md))
    else
      let r := fminmaxAll (op == 2) vs
      (fexact ty r.1, r.2)
  else
    let vs := xs.map (readInt ty)
    let v :=
      if op = 0 then vs.foldl (· + ·) 0
      else if op = 1 then vs.foldl min (vs.headD 0)
      else vs.foldl max (vs.headD 0)
    (narrowInt ty (op == 0 && mdSat md) v, 0)

/-- `wred` (R316): the draw is the lowest contributor's. -/
def execWred (w : WordV3) (s : State) : Out :=
  let ty := w.ty.toNat
  let n := regsOf ty
  exchange s w.guard (useWred w false) false (fun c => !c.arrived w.guard (maskSb w))
    (fun c l => c.contributors w.guard (maskSb w) l) (fun c l =>
      let cs := c.contributors w.guard (maskSb w) l
      let r := reduce c (mdOp w.md) ty w.md (cs.headD l) (cs.map fun k => readV c.w k w.sa.toNat n)
      { vals := [(w.dst.toNat, n, r.1)], flags := r.2 }) fun _ w' => seedStep w.md w'

/-- The contributors at or below lane l, or below it for `.excl` (R316). -/
def scanSet (c : Ctx) (w : WordV3) (l : Nat) : List Nat :=
  (c.contributors w.guard (maskSb w) l).filter fun k => if w.md.getLsbD 2 then k < l else k ≤ l

/-- `wscan` (R316): the draw is the lane's own. -/
def execWscan (w : WordV3) (s : State) : Out :=
  let ty := w.ty.toNat
  let n := regsOf ty
  exchange s w.guard (useWred w true) false (fun c => !c.arrived w.guard (maskSb w)) (fun c l => scanSet c w l) (fun c l =>
      let r := reduce c (mdOp w.md % 4) ty w.md l ((scanSet c w l).map fun k => readV c.w k w.sa.toNat n)
      { vals := [(w.dst.toNat, n, r.1)], flags := r.2 }) fun _ w' => seedStep w.md w'

/-- `tilew` (R318). -/
def execTilew (w : WordVI) (s : State) : Out :=
  issueWith s (fun c => checkEncoding c (useTilew w)) fun c =>
    let x := if (c.members w.guard).isEmpty then c.w else { c.w with tilew := w.imm24.setWidth 32 }
    s.setWarp c.wid (x.advance c.i.lanes 1)

/-- `rdlane` (R319): the reading lane is the lowest admitted member (R313). -/
def execRdlane (w : WordV3) (s : State) : Out :=
  let u := useRdlane w
  let n := regsOf w.ty.toNat
  let k := w.sb.toNat
  let dead (c : Ctx) : Bool := !(c.members w.guard).isEmpty && c.present k && isDead c.w k w.sa.toNat n
  issueWith s (fun c => (checkEncoding c u).andThen ((checkEmpty c u []).andThen
    (if dead c && (c.w.ptrap || w.ctla.getLsbD 0) then .stop 0x06 ((c.members w.guard).take 1) 0 0 else .go))) fun c =>
    let x := if dead c then c.w.setFlags ((c.members w.guard).headD 0) flagPoison else c.w
    let x := x.lastUse c u
    let x := if (c.members w.guard).isEmpty then x
      else x.writeS (w.dst.toNat % 64) (BitVec.ofNat 64 (if c.present k then readV c.w k w.sa.toNat n else 0))
    s.setWarp c.wid (x.advance c.i.lanes 1)

/-- `wrlane` (R319). -/
def execWrlane (w : WordV3) (s : State) : Out :=
  let u := useWrlane w
  let n := regsOf w.ty.toNat
  let k := w.sb.toNat
  issueWith s (fun c => (checkEncoding c u).andThen
    (checkEmpty c u ((c.members w.guard).filter fun l => l == k))) fun c =>
    let x := if (c.members w.guard).contains k then
        c.w.writeVs k w.dst.toNat n (c.w.sreg (w.sa.toNat % 64)).toNat else c.w
    s.setWarp c.wid (x.advance c.i.lanes 1)

/-- `grpmask` (R319). -/
def execGrpmask (w : WordV3) (s : State) : Out :=
  laneInstr s w.guard (useGrpmask w) 1 fun c _ _ => { vals := [(w.dst.toNat, 1, laneMask c.i.lanes)] }

end Sys2Proof.Machine
end

