-- ==== Sys2Proof/Machine/Memory.lean ====
section
/-!
DEFINITION. The memory instructions of opcodes 0xA0 to 0xB9 and 0xF7 (R320 to R334): loads, stores, atomics and reductions of
every space, fences, and cache controls; and the local address spaces (R108 to R116).
-/
namespace Sys2Proof.Machine

/-! ### Local spaces (R109 to R114) -/

/-- The local spaces. -/
inductive Space where
  | slice | scratch | cluster | berm
  deriving DecidableEq, Repr

/-- Cluster group size of a grid (R36, R181). -/
def Grid.clus (g : Grid) : Nat := recBits g.record 0 39 37 + 1

/-- The block of the issuer's cluster group at an index (R113). -/
def State.groupBlock (s : State) (c : Ctx) (ix : Nat) : Option Block :=
  let n := c.g.clus
  if n ≤ ix then none
  else s.blocks.values.find? fun b => b.grid == c.b.grid && b.blockId == c.b.blockId / n * n + ix

/-- The memory address of `n` bytes at a local address of a lane, or none where the lane fails (R111 to R116). -/
def State.localCell (s : State) (c : Ctx) (sp : Space) (l : Nat) (a : Int) (n : Nat) : Option Nat :=
  if a < 0 then none
  else
    let a := a.toNat
    match sp with
    | .slice => if a + n ≤ c.b.sliceSize - c.b.callArea then some (sliceAddr c.b c.w l + a) else none
    | .scratch => if a + n ≤ c.b.scrSize then some (scrAddr c.b.island c.b.core (c.b.scrBase + a)) else none
    | .cluster =>
      if 2 ^ 21 ≤ a then none
      else match s.groupBlock c (bits a 20 18) with
        | some b => if a % 2 ^ 18 + n ≤ b.scrSize then some (scrAddr b.island b.core (b.scrBase + a % 2 ^ 18)) else none
        | none => none
    | .berm => if a + n ≤ recBits c.g.record 1 38 29 * 2 ^ 16 then some (bermAddr c.b.island (c.g.bermBase + a)) else none

/-- Clocks from issue to a full register (R122); a cluster access to the own core takes the scratchpad's. -/
def localLatency (c : Ctx) (sp : Space) (pa : Nat) : Nat :=
  match sp with
  | .slice | .scratch => 24
  | .cluster => if scrAddr c.b.island c.b.core 0 ≤ pa && pa < scrAddr c.b.island c.b.core (2 ^ 24) then 24 else 64
  | .berm => 180

/-- Local address of a lane (R109). -/
def localAddr (c : Ctx) (index : Nat) (ofs : BitVec 14) (n l : Nat) : Int :=
  (readV c.w l index 1 : Int) + sext 14 ofs.toNat * (n : Nat)

/-- A 48-bit rendering of an address for a fault record. -/
def addr48 (a : Int) : Nat := wrapN 48 a

/-- MISALIGNED in admitted members (R70, R110). -/
def checkAligned (ls : List Nat) (addr : Nat → Int) (n info : Nat) : Check :=
  let bad := ls.filter fun l => addr l % (n : Nat) != 0
  match bad.head? with
  | none => .go
  | some l => .stop 0x22 bad (addr48 (addr l) + info) 0

/-- The group waits while a member has an acquire or SEQ read outstanding, and for a release while it has any event outstanding
(R75; log 16); a scalar load that stands in the log is such an event (log 89). -/
def checkOrder (s : State) (c : Ctx) (ls : List Nat) (order : Nat) : Check :=
  let rel := order == 2 || order == 3
  if ls.any fun l => ((s.outstanding c.wid l).any fun m => m.acq || rel) || (c.w.parkedReads l).any fun e => e.acq || rel then .wait
  else .go

/-- The rules of a local access beyond its sources; on a load a release acts as plain (R322). The accesses of a group to these memories
take effect as they issue, in program order, also where R75 leaves a pair unordered (DESIGN CHOICE, log 93). -/
def localRules (s : State) (g : BitVec 4) (index : Nat) (ofs : BitVec 14) (n order : Nat) (c : Ctx) : Check :=
  (checkOrder s c (c.members g) order).andThen (checkAligned (c.members g) (localAddr c index ofs n) n 0)

/-- Whether an order and scope make an acquire that drops REL words (R128). -/
def dropsRel (order scope : Nat) : Bool := (order == 1 || order == 3) && 2 ≤ scope

/-- Drops the core's REL words where an access is such an acquire. -/
def State.acquired (s : State) (c : Ctx) (order scope : Nat) : State :=
  if dropsRel order scope then s.dropRel c.b.island c.b.core else s

/-- Registers and words of a value of n bytes. -/
def valueRegs (l dst n v : Nat) : List (Nat × Nat × BitVec 32) :=
  (List.range (max 1 (n / 4))).map fun k => (l, dst + k, BitVec.ofNat 32 (v / 2 ^ (32 * k)))

/-- What a local load reads in a lane from the index it was issued with: zero for a lane that fails (R31, R110). -/
def localValue (w : WordM) (sp : Space) (s : State) (c : Ctx) (l index : Nat) : Nat :=
  let n := 2 ^ w.size.toNat
  let a : Int := (index : Int) + sext 14 w.ofs.toNat * (n : Nat)
  match s.localCell c sp l a n with
  | some p => if a % (n : Nat) = 0 then s.readMem p n else 0
  | none => 0

/-- A local load (R320 to R322). -/
def localLoad (w : WordM) (sp : Space) (s : State) : Out :=
  let u := useLoad w false
  let n := 2 ^ w.size.toNat
  issueOut s (laneChecks u w.guard (localRules s w.guard w.index.toNat w.ofs n 0)) fun c =>
    let mem := c.members w.guard
    let hlp := c.helpers w.guard
    let cell (l : Nat) : Option Nat := s.localCell c sp l (localAddr c w.index.toNat w.ofs n l) n
    let ok := mem.filter fun l => (cell l).isSome
    let out := mem.filter fun l => (cell l).isNone
    let reads (l : Nat) : Bool := !c.poisoned u l && (cell l).isSome && localAddr c w.index.toNat w.ofs n l % (n : Nat) == 0
    let val (l : Nat) : Nat :=
      if hlp.contains l && c.poisoned u l then 0 else localValue w sp s c l (readV c.w l w.index.toNat 1)
    let x := c.sourced u w.guard
    let x := (ok ++ hlp).foldl (fun x l => x.emptyV l w.data.toNat (sizeRegs w.size.toNat)) x
    let x := (x.advance c.i.lanes 1).watchWords ((ok ++ hlp.filter reads).flatMap fun l => wordsOf ((cell l).getD 0) n)
    let s := s.setWarp c.wid x
    let s :=
      if (ok ++ hlp).isEmpty then s
      else
        let (id, s) := s.newId
        let p := c.noPend .load w.data.toNat n id u (ok ++ hlp)
        let late := (ok.map fun l => localLatency c sp ((cell l).getD 0)).foldl max 24
        { s with pend := s.pend ++ [{ p with
            lanes := [], writes := (ok ++ hlp).flatMap fun l => valueRegs l w.data.toNat n (val l)
            due := s.clk + late, issueTime := s.itime c.b.island }] }
    let s := if ok.isEmpty then s else s.acquired c w.order.toNat w.scope.toNat
    .next (s.switchOff c.wid out 0x20 c.i.pc c.ovl).endIssue

/-- A local store (R320, R324). -/
def localStore (w : WordM) (sp : Space) (s : State) : Out :=
  let u := useStore w false
  let n := 2 ^ w.size.toNat
  issueOut s (laneChecks u w.guard (localRules s w.guard w.index.toNat w.ofs n w.order.toNat)) fun c =>
    let mem := c.members w.guard
    let cell (l : Nat) : Option Nat := s.localCell c sp l (localAddr c w.index.toNat w.ofs n l) n
    let x := (c.sourced u w.guard).advance c.i.lanes 1
    let s := mem.foldl (fun s l =>
      match cell l with
      | some p => s.writeMem p n (readV c.w l w.data.toNat (sizeRegs w.size.toNat))
      | none => s) s
    let s := s.setWarp c.wid x
    let s := s.touch (mem.flatMap fun l => match cell l with | some p => wordsOf p n | none => [])
    .next (s.switchOff c.wid (mem.filter fun l => (cell l).isNone) 0x20 c.i.pc c.ovl).endIssue

/-- A local atomic (R327, R328): its lanes follow one another in ascending order. -/
def localAtomic (w : WordMA) (sp : Space) (s : State) : Out :=
  let u := useAtom w false false false
  let n := 2 ^ w.size.toNat
  let r := regsOf w.atype.toNat
  issueOut s (laneChecks u w.guard (localRules s w.guard w.index.toNat w.ofs n w.order.toNat)) fun c =>
    let mem := c.members w.guard
    let hlp := if w.ret = 1 then c.helpers w.guard else []
    let cell (l : Nat) : Option Nat := s.localCell c sp l (localAddr c w.index.toNat w.ofs n l) n
    let ok := mem.filter fun l => (cell l).isSome
    let rnd := atomRM c.w w.arnd.toNat
    let ops := ok.map fun l => (⟨l, (cell l).getD 0, w.aop.toNat, w.atype.toNat, rnd, c.w.srseed.toNat,
      readV c.w l w.data.toNat r, if w.aop = 7 then readV c.w l w.cmp.toNat r else 0⟩ : AtomOp)
    let y := runOps s.mem ops
    let x := c.sourced u w.guard
    let x := if w.ret = 1 then (ok ++ hlp).foldl (fun x l => x.emptyV l w.res.toNat r) x else x
    let x := if rnd = 5 then { x with srseed := BitVec.ofNat 64 (nextSeed x.srseed.toNat) } else x
    let s := { s with mem := y.1 }.setWarp c.wid (x.advance c.i.lanes 2)
    let s := s.touch (y.2.2.map (· / 4)).eraseDups
    let s :=
      if w.ret = 0 || (ok ++ hlp).isEmpty then s
      else
        let (id, s) := s.newId
        let p := c.noPend .atomic w.res.toNat n id u []
        let late := (ok.map fun l => localLatency c sp ((cell l).getD 0)).foldl max 24
        { s with pend := s.pend ++ [{ p with
            writes := (y.2.1.flatMap fun o => valueRegs o.1 w.res.toNat n o.2) ++ hlp.flatMap fun l => valueRegs l w.res.toNat n 0
            due := s.clk + late, issueTime := s.itime c.b.island, ops := [] }] }
    let s := if ok.isEmpty then s else s.acquired c w.order.toNat w.scope.toNat
    .next (s.switchOff c.wid (mem.filter fun l => (cell l).isNone) 0x20 c.i.pc c.ovl).endIssue

/-- `ldl` (R111, R320). -/
def execLdl (w : WordM) (s : State) : Out := localLoad w .slice s
/-- `stl` (R111, R320). -/
def execStl (w : WordM) (s : State) : Out := localStore w .slice s
/-- `lds` (R112, R320). -/
def execLds (w : WordM) (s : State) : Out := localLoad w .scratch s
/-- `sts` (R112, R320). -/
def execSts (w : WordM) (s : State) : Out := localStore w .scratch s
/-- `ldc` (R113, R320). -/
def execLdc (w : WordM) (s : State) : Out := localLoad w .cluster s
/-- `stc` (R113, R320). -/
def execStc (w : WordM) (s : State) : Out := localStore w .cluster s
/-- `ldbm` (R114, R320). -/
def execLdbm (w : WordM) (s : State) : Out := localLoad w .berm s
/-- `stbm` (R114, R320). -/
def execStbm (w : WordM) (s : State) : Out := localStore w .berm s
/-- `atoms` (R327, R328). -/
def execAtoms (w : WordMA) (s : State) : Out := localAtomic w .scratch s
/-- `atomc` (R327, R328). -/
def execAtomc (w : WordMA) (s : State) : Out := localAtomic w .cluster s

/-! ### Global memory -/

/-- Entries of the operand log that are taken (R376). An access that TRANSIT stalls will take one if it parks, so it counts unless its
instruction has one (DESIGN CHOICE, log 19). -/
def State.logTaken (s : State) (wid : Nat) : Nat :=
  let log := (s.warp wid).log
  log.length + (s.stalls.filter fun x =>
    x.warp == wid && (s.cmdOf x.id).isNone && !log.any fun e => e.num == x.entry.num).length

/-- In the core clock in which its island relocks, an L1 accepts no request (R141). -/
def checkL1 (s : State) (c : Ctx) : Check := if s.now.relocked.contains c.b.island then .wait else .go

/-- The rules of a global access beyond its sources: a free log entry (R376), elements without gaps and aligned addresses (R150),
tested in every admitted member. -/
def globalRules (s : State) (g : BitVec 4) (brec index : Nat) (ofs : BitVec 14) (n : Nat) (c : Ctx) : Check :=
  let r := (c.w.bufRec brec).toNat
  let va (l : Nat) : Int := (recVA r ((readV c.w l index 1 : Int) + sext 14 ofs.toNat) : Nat)
  let info := c.g.asid * 2 ^ 48
  (if 16 ≤ s.logTaken c.wid then Check.wait else .go).andThen
    ((if recGaps r n && !(c.members g).isEmpty then
        Check.stop 0x22 (c.members g) (addr48 (va ((c.members g).headD 0)) + info) 0
      else .go).andThen
      ((checkAligned (c.members g) va n info).andThen ((checkOrder s c (c.members g) 0).andThen (checkL1 s c))))

/-- A global access with everything read at issue. -/
def Access.filled (a : Access) (s : State) (c : Ctx) (brec : Nat) (args : List LaneArg) (zero : List Nat) : Access :=
  { a.issued s c brec with wid := c.wid, lanes := args, zero := zero }

/-- The warp as a global access leaves it when it issues: destinations are empty in the lanes inside the extent (R95). -/
def globalWarp (c : Ctx) (u : Usage) (g : BitVec 4) (a : Access) (len : Nat) (stoch : Bool) : Warp :=
  let inside := (a.lanes.filter fun x => x.helper || !recOutside a.brec.toNat a.n (a.elem x)).map fun x => x.lane
  let x := c.sourced u g
  let x := (inside ++ a.zero).foldl (fun x l => u.dsts.foldl (fun x d => x.emptyV l d.1 d.2) x) x
  let x := if stoch && a.rnd = 5 then { x with srseed := BitVec.ofNat 64 (nextSeed x.srseed.toNat) } else x
  x.advance c.i.lanes len

/-- Issues a global access; the stop of R374 step 3 leaves every register as it stood. -/
def globalInstr (s : State) (g : BitVec 4) (u : Usage) (a : Access) (brec len : Nat) (rules : Ctx → Check)
    (args : Ctx → List LaneArg) (zero : Ctx → List Nat) (stoch : Bool) : Out :=
  issueOut s (laneChecks u g rules) fun c =>
    let a := a.filled s c brec (args c) (zero c)
    match (s.setWarp c.wid (globalWarp c u g a len stoch)).access a with
    | .wait => s.notReady
    | .done s => .next s.endIssue
    | .stop _ _ _ _ =>
      match s.access a with
      | .stop s cls lanes va => .next (s.stopWarp c.wid cls lanes c.i.pc c.ovl (va + c.g.asid * 2 ^ 48) 0)
      | _ => s.notReady

/-- Admitted helper lanes of a load whose dead index would trap: they receive zero and make no access (R31, R98). -/
def Ctx.zeroed (c : Ctx) (w : WordM) : List Nat := (c.helpers w.guard).filter (c.poisoned (useLoad w true))

/-- Lane arguments of an M word. -/
def argsM (w : WordM) (store : Bool) (c : Ctx) : List LaneArg :=
  (c.members w.guard).map (fun l => ⟨l, false, readV c.w l w.index.toNat 1,
    if store then readV c.w l w.data.toNat (sizeRegs w.size.toNat) else 0, 0⟩) ++
  if store then [] else ((c.helpers w.guard).filter fun l => !(c.zeroed w).contains l).map fun l =>
    ⟨l, true, readV c.w l w.index.toNat 1, 0, 0⟩

/-- Lane arguments of an MA word. -/
def argsMA (w : WordMA) (c : Ctx) : List LaneArg :=
  let r := regsOf w.atype.toNat
  (c.members w.guard).map fun l => ⟨l, false, readV c.w l w.index.toNat 1, readV c.w l w.data.toNat r,
    if w.aop = 7 then readV c.w l w.cmp.toNat r else 0⟩

/-- A global load or store. -/
def globalM (w : WordM) (kind : AccKind) (s : State) : Out :=
  let store := kind == .store
  globalInstr s w.guard (if store then useStore w true else useLoad w true) (accessM w kind 0 [] []) w.brec.toNat 1
    (globalRules s w.guard w.brec.toNat w.index.toNat w.ofs (2 ^ w.size.toNat)) (argsM w store)
    (fun c => if store then [] else c.zeroed w) false

/-- `ldg` (R322). -/
def execLdg (w : WordM) (s : State) : Out := globalM w .load s
/-- `ldg.wait` (R323). -/
def execLdgWait (w : WordM) (s : State) : Out := globalM w .loadWait s
/-- `stg` (R324). -/
def execStg (w : WordM) (s : State) : Out := globalM w .store s

/-- A global atomic or reduction (R327 to R329). -/
def globalMA (w : WordMA) (kind : AccKind) (s : State) : Out :=
  globalInstr s w.guard (useAtom w true (kind != .atomic) (kind == .redOrd)) (accessMA w kind 0 []) w.brec.toNat 2
    (globalRules s w.guard w.brec.toNat w.index.toNat w.ofs (2 ^ w.size.toNat)) (argsMA w)
    (fun c => if w.ret = 1 then c.helpers w.guard else []) true

/-- `atom` (R327, R328). -/
def execAtom (w : WordMA) (s : State) : Out := globalMA w .atomic s
/-- `red` (R329). -/
def execRed (w : WordMA) (s : State) : Out := globalMA w .red s
/-- `red` with `.ord` (R329, R135). -/
def execRedOrd (w : WordMA) (s : State) : Out := globalMA w .redOrd s

/-! ### Scalar loads (R325) -/

/-- The lane argument of `sldg`: its one access is made for the lowest admitted member (R325). -/
def sldgArg (w : WordM) (c : Ctx) : LaneArg :=
  ⟨(c.members w.guard).headD 0, false, (c.w.sreg (w.index.toNat % 64)).toNat % 2 ^ 32, 0, 0⟩

/-- The access of `sldg`. -/
def sldgAccess (w : WordM) (s : State) (c : Ctx) : Access :=
  { (accessM w .scalar 0 [sldgArg w c] (c.members w.guard)).issued s c w.brec.toNat with wid := c.wid, dst := w.data.toNat % 64 }

/-- The checks of `sldg`, none where no member is admitted. -/
def sldgChecks (w : WordM) (s : State) (c : Ctx) : Check :=
  let u := useSldg w
  let a := sldgAccess w s c
  let info := a.va (sldgArg w c) + c.g.asid * 2 ^ 48
  (checkEncoding c u).andThen
    (if (c.members w.guard).isEmpty then .go
     else (if 16 ≤ s.logTaken c.wid then Check.wait else .go).andThen
      ((checkSources c u []).andThen
        ((if recGaps a.brec.toNat a.n || a.va (sldgArg w c) % a.n != 0 then Check.stop 0x22 (c.members w.guard) info 0 else .go).andThen
          ((checkOrder s c (c.members w.guard) 0).andThen (checkL1 s c)))))

/-- The warp as `sldg` leaves it when it issues. -/
def sldgWarp (w : WordM) (c : Ctx) (a : Access) : Warp :=
  let x := c.w.advance c.i.lanes 1
  if recOutside a.brec.toNat a.n (a.elem (sldgArg w c)) then x else { x with sEmpty := x.sEmpty ++ [w.data.toNat % 64] }

/-- `sldg` (R325): one access for the group when a member is admitted. -/
def execSldg (w : WordM) (s : State) : Out :=
  issueOut s (sldgChecks w s) fun c =>
    if (c.members w.guard).isEmpty then .next (s.setWarp c.wid (c.w.advance c.i.lanes 1)).endIssue
    else
      let a := sldgAccess w s c
      match (s.setWarp c.wid (sldgWarp w c a)).access a with
      | .wait => s.notReady
      | .done s => .next s.endIssue
      | .stop _ _ _ _ =>
        match s.access a with
        | .stop s cls _ va => .next (s.stopWarp c.wid cls (laneMask (c.members w.guard)) c.i.pc c.ovl (va + c.g.asid * 2 ^ 48) 0)
        | _ => s.notReady

/-- The scratchpad address of `ldrec` (R325). -/
def ldrecAddr (w : WordM) (c : Ctx) : Int := ((c.w.sreg (w.index.toNat % 64)).toNat % 2 ^ 32 : Nat) + 16 * sext 14 w.ofs.toNat

/-- The checks of `ldrec`, none beyond the encoding where no member is admitted. -/
def ldrecChecks (w : WordM) (s : State) (c : Ctx) : Check :=
  (checkEncoding c (useLdrec w)).andThen
    (if (c.members w.guard).isEmpty then .go
     else (checkSources c (useLdrec w) []).andThen ((checkOrder s c (c.members w.guard) 0).andThen
      (if ldrecAddr w c % 16 != 0 then .stop 0x22 (c.members w.guard) (addr48 (ldrecAddr w c)) 0 else .go)))

/-- `ldrec` (R325): the group is not ready until the record is written. -/
def execLdrec (w : WordM) (s : State) : Out :=
  let u := useLdrec w
  issueWith s (ldrecChecks w s) fun c =>
    let mem := c.members w.guard
    let x := c.w.advance c.i.lanes 1
    if mem.isEmpty then s.setWarp c.wid x
    else match s.localCell c .scratch 0 (ldrecAddr w c) 16 with
      | none => (s.setWarp c.wid x).switchOff c.wid mem 0x20 c.i.pc c.ovl
      | some p =>
        let (id, s) := s.newId
        let x := x.modThreads c.i.lanes fun t => { t with hold := t.hold ++ [id] }
        let x := x.watchWords (wordsOf p 16)
        let q := c.noPend .ldrec (w.data.toNat % 32) 16 id u []
        { s.setWarp c.wid x with pend := s.pend ++ [{ q with
            brec := BitVec.ofNat 128 (s.readMem p 16), due := s.clk + 24, issueTime := s.itime c.b.island, ops := [] }] }

/-! ### Cache controls (R326) -/

/-- Translated accesses of surviving lanes of a cache control, as (address, leaf): a page that does not translate, or is in TRANSIT, is
skipped. A page that does not translate is walked once: `gone` are the 64 KiB pages found absent (R150). -/
def State.cachePages (s : State) (a : Access) (island core asid : Nat) : List Nat → List LaneArg → List (Nat × Nat) × State
  | _, [] => ([], s)
  | gone, x :: xs =>
    let va := a.va x
    if recOutside a.brec.toNat a.n (a.elem x) || gone.contains (va / 65536) then s.cachePages a island core asid gone xs
    else
      match s.translate island (some core) asid va with
      | (.leaf e k, s) =>
        let r := s.cachePages a island core asid gone xs
        (if leafTransit e then r.1 else (hbmAddr island (leafPA e k va), e) :: r.1, r.2)
      | (.absent _, s) => s.cachePages a island core asid (va / 65536 :: gone) xs

/-- The rules of a cache control beyond its sources (R150, R326). -/
def cacheRules (w : WordM) (s : State) (c : Ctx) : Check :=
  let n := 2 ^ w.size.toNat
  let r := (c.w.bufRec w.brec.toNat).toNat
  let va (l : Nat) : Int := (recVA r ((readV c.w l w.index.toNat 1 : Int) + sext 14 w.ofs.toNat) : Nat)
  let info := c.g.asid * 2 ^ 48
  (if recGaps r n && !(c.members w.guard).isEmpty then
      Check.stop 0x22 (c.members w.guard) (addr48 (va ((c.members w.guard).headD 0)) + info) 0
    else .go).andThen ((checkAligned (c.members w.guard) va n info).andThen (checkL1 s c))

/-- The addresses of a cache control, as an access: helper lanes take part as in a load (R31, R321). -/
def cacheAccess (w : WordM) (s : State) (c : Ctx) : Access :=
  (accessM w .load 0 [] []).filled s c w.brec.toNat (argsM w false c) (c.zeroed w)

/-- The lanes of a cache control that lie outside the extent. -/
def Access.outside (a : Access) : List Nat :=
  (a.lanes.filter fun x => !x.helper && recOutside a.brec.toNat a.n (a.elem x)).map fun x => x.lane

/-- A cache control: `act` works on the pages its surviving lanes name; it answers numbers to wait for. -/
def cacheInstr (w : WordM) (s : State) (act : State → Ctx → Access → List (Nat × Nat) → List Nat × State) : Out :=
  let u := useCache w
  issueWith s (laneChecks u w.guard (cacheRules w s)) fun c =>
    let a := cacheAccess w s c
    let x := (c.sourced u w.guard).advance c.i.lanes 1
    let (pages, s) := (s.setWarp c.wid x).cachePages a c.b.island c.b.core c.g.asid []
      (a.lanes.filter fun x => !(x.helper && a.offGrid x))
    let (ids, s) := act s c a pages
    let s := s.modWarp c.wid fun w => w.modThreads c.i.lanes fun t => { t with hold := t.hold ++ ids }
    s.switchOff c.wid a.outside 0x21 c.i.pc c.ovl

/-- Spans of the core in the regions of some pages' addresses. -/
def State.spansIn (s : State) (c : Ctx) (pages : List (Nat × Nat)) : List SpanRec :=
  let rs := pages.map fun p => regionOf (p.1 / 4)
  s.spans.filter fun r => r.island == c.b.island && r.core == c.b.core && rs.contains (regionOf (r.words.headD 0))

/-- `wb` (R326, R128): dirty words are sent; the spans stay valid and clean. -/
def execWb (w : WordM) (s : State) : Out :=
  cacheInstr w s fun s c _ pages =>
    (s.spansIn c pages).foldl (fun x r =>
      let y := x.2.sendWback r false
      (x.1 ++ y.1.toList, y.2.setSpan { r with dirty := [] })) ([], s)

/-- `inv` (R326): dirty words are sent and every span of the regions is dropped. -/
def execInv (w : WordM) (s : State) : Out :=
  cacheInstr w s fun s c _ pages =>
    (s.spansIn c pages).foldl (fun x r =>
      let y := x.2.sendWback r true
      (x.1 ++ (if r.dirty.isEmpty then [] else y.1.toList), y.2.dropSpan r.id)) ([], s)

/-- `pref` (R326): GETS for the words named and not held; unwritten ONCE words and pages the core may not read are left out. -/
def execPref (w : WordM) (s : State) : Out :=
  cacheInstr w s fun s c a pages =>
    let pages := pages.filter fun p => leafR p.2 && (leafType p.2 != 3 || leafOwner p.2 == c.b.core)
    let wanted (p : Nat × Nat) : List Nat := (wordsOf p.1 a.n).filter fun w =>
      (leafType p.2 != 2 || s.written w) && (s.l1Find c.b.island c.b.core [w]).isNone
    let ws := (pages.flatMap wanted).eraseDups
    let rs := (ws.map regionOf).eraseDups
    let asks := rs.flatMap fun r =>
      let rw := ws.filter fun w => regionOf w == r
      match pages.find? fun p => regionOf (p.1 / 4) == r with
      | some p => (spansOf rw).map fun sp => (sp, leafType p.2, leafClass p.2)
      | none => []
    ([], asks.foldl (fun s x =>
      let (id, s) := s.newId
      (s.addMsg { Msg.blank id .gets c.b.island c.b.core c.wid with
        words := x.1, ptype := x.2.1, cls := x.2.2, part := c.g.part, after := s.wbacksOf c.b.island c.b.core x.1 }).coreCount
          c.b.island c.b.core 7 1) s)

/-! ### Fences and flushes (R330, R331, R334) -/

/-- Whether an outstanding event is a read (R331). -/
def Msg.isRead (m : Msg) : Bool := m.kind == .gets || m.kind == .data || m.ops.any fun x => x.aop != 8

/-- The checks of `fence`: a release waits for everything earlier, an acquire for the reads. -/
def fenceChecks (w : WordM) (s : State) (c : Ctx) : Check :=
  let o := w.order.toNat
  (checkEncoding c (useFence w)).andThen
    (if (c.members w.guard).any fun l => ((s.outstanding c.wid l).any fun m => 2 ≤ o || (o == 1 && m.isRead)) ||
        (o != 0 && !(c.w.parkedReads l).isEmpty) then .wait else .go)

/-- `fence` (R331): an acquire waits for earlier reads, a release for everything earlier; an acquire of cluster or island scope then
drops the core's REL words. -/
def execFence (w : WordM) (s : State) : Out :=
  let o := w.order.toNat
  issueWith s (fenceChecks w s) fun c =>
    let s := s.setWarp c.wid (c.w.advance c.i.lanes 1)
    if (c.members w.guard).isEmpty then s else s.acquired c o w.scope.toNat

/-- `redflush` (R330): the warp's entries go to their slices; the group waits until they are applied. -/
def execRedflush (w : WordV3) (s : State) : Out :=
  issueWith s (fun c => checkEncoding c (useUnguarded w)) fun c =>
    (s.setWarp c.wid (c.w.advance c.i.lanes 1)).flushHeld c.wid c.i.lanes

/-- `fence.fetch` (R334): the group waits for the warp's earlier `ovld` commands. Words are fetched at issue, so nothing is
discarded. -/
def execFenceFetch (w : WordV3) (s : State) : Out :=
  issueWith s (fun c => checkEncoding c (useUnguarded w)) fun c =>
    let ids := (c.w.fq.filter fun q => q.op == 0xE9).map fun q => q.id
    s.setWarp c.wid ((c.w.advance c.i.lanes 1).modThreads c.i.lanes fun t => { t with hold := t.hold ++ ids })

end Sys2Proof.Machine
end

