-- ==== Sys2Proof/Machine/System.lean ====
section
/-!
DEFINITION. Core, dispatcher and clock registers as they read (R170, R196), the view of shared counters (R224), privilege, and the
system-register instructions (R344).
-/
namespace Sys2Proof.Machine

/-! ### What a core holds (R188, R196) -/

/-- The repair-map code of a core (R161). -/
def State.coreCode (s : State) (island core : Nat) : Nat :=
  (s.topo.sites[island]?).elim 3 fun x => NMap.getD x.cores core 0

/-- WARPW of a repair-map code; 0 for a retired core (R161). -/
def warpwOf (code : Nat) : Nat := [32, 16, 8].getD code 0

/-- Blocks with a window on a core, the retired ones of living groups included (R113). -/
def State.onCore (s : State) (island core : Nat) : List Block :=
  s.blocks.values.filter fun b => b.island == island && b.core == core && !b.saved

/-- Resident blocks of a core. -/
def State.residents (s : State) (island core : Nat) : List Block := (s.onCore island core).filter fun b => !b.retired

/-- Resident warps of some blocks that have not retired (R39). -/
def State.liveWarps (s : State) (bs : List Block) : List Warp := (bs.flatMap fun b => b.warps.map s.warp).filter fun w => !w.retired

def sum (l : List Nat) : Nat := l.foldl (· + ·) 0

/-- Scratchpad bytes of a block: window and slices (R108). -/
def Block.footprint (b : Block) : Nat := b.scrSize + b.warps.length * b.warpw * b.sliceSize

/-- Scratchpad bytes that a block holds: its slices are free once it has retired, its window with its cluster group (R108, R113). -/
def Block.bytesHeld (b : Block) : Nat := if b.retired then b.scrSize else b.footprint

/-- Warp slots taken on a core: they are freed with the block (R117). -/
def State.slotsTaken (s : State) (island core : Nat) : Nat := sum ((s.residents island core).map fun b => b.warps.length)
/-- Register granules taken on a core (R93). -/
def State.granTaken (s : State) (island core : Nat) : Nat := sum ((s.liveWarps (s.residents island core)).map fun w => w.gran)
/-- Scratchpad bytes taken on a core. -/
def State.scrTaken (s : State) (island core : Nat) : Nat := sum ((s.onCore island core).map Block.bytesHeld)
/-- Accumulator tiles taken on a core (R101). -/
def State.tilesTaken (s : State) (island core : Nat) : List Nat := (s.liveWarps (s.residents island core)).flatMap fun w => w.acc
/-- Instruction-store slots held on a core (R118). -/
def State.slotsHeld (s : State) (island core : Nat) : List Nat :=
  (List.range 4).filter fun k => (s.residents island core).any fun b => b.slots.contains k
/-- Warps bound to a pipe of a core that count as resident in the choice of a pipe (R35): one that has retired counts no more, although
its slot is freed only with its block (R35 does not say which it is: DESIGN CHOICE, log 100). -/
def State.pipeCount (s : State) (island core pipe : Nat) : Nat :=
  ((s.liveWarps (s.residents island core)).filter fun w => w.pipe == pipe).length

/-- CORE_STAT (R196). -/
def State.coreStat (s : State) (island core : Nat) : Nat :=
  s.coreCode island core + s.reg .coreStat (coreIx island core) % 2 * 2 ^ 2 + s.slotsTaken island core * 2 ^ 8 +
    (s.residents island core).length * 2 ^ 16 + (64 - s.granTaken island core) * 2 ^ 24 +
    (4096 - s.scrTaken island core / 64) * 2 ^ 32 + (16 - (s.tilesTaken island core).length) * 2 ^ 48 +
    (4 - (s.slotsHeld island core).length) * 2 ^ 56

/-- CORE_PIPE (R196). -/
def State.corePipe (s : State) (island core : Nat) : Nat :=
  sum ((List.range 4).map fun p => s.pipeCount island core p * 2 ^ (8 * p))

/-- Grids in an island's dispatcher table (R187). -/
def State.table (s : State) (island : Nat) : List (Nat × Grid) :=
  s.grids.filter fun p => p.2.island == island && p.2.status == .inTable

/-- ISL_DSTAT (R196): RGID names the oldest reservation, where several partitions hold one (log 103). -/
def State.dstat (s : State) (island : Nat) : Nat :=
  let x := s.isl island
  (s.table island).length + (if x.reservers.isEmpty then 0 else 2 ^ 7) + x.reservers.headD 0 * 2 ^ 16 + x.placed % 2 ^ 32 * 2 ^ 32

/-- CLK_STAT (R170). -/
def State.clkStat (s : State) (island : Nat) : Nat :=
  let x := s.isl island
  let b (v : Bool) (k : Nat) : Nat := if v then 2 ^ k else 0
  x.parent + x.cls * 2 ^ 4 + b x.lock 8 + b x.inHold 9 + b x.orphan 10 + b x.fast 11 + x.holds * 2 ^ 16 + x.tver * 2 ^ 32

/-! ### Slices, presented numbers and privilege (R389, R399, R267) -/

/-- Valid children of a partition. -/
def State.childrenOf (s : State) (p : Nat) : List Nat :=
  (List.range 127).filterMap fun k => if s.partValid (k + 1) && s.parent (k + 1) = p then some (k + 1) else none

/-- CLMASK (R389): partition 0 holds what no level-1 partition holds. -/
def State.clmask (s : State) (p island : Nat) : Nat :=
  if p = 0 then 0xFFFFF - ((s.childrenOf 0).foldl (fun m c => m ||| bits (s.reg .partSlice (partIx c island)) 19 0) 0)
  else bits (s.reg .partSlice (partIx p island)) 19 0

/-- Whether a partition's own grids may be placed on a cluster: in its mask and in no child's (R389). -/
def State.ownsCluster (s : State) (p island k : Nat) : Bool :=
  bit (s.clmask p island) k && !((s.childrenOf p).any fun c => p != 0 && bit (s.clmask c island) k)

/-- Presented entries of an island that name a core: (partition, presented number) (R399). -/
def State.presented (s : State) (island core : Nat) : List (Nat × Nat) :=
  s.regs.filterMap fun e =>
    let i := e.1 % 2 ^ 40
    if e.1 / 2 ^ 40 = regCode .partPres && i / 256 % 32 = island && bit e.2 8 && bits e.2 7 0 = core then
      some (i / 256 / 32, i % 256) else none

/-- Presented number of a core in a partition: the lowest (R399). -/
def State.presCore (s : State) (p island core : Nat) : Option Nat :=
  ((s.presented island core).filterMap fun e => if e.1 = p then some e.2 else none).min?

/-- Presented number of an island in a partition: the lowest that names it, else its own number (R399; log 22). -/
def State.presIsland (s : State) (p island : Nat) : Nat :=
  ((List.range 24).find? fun i => let v := s.reg .partIpres (partIx p i); bit v 5 && bits v 4 0 == island).getD island

/-- A core's counters are exact for a partition that it serves alone, under one presented number (R344, R397, R400). -/
def State.servesOnly (s : State) (p island core : Nat) : Bool :=
  match s.presented island core with
  | [e] => e.1 == p
  | _ => false

/-! ### The view of shared counters (R224) -/

/-- Key of the sample of an island's counter taken at multiple `n` of 100 µs of panel time. -/
def sampleKey (island : Nat) (r : RegName) (i n : Nat) : Nat := (32 * n + island) * 2 ^ 48 + regKey r i

/-- The value a guest reads of a shared counter at PTIME t (R224). -/
def State.sharedView (s : State) (r : RegName) (i island : Nat) : Nat :=
  let n := (s.isl island).ptime / 100000
  if n = 0 then 0 else NMap.getD s.samples (sampleKey island r i (n - 1)) 0 / 4096 * 4096

/-- Samples of an island's link counters (R204, R224). -/
def State.sampleLinks (s : State) (island n : Nat) : State :=
  (List.range (if island = 24 then 8 else 12)).foldl (fun s p =>
    match NMap.find? s.ports (portIx island p) with
    | some x =>
      let v := x.corr + x.uncorr * 2 ^ 24 + x.replays * 2 ^ 40 + x.fover * 2 ^ 56
      { s with samples := NMap.set s.samples (sampleKey island .optPerr (portIx island p) n) v }
    | none => s) s

/-- Drops the samples of an island that no read asks for any more: a read in HOLD stands at the PTIME of its entry (R220). -/
def State.oldSamples (s : State) (island n : Nat) : State :=
  let first := min n (if island = 24 then n else (s.isl island).ptime / 100000) - 1
  { s with samples := s.samples.filter fun e => !(e.1 / 2 ^ 48 % 32 == island && e.1 / 2 ^ 53 < first) }

/-- Takes an island's samples at multiple `n` of 100 µs. -/
def State.takeSamples (s : State) (island n : Nat) : State :=
  let s := s.oldSamples island n
  (s.sampleLinks island n).regs.foldl (fun s e =>
    let i := e.1 % 2 ^ 40
    let put (r : RegName) : State := { s with samples := NMap.set s.samples (sampleKey island r i n) e.2 }
    if e.1 / 2 ^ 40 = regCode .islPmc && i / 8 = island then put .islPmc
    else if e.1 / 2 ^ 40 = regCode .corePmc && i / 8 / 160 = island then put .corePmc
    else if e.1 / 2 ^ 40 = regCode .tgpScnt && i / 256 = island then put .tgpScnt
    else s) (s.sampleLinks island n)

/-! ### `sysrd` and `syswr` (R344) -/

/-- ISL_COHMODE as it reads: PREDCLR reads 1 in the core clock in which it is written (R134). -/
def State.cohmode (s : State) (island : Nat) : Nat := s.reg .islCohmode island % 2 + s.commanded .islCohmode island

/-- The value that `sysrd` reads. -/
def sysValue (s : State) (c : Ctx) (sel : Nat) : Nat :=
  let isl := c.b.island
  let cix := coreIx isl c.b.core
  let k := sel % 8
  if sel ≤ 0x0107 then
    if c.g.priv || s.servesOnly c.g.part isl c.b.core then s.reg .corePmc (eightIx cix k)
    else s.sharedView .corePmc (eightIx cix k) isl
  else if sel ≤ 0x010F then s.reg .corePmsel (eightIx cix k)
  else if sel = 0x0110 then s.coreStat isl c.b.core
  else if sel = 0x0111 then s.corePipe isl c.b.core
  else if sel ≤ 0x0207 then
    if c.g.priv then s.reg .islPmc (eightIx isl k) else s.sharedView .islPmc (eightIx isl k) isl
  else if sel ≤ 0x020F then s.reg .islPmsel (eightIx isl k)
  else if sel = 0x0210 then s.dstat isl
  else if sel = 0x0211 then s.cohmode isl
  else if sel = 0x0212 then s.reg .islLease isl
  else s.clkStat isl

/-- Registers that only a privileged kernel reads. -/
def sysPrivRead (sel : Nat) : Bool := 0x0210 ≤ sel && sel ≤ 0x0212
/-- Registers that a privileged kernel writes. -/
def sysWritable (sel : Nat) : Bool := (0x0100 ≤ sel && sel ≤ 0x0110) || sel == 0x0211

/-- `sysrd` (R344). -/
def execSysrd (w : WordS) (s : State) : Out :=
  let u := useSysrd w
  let sel := w.imm32.toNat
  issueWith s (fun c => (checkEncoding c u).andThen
    ((if sysPrivRead sel && !c.g.priv then Check.stop 0x02 [] 0 0 else .go).andThen
      (if c.qOn w.guard then checkSources c u [] else .go))) fun c =>
    let x := if c.qOn w.guard then c.w.writeS w.sd.toNat (BitVec.ofNat 64 (sysValue s c sel)) else c.w
    s.setWarp c.wid (x.advance c.i.lanes 1)

/-- The effect of `syswr` (R344): the named fields take the value's bits. -/
def sysWrite (s : State) (c : Ctx) (sel v : Nat) : State :=
  let isl := c.b.island
  let cix := coreIx isl c.b.core
  if sel ≤ 0x0107 then s.writeCounter .corePmc (eightIx cix (sel % 8)) v
  else if sel ≤ 0x010F then s.setReg .corePmsel (eightIx cix (sel % 8)) (v % 2 ^ 8)
  else if sel = 0x0110 then s.setReg .coreStat cix (bits v 2 2)
  else
    (if bit v 1 then s.predclr isl else s).setPlain isl v

/-- `syswr` (R344). -/
def execSyswr (w : WordS) (s : State) : Out :=
  let u := useSyswr w
  let sel := w.imm32.toNat
  issueWith s (fun c => (checkEncoding c u).andThen
    ((if !sysWritable sel || !c.g.priv then Check.stop 0x02 [] 0 0 else .go).andThen
      (if c.qOn w.guard then checkSources c u [] else .go))) fun c =>
    let s1 := if c.qOn w.guard then sysWrite s c sel (c.w.sreg w.sa.toNat).toNat else s
    s1.setWarp c.wid (c.w.advance c.i.lanes 1)

/-- A write of CORE_STAT (R196): DRAIN. -/
def execCoreDrainWrite (island core value : Nat) (s : State) : Out :=
  .next (s.setReg .coreStat (coreIx island core) (bits value 2 2))

end Sys2Proof.Machine
end

