-- ==== Sys2Proof/Machine/EngineMem.lean ====
section
/-!
DEFINITION. Accesses to global memory that do not come from a lane (R71, R86): engines, packets, and the Map Keeper's ring; the
arrival counters (R212 to R215); rank and window tables (R166, R167, R364); and routes (R163, R164).
-/
namespace Sys2Proof.Machine

/-! ### Engine accesses (R71, R347) -/

/-- What an access is for: a read, a fetch of code, a write, a change of an arrival counter, or a `ratom`. -/
inductive EngKind where
  | read | exec | write | counter | ratom
  deriving DecidableEq, Repr

/-- What it comes to: not yet possible, stalled by TRANSIT, a replayable class, a class that ends the command (or refuses the
packet), or the physical addresses with their sizes and page types. -/
inductive EngOut where
  | wait (s : State)
  | transit (s : State) (va : Nat)
  | page (s : State) (cls va : Nat)
  | stop (s : State) (cls va : Nat)
  | ok (s : State) (ps : List (Nat × Nat × Nat))

/-- Where an access is made from: an island, and the core whose engine makes it; none for a packet or the control die. Island 24
is the control die's LPDDR6, which has no page types (R364). -/
structure EngSite where
  island : Nat
  core : Option Nat
  asid : Nat
  /-- the warp whose command makes it, or the packet it serves -/
  warp : Nat
  packet : Option Nat
  /-- partition of the requesting grid (R226) -/
  part : Nat

/-- The class that the page's type raises (R71, R213). A packet meets REMOTE_TYPE for every one. -/
def engTypeFault (s : State) (c : EngSite) (k : EngKind) (leaf : Nat) (ws : List Nat) : Option Nat :=
  let cls (x : Nat) : Option Nat := some (if c.core.isSome then x else 0x33)
  match leafType leaf, k with
  | 2, .read | 2, .exec => if ws.all s.written then none else cls 0x14
  | 2, .write | 2, .ratom => if ws.any s.written then cls 0x13 else none
  | 2, .counter => cls 0x12
  | 3, .counter => cls 0x12
  | 3, _ => if c.core = some (leafOwner leaf) then none else cls 0x15
  | _, _ => none

/-- Whether the leaf permits an access (R145, R362). -/
def engPermitted (k : EngKind) (leaf : Nat) : Bool :=
  match k with
  | .read => leafR leaf
  | .exec => leafX leaf
  | .write => leafW leaf
  | .counter | .ratom => leafR leaf && leafW leaf

/-- Translates and checks accesses of (address, bytes), one after the other; `ty` collects whether a SEQ page is met. -/
def State.engResolve (s : State) (c : EngSite) (k : EngKind) : List (Nat × Nat) → EngOut × Bool
  | [] => (.ok s [], false)
  | (va, n) :: xs =>
    if c.island = 24 then
      match s.engResolve c k xs with
      | (.ok s ps, t) => (.ok s ((lpddrAddr va, n, 1) :: ps), t)
      | r => r
    else
      match s.translate c.island c.core c.asid va with
      | (.absent _, s) => (.page s 0x10 va, false)
      | (.leaf e z, s) =>
        let pa := hbmAddr c.island (leafPA e z va)
        if leafTransit e then (.transit s va, false)
        else match engTypeFault s c k e (wordsOf pa n) with
          | some x => (.stop s x va, false)
          | none =>
            if !engPermitted k e then (.page s 0x11 va, false)
            else match s.engResolve c k xs with
              | (.ok s ps, t) => (.ok s ((pa, n, leafType e) :: ps), t || leafType e == 0)
              | r => r

/-- Resolves accesses and frees their words (R86, R122): they are then performed at the slices. -/
def State.engAccess (s : State) (c : EngSite) (k : EngKind) (xs : List (Nat × Nat)) : EngOut :=
  match s.engResolve c k xs with
  | (.ok s ps, seq) =>
    if c.island = 24 then .ok s ps
    else
      let ws := (ps.flatMap fun p => wordsOf p.1 p.2.1).eraseDups
      let write := k == .write || k == .counter || k == .ratom
      let place : Msg := { Msg.blank s.fresh .engine c.island (c.core.getD 0) c.warp with
        words := ws, ptype := if seq then 0 else 1, solo := write, asker := c.packet, acq := c.core.isSome, part := c.part }
      let r := s.clearFor place (ps.any fun p => p.2.2 == 2)
      if r.1 then .ok (r.2.l2Request c.island c.part ws) ps else .wait r.2
  | r => r.1

/-- Bytes that resolved reads return. -/
def State.engBytes (s : State) (ps : List (Nat × Nat × Nat)) : List Byte := ps.flatMap fun p => Memory.readN s.mem p.1 p.2.1

/-- Cells of bytes at resolved addresses. -/
def engCells : List (Nat × Nat × Nat) → List Byte → List Host.Cell
  | [], _ => []
  | (pa, n, _) :: ps, bs => ((bs.take n).zipIdx.map fun b => (pa + b.2, b.1)) ++ engCells ps (bs.drop n)

/-- Writes bytes at resolved addresses; on a ONCE page the written bits are set with them (R83, R121). -/
def State.engWrite (s : State) (c : EngSite) (k : EngKind) (ps : List (Nat × Nat × Nat)) (bs : List Byte) : State :=
  let cells := engCells ps bs
  if c.island = 24 then { s with mem := Memory.writeCells s.mem cells }
  else
    (s.writeThrough c.island (k == .counter || k == .ratom) cells).markWritten
      ((ps.filter fun p => p.2.2 == 2).flatMap fun p => wordsOf p.1 p.2.1).eraseDups

/-- Cuts `n` bytes at an address at multiples of `m`. -/
def cutAt (m : Nat) (a n : Nat) : Nat → List (Nat × Nat)
  | 0 => []
  | fuel + 1 => if n = 0 then [] else
    let k := min n (m - a % m)
    (a, k) :: cutAt m (a + k) (n - k) fuel

/-! ### Arrival counters (R212 to R215) -/

/-- COUNT + k in a record's 128 bits, saturating with OVF (R214). -/
def ctrAdd (k v : Nat) : Nat :=
  let x := bits v 47 0 + k
  if x < 2 ^ 48 then setBits v 47 0 x else setBits (setBits v 47 0 (2 ^ 48 - 1)) 126 126 1

/-- ERR := 1 (R214). -/
def ctrErr (v : Nat) : Nat := setBits v 63 63 1

/-- A far RMW is performed at its slice (R226). -/
def State.farSeen (s : State) (c : EngSite) (ps : List (Nat × Nat × Nat)) : State :=
  ps.foldl (fun s p =>
    let pa := p.1 - hbmAddr c.island 0
    s.gaugeSee c.island 0x12 (homeSlice pa) (some c.part) pa) s

/-- One change of an arrival counter at its home slice (R214). -/
def State.ctrUpdate (s : State) (c : EngSite) (va : Nat) (f : Nat → Nat) : EngOut :=
  match s.engAccess c .counter [(va, 16)] with
  | .ok s ps =>
    let old := valueOf (s.engBytes ps)
    .ok ((s.engWrite c .counter ps (bytesOf 16 (f old))).farSeen c ps) ps
  | r => r

/-- The states in which `waitarr` completes (R216): 0 not yet, 1 reached or ERR, 2 OVF. -/
def ctrState (v : Nat) : Nat :=
  if bit v 126 then 2
  else if bit v 63 || (bit v 127 && decide (bits v 111 64 ≤ bits v 47 0)) then 1 else 0

/-! ### Rank and window tables (R166, R167, R364) -/

def rankKey (job island rank : Nat) : Nat := (job * 32 + island) * 65536 + rank
def windowKey (job island w : Nat) : Nat := (job * 32 + island) * 4096 + w

/-- Reads a rank entry through the island's cache of 256 (R166). -/
def State.rankEntry (s : State) (job island rank : Nat) : Nat × State :=
  let e := NMap.getD s.ranks (rankKey job island rank) 0
  let k := (job, island, rank)
  if s.rankCache.contains k then (e, s)
  else
    let mine := s.rankCache.filter fun x => x.2.1 == island
    let old := if mine.length < 256 then s.rankCache else s.rankCache.erase (mine.headD k)
    (e, { s with rankCache := old ++ [k] })

/-- An entry that names its rank (R166, R167); NODE 25 to 31 counts as a reserved value (log 23). -/
def rankOk (e : Nat) : Bool := bit e 5 && !bit e 7 && bits e 63 40 == 0 && bits e 4 0 ≤ 24

/-- Fields of a window entry (R364); a BASE off a 64 KiB boundary acts as V 0. -/
def winBase (e : Nat) : Nat := bits e 47 0
def winAsid (e : Nat) : Nat := bits e 59 48
def winSize (e : Nat) : Nat := bits e 88 64
def winOk (e : Nat) : Bool := bit e 60 && winBase e % 65536 == 0

def State.window (s : State) (job island w : Nat) : Nat := NMap.getD s.windows (windowKey job island w) 0

/-! ### Routes (R163, R164) -/

/-- State of a port in the table in force (R161). -/
def Topology.portCode (t : Topology) (node port : Nat) : Nat :=
  if node = 24 then NMap.getD t.ctlPorts port 0
  else (t.sites[node]?).elim 0 fun x => NMap.getD x.ports port 0

/-- A live site (R11). -/
def Topology.live (t : Topology) (n : Nat) : Bool := (t.sites[n]?).elim false fun x => x.live

/-- Hop i of a route word. -/
def routeHop (route i : Nat) : Nat := bits route (4 * i + 3) (4 * i)

/-- The check of R164 from hop i at a node: up to and including the first fibre hop (R208). -/
def Topology.routeOk (t : Topology) (route : Nat) : Nat → Nat → Bool
  | 0, _ => true
  | left + 1, node =>
    let h := routeHop route (8 - (left + 1))
    if h = 15 then true
    else
      let c := t.portCode node h
      if c % 4 = 0 || bit c 2 then false
      else if c % 4 = 2 then true
      else match farEnd node h with
        | some (24, _) => left = 0 || routeHop route (8 - left) == 15
        | some (n, _) => t.live n && t.routeOk route left n
        | none => false

/-- Whether a route leaves the panel from a node: by a fibre hop, or as the word that says no route exists (R208, R424). -/
def crosses (route : Nat) : Nat → Nat → Bool
  | 0, _ => false
  | left + 1, node =>
    let h := routeHop route (8 - (left + 1))
    if h = 15 then false
    else if h = 14 then true
    else match farEnd node h with
      | some (n, _) => crosses route left n
      | none => portKind fullLive node h == 2

/-- A route word that sends a response back over the ports a packet arrived by (R201). -/
def backRoute (ports : List Nat) : Nat :=
  ((ports ++ List.replicate 8 15).take 8).zipIdx.foldl (fun (r : Nat) (x : Nat × Nat) => r + x.1 % 16 * 2 ^ (4 * x.2)) 0

/-! ### Packets -/

/-- A packet with nothing in it but its number, kind, place and source. -/
def Packet.blank (id : Nat) (kind : PacketKind) (node : Nat) : Packet where
  id := id
  kind := kind
  place := .atRouter node
  src := node
  route := 0xFFFFFFFF
  hop := 0
  back := []
  grid := 0
  warp := 0
  gen := 0
  cmd := 0
  job := 0
  rank := 0
  win := 0
  ofs := 0
  payload := []
  len := 0
  tcen := false
  tcwin := 0
  tcofs := 0
  scen := false
  scva := 0
  asid := 0
  op := ⟨0, 0, 0, 0, 0, 0, 0, 0⟩
  ret := false
  res := 0
  cls := 0
  part := 0
  record := []
  since := none
  origin := 0
  crossed := false
  ofResp := false
  issuer := (0, 0, 0, 0)

def State.addPacket (s : State) (p : Packet) : State := { s with packets := s.packets ++ [p] }
def State.dropPacket (s : State) (id : Nat) : State := { s with packets := s.packets.filter fun p => p.id != id }
def State.setPacket (s : State) (p : Packet) : State := { s with packets := s.packets.map fun x => if x.id = p.id then p else x }
def State.packet? (s : State) (id : Nat) : Option Packet := s.packets.find? fun p => p.id == id

/-- Response-class packets (R201). -/
def PacketKind.isResponse : PacketKind → Bool
  | .getData | .ratomResult | .completion | .errorNotice | .retryNotice => true
  | .putData | .getRequest | .ratomReq | .notify | .launchRec => false

/-- A packet in answer to another, at node `node`, over the way that one came; one to another panel goes to the node it came from. -/
def Packet.reply (p : Packet) (id node : Nat) (kind : PacketKind) : Packet :=
  { p with id := id, kind := kind, place := .atRouter node, src := node, route := backRoute p.back, hop := 0, back := [], payload := []
           crossed := false, rank := if p.origin = 1 then p.src else p.rank }

/-- Sends an answer to a packet and drops the packet. -/
def State.replyTo (s : State) (p : Packet) (node : Nat) (kind : PacketKind) (f : Packet → Packet := id) : State :=
  let (k, s) := s.newId
  (s.dropPacket p.id).addPacket (f (p.reply k node kind))

/-! ### Replays (R377) -/

/-- Changes a command in place. -/
def Warp.modCmd (w : Warp) (id : Nat) (f : Cmd → Cmd) : Warp :=
  let g (l : List Cmd) : List Cmd := l.map fun c => if c.id = id then f c else c
  { w with mq := g w.mq, xq := g w.xq, fq := g w.fq }

/-- Removes a command. -/
def Warp.dropCmd (w : Warp) (id : Nat) : Warp :=
  let g (l : List Cmd) : List Cmd := l.filter fun c => c.id != id
  { w with mq := g w.mq, xq := g w.xq, fq := g w.fq }

/-- A command's site: its warp's island, core and address space. -/
def State.warpSite (s : State) (wid : Nat) : EngSite :=
  let b := s.block (s.warp wid).block
  ⟨b.island, some b.core, (s.grid b.grid).asid, wid, none, (s.grid b.grid).part⟩

end Sys2Proof.Machine
end

