-- ==== Sys2Proof/Machine/Launch.lean ====
section
/-!
DEFINITION. Launch queues, validation, release and the island dispatcher (R179 to R190), the retirement of warps, blocks and grids (R39,
R185), and LKP_GRIDCTL (R186).
-/
namespace Sys2Proof.Machine

/-! ### What a record asks for (R181) -/

def recWarps (r : List Word) : Nat := recBits r 0 36 32 + 1
def recClus (r : List Word) : Nat := recBits r 0 39 37 + 1
def recAcc (r : List Word) : Nat := recBits r 0 44 40
def recCoop (r : List Word) : Bool := recBits r 0 45 45 == 1
def recMinres (r : List Word) : Nat := recBits r 0 51 47
def recNblk (r : List Word) : Nat := recBits r 0 31 0
def recRegg (r : List Word) : Nat := recBits r 1 5 0
def recBerm (r : List Word) : Nat := recBits r 1 38 29
def recPart (r : List Word) : Nat := recBits r 1 57 51
def recAsid (r : List Word) : Nat := recBits r 1 50 39
def recRank (r : List Word) : Nat := recBits r 5 47 32
def recJob (r : List Word) : Nat := recBits r 5 63 48
def recOvl (r : List Word) : Nat := recBits r 3 15 0

/-- Scratchpad footprint of a record's block at a warp width (R108). -/
def recFootprint (r : List Word) (ww : Nat) : Nat :=
  recBits r 1 28 20 * 1024 + recWarps r * ww * recBits r 1 11 6 * 64

/-- Blocks of a record that an empty core of a repair-map code holds (R188). -/
def emptyCap (r : List Word) (code : Nat) : Nat :=
  let ww := warpwOf code
  let w := recWarps r
  if ww = 0 then 0
  else
    let k := min (64 / w) (64 / (w * recRegg r))
    let k := if recAcc r = 0 then k else min k (16 / (w * recAcc r))
    if recFootprint r ww = 0 then k else min k (262144 / recFootprint r ww)

/-! ### Validation (R182) -/

/-- A notify condition that refuses its record (R184). -/
def badCond (s : State) (c : Nat) : Bool :=
  bits c 7 6 != 0 || bits c 31 20 != 0 || (bit c 5 && !s.topo.live (bits c 4 0))

/-- Reserved fields and ranges (CAUSE 0x01). -/
def badFields (s : State) (r : List Word) : Bool :=
  [(0, 63, 52), (1, 63, 58), (2, 63, 48), (3, 63, 46), (4, 63, 48), (11, 7, 6), (11, 63, 20), (12, 63, 0), (13, 63, 0),
    (14, 3, 0), (14, 63, 48), (15, 7, 0)].any (fun x => recBits r x.1 x.2.1 x.2.2 != 0) ||
  recNblk r == 0 || decide (16 < recAcc r) ||
  (if recCoop r then recMinres r == 0 || decide (20 < recMinres r) else recMinres r != 0) ||
  recRegg r == 0 || decide (32 < recRegg r) || decide (32 < recBits r 1 11 6) ||
  decide (4 * recBits r 1 11 6 < recBits r 1 19 12) || decide (256 < recBits r 1 28 20) || decide (512 < recBerm r) ||
  recBits r 3 45 32 == 0 || decide (8192 < recBits r 3 45 32) || decide (recBits r 3 45 32 ≤ recBits r 3 28 16) ||
  (recBits r 3 31 31 == 0 && recBits r 3 30 29 != 0) || [6, 7, 8, 9].any fun d => badCond s (recBits r d 63 0)

/-- An ASID live in a partition on an island (R148). -/
def State.asidLive (s : State) (island asid part : Nat) : Bool :=
  match NMap.find? s.asids (island * 4096 + asid) with
  | some x => x.1 == part
  | none => false

/-- Cores of a hardware cluster that may run a partition's grids (R161, R389). -/
def State.clusterCores (s : State) (p island k : Nat) : List Nat :=
  if s.ownsCluster p island k then ((List.range 8).map (· + 8 * k)).filter fun c => s.coreCode island c != 3 else []

/-- Blocks that a hardware cluster holds while empty. -/
def State.clusterCap (s : State) (r : List Word) (island k : Nat) : Nat :=
  sum ((List.range 8).map fun c => emptyCap r (s.coreCode island (8 * k + c)))

/-- Blocks that each hardware cluster of a partition's slice holds while empty (R182, R389): those its children hold among them. -/
def State.sliceCaps (s : State) (r : List Word) (p island : Nat) : List Nat :=
  (List.range 20).map fun k => if bit (s.clmask p island) k then s.clusterCap r island k else 0

/-- Blocks that each hardware cluster holds while empty where a partition may place its own grids. -/
def State.clusterCaps (s : State) (r : List Word) (p island : Nat) : List Nat :=
  (List.range 20).map fun k => if s.ownsCluster p island k then s.clusterCap r island k else 0

/-- Inserts into a descending list. -/
def insertDesc (x : Nat) : List Nat → List Nat
  | [] => [x]
  | y :: ys => if y ≤ x then x :: y :: ys else y :: insertDesc x ys

/-- Whether NBLK blocks, in their cluster groups, can all be placed on the MINRES clusters that hold most (R182; log 24). -/
def coopFits (r : List Word) (caps : List Nat) : Bool :=
  let n := recClus r
  let best := ((caps.foldl (fun l x => insertDesc x l) []).take (recMinres r))
  let full := recNblk r / n
  let room := sum (best.map fun c => c / n)
  decide (full < room) || (full == room && (recNblk r % n == 0 || best.any fun c => decide (recNblk r % n ≤ c % n)))

/-- A partition's whole berm share on an island, in granules of 64 KiB (R391): partition 0 holds the whole island. -/
def State.bermShare (s : State) (p island : Nat) : Nat := if p = 0 then 512 else bits (s.reg .partShare (partIx p island)) 41 32

/-- Berm granules of a partition's running grids. -/
def State.bermUsed (s : State) (p island : Nat) : Nat :=
  sum ((s.grids.values.filter fun g =>
    g.island == island && g.part == p && (g.status == .released || g.status == .inTable)).map fun g => recBerm g.record)

/-- Berm granules of a partition free beside its running grids and its children's shares (R183, R393). -/
def State.bermFree (s : State) (p island : Nat) : Nat :=
  s.bermShare p island - s.bermUsed p island - sum ((s.childrenOf p).map fun c => s.bermShare c island)

/-- Clusters in a partition's mask on an island. -/
def State.clustersHeld (s : State) (p island : Nat) : Nat := ((List.range 20).filter fun k => bit (s.clmask p island) k).length

/-- Causes 0x04 to 0x06 on an island, 0 for none (R182). -/
def State.roomCause (s : State) (r : List Word) (island : Nat) : Nat :=
  let p := recPart r
  let caps := s.sliceCaps r p island
  if caps.all fun c => c == 0 then 4
  else if s.bermShare p island < recBerm r then 5
  else if recCoop r && (decide (s.clustersHeld p island < recMinres r) || !coopFits r caps) then 6
  else 0

/-- The rank entry of a record in node 24's copy (R182). -/
def State.hostRank (s : State) (r : List Word) : Nat := NMap.getD s.ranks (rankKey (recJob r) 24 (recRank r)) 0

/-- NRANKS of a job (R166). -/
def State.nranksOf (s : State) (job : Nat) : Nat := NMap.getD s.nranks job 0

/-- The causes that depend on the rank, tested again at release (R183); where the rank names no live island, an ASID live on none is
the lower cause (log 86). -/
def State.rankCause (s : State) (r : List Word) : Nat :=
  let e := s.hostRank r
  let node := bits e 4 0
  let bad := s.nranksOf (recJob r) ≤ recRank r || !rankOk e || node == 24 || !s.topo.live node
  let live (n : Nat) : Bool := s.topo.live n && s.asidLive n (recAsid r) (recPart r)
  if !(if bad then (List.range 24).any live else live node) then 2 else if bad then 3 else s.roomCause r node

/-- Validation at enqueue: the lowest cause, 0 for a valid record (R182). -/
def State.recordCause (s : State) (q : Nat) (r : List Word) : Nat :=
  if badFields s r then 1
  else if recPart r != bits (s.reg .lkpQctl q) 10 4 then 2
  else s.rankCause r

/-- Validation of a device-side launch (R190): its launcher's grid is given. -/
def State.deviceCause (s : State) (g : Grid) (r : List Word) : Nat :=
  if badFields s r then 1
  else if !s.asidLive g.island (recAsid r) (recPart r) then 2
  else
    let e := NMap.getD s.ranks (rankKey (recJob r) g.island (recRank r)) 0
    if s.nranksOf (recJob r) ≤ recRank r || !rankOk e || bits e 4 0 == 24 || !s.topo.live (bits e 4 0) then 3
    else
      let k := s.roomCause r g.island
      if k != 0 then k
      else if [6, 7, 8, 9].any (fun d => recBits r d 5 5 == 1) || recPart r != g.part || recAsid r != g.asid ||
          recJob r != recJob g.record || recRank r != recRank g.record then 7
      else 0

/-! ### Queue registers (R179) -/

/-- Records in a queue's ring. -/
def State.qSize (s : State) (q : Nat) : Nat := 2 ^ (min (bits (s.reg .lkpQbase q) 51 48) 8 + 4)

/-- LPDDR6 address of a queue's slot. -/
def State.qSlot (s : State) (q ix : Nat) : Nat := lpddrAddr (bits (s.reg .lkpQbase q) 47 7 * 128 + 128 * ix)

/-- The 16 dwords at an address. -/
def State.recordAt (s : State) (a : Nat) : List Word := (List.range 16).map fun d => BitVec.ofNat 64 (s.readMem (a + 8 * d) 8)

/-- Writes dword 15 of a queue's slot (R180). -/
def State.dword15 (s : State) (q ix v : Nat) : State := s.writeMem (s.qSlot q ix + 120) 8 v

/-- Reads and validates `n` records from a slot on (R180). -/
def State.enqueueFrom (s : State) (q ix : Nat) : Nat → State
  | 0 => s
  | n + 1 =>
    let r := s.recordAt (s.qSlot q ix)
    let s := { s with queueRecs := s.queueRecs ++ [(⟨q, ix, r, s.recordCause q r, false⟩ : QueuedRecord)] }
    s.enqueueFrom q ((ix + 1) % s.qSize q) n

/-- Drops the head of a queue and moves HEAD on. -/
def State.popHead (s : State) (q : Nat) : State :=
  let h := s.qHead q
  ({ s with queueRecs := s.queueRecs.filter fun r => !(r.queue == q && r.index == h) }).setReg .lkpQhead q ((h + 1) % s.qSize q)

/-- The record at a queue's head. -/
def State.headRec (s : State) (q : Nat) : Option QueuedRecord :=
  s.queueRecs.find? fun r => r.queue == q && r.index == s.qHead q

/-- Refuses a head record: dword 15 takes STATE 0x02 and the CAUSE (R180). -/
def State.refuseHead (s : State) (q cause : Nat) : State := (s.dword15 q (s.qHead q) (2 + cause * 2 ^ 8)).popHead q

/-- Refused heads leave in ring order, whatever EN and STOP (R180, R183). -/
def State.serveHead (s : State) (q : Nat) : Nat → State
  | 0 => s
  | n + 1 =>
    match s.headRec q with
    | some r => if r.cause = 0 then s else (s.refuseHead q r.cause).serveHead q n
    | none => s

/-- Serves a queue's head and evaluates the heads' conditions (R184). -/
def State.serveQueue (s : State) (q : Nat) : State := (s.serveHead q s.queueRecs.length).evalHeads

/-- `LKP_QTAIL` (R179, R180): before stage 3 records are not read; stage 3 enqueues what TAIL has passed. -/
def execLkpQtailWrite (queue value : Nat) (s : State) : Out :=
  let n := s.qSize queue
  let h := s.qHead queue
  let old := s.reg .lkpQtail queue
  let new := bits value 11 0
  let dist (t : Nat) : Nat := (t + n - h % n) % n
  if new < n && dist old ≤ dist new then
    let s' := s.setReg .lkpQtail queue new
    .next (if s.boot.starting then s' else (s'.enqueueFrom queue old (dist new - dist old)).serveQueue queue)
  else .next s

/-- `LKP_QBASE` (R179): ignored while the ring holds records. HEAD and TAIL, equal then, keep their values also where LOG2N now makes the
ring smaller than they are (DESIGN CHOICE, log 128). -/
def execLkpQbaseWrite (queue value : Nat) (s : State) : Out :=
  .next (if s.qHead queue = s.reg .lkpQtail queue then s.setReg .lkpQbase queue (bits value 51 7 * 2 ^ 7) else s)

/-- `LKP_QCTL` (R179): ignored as a whole where it would change PART while the ring holds records. -/
def execLkpQctlWrite (queue value : Nat) (s : State) : Out :=
  let old := s.reg .lkpQctl queue
  .next (if bits value 10 4 != bits old 10 4 && s.qHead queue != s.reg .lkpQtail queue then s
    else s.setReg .lkpQctl queue (bits value 11 0))

/-! ### Release (R183) -/

/-- GIDs in use, and those drawn ahead for an island's launches (R180). -/
def State.gidsInUse (s : State) : List Nat := s.grids.keys ++ s.gidReserve.values

/-- The next GID: the first after the last given that is not in use, from 1 to 0xFFFF (R180). -/
def State.nextGid (s : State) : Nat :=
  ((List.range (s.gidsInUse.length + 1)).find? fun k => !s.gidsInUse.contains ((s.lastGid + k) % 65535 + 1)).elim 1
    fun k => (s.lastGid + k) % 65535 + 1

/-- `launch` commands that have left their queue's head for the table of an island, their grid not yet in it (R190). -/
def State.launching (s : State) (island : Nat) : Nat :=
  sum (s.warps.values.map fun w =>
    if (s.block w.block).island == island then (w.xq.filter fun c => c.op == 0xEB && c.running && c.n == 0).length else 0)

/-- Entries taken in an island's dispatcher table: grids placed in it, records on their way to it, and launches in progress. -/
def State.tableTaken (s : State) (island : Nat) : Nat :=
  (s.grids.values.filter fun g => g.island == island && (g.status == .inTable || g.status == .released)).length + s.launching island

/-- Whether a queue's head may be released (R183). A head that a cause of its rank now refuses needs neither berm nor a table entry for
that (DESIGN CHOICE, log 129). -/
def State.eligible (s : State) (q : Nat) : Bool :=
  let c := s.reg .lkpQctl q
  match s.headRec q with
  | none => false
  | some r =>
    let e := s.hostRank r.words
    let node := bits e 4 0
    bit c 0 && !bit c 11 && r.met && !bit e 6 &&
      (s.rankCause r.words != 0 ||
        (decide (recBerm r.words ≤ s.bermFree (recPart r.words) node) && decide (s.tableTaken node < 64)))

/-- The queue released next: the highest PRIO, and among equals in turn after the queue last released there (R183). -/
def State.nextQueue (s : State) : Option Nat :=
  let es := (List.range 64).filter s.eligible
  let prio (q : Nat) : Nat := bits (s.reg .lkpQctl q) 3 1
  let top := (es.map prio).foldl max 0
  let best := es.filter fun q => prio q == top
  let last := NMap.getD s.rr top 63
  ((List.range 64).map fun k => (last + 1 + k) % 64).find? fun q => best.contains q

/-- Lowest multiple of 64 KiB where a berm window of `n` granules finds room among the island's windows (log 21). -/
def firstFit (taken : List (Nat × Nat)) (size : Nat) : Nat :=
  let ends := 0 :: taken.map fun t => t.1 + t.2
  let free (a : Nat) : Bool := taken.all fun t => a + size ≤ t.1 || t.1 + t.2 ≤ a || t.2 == 0
  (ends.filter free).foldl min ((ends.foldl max 0))

/-- The image that a grid's code belongs to, and whether it is privileged: the loaded image of its overlay number, else its address
space (log 25). -/
def State.imageOf (s : State) (part island asid ovl : Nat) : Nat × Bool :=
  match s.images.find? fun e => e.part == part && e.island == island && e.asid == asid && e.ovls.any fun o => o.2.1 == ovl with
  | some e => (e.image, e.priv)
  | none => (2 ^ 32 + asid, false)

/-- A grid as released on an island (R180, R190). -/
def State.newGrid (s : State) (r : List Word) (island prio : Nat) (device : Bool) : Grid :=
  let im := s.imageOf (recPart r) island (recAsid r) (recOvl r)
  let taken := (s.grids.values.filter fun (g : Grid) => g.island == island).map fun (g : Grid) => (g.bermBase, recBerm g.record * 65536)
  { Grid.absent with
    record := r, island := island, part := recPart r, prio := prio, status := .released
    bermBase := firstFit taken (recBerm r * 65536)
    image := im.1, priv := im.2, presIsland := s.presIsland (recPart r) island, deviceLaunch := device }

/-- Key of the clock of the last release: at most one in 4 ns (R183). -/
def releaseClock : Nat := 100

/-- `RECORD_RELEASE` (R180, R183): the chosen head is refused where a cause that depends on its rank now applies; otherwise its grid
receives a GID and the record sets out for the island of its rank. -/
def execRecordRelease (s : State) : Out :=
  if s.clk < NMap.getD s.rr releaseClock 0 then .next s
  else match s.nextQueue with
  | none => .next s
  | some q =>
    match s.headRec q with
    | none => .next s
    | some r =>
      let cause := s.rankCause r.words
      if cause != 0 then .next ((s.refuseHead q cause).serveQueue q)
      else
        let e := s.hostRank r.words
        let prio := bits (s.reg .lkpQctl q) 3 1
        let gid := s.nextGid
        let node := bits e 4 0
        let g := s.newGrid r.words node prio false
        let s := (s.setGrid gid g).dword15 q (s.qHead q) (1 + gid * 2 ^ 16)
        let s := { s with lastGid := gid, rr := NMap.set (NMap.set s.rr prio q) releaseClock (s.clk + 8) }
        let (id, s) := s.newId
        let s := s.addPacket { Packet.blank id .launchRec 24 with route := bits e 39 8, grid := gid, part := g.part, record := r.words, len := 128 }
        .next ((s.popHead q).serveQueue q |>.gaugeSee 24 0x40 q (some g.part) gid)

/-- A grid enters its island's table: its berm window is zero, and its first block begins to wait (R108, R187). -/
def State.enterTable (s : State) (gid : Nat) : State :=
  let g := s.grid gid
  let (k, s) := s.newId
  (s.clearMem (bermAddr g.island g.bermBase) (recBerm g.record * 65536)).setGrid gid
    { g with status := .inTable, arrival := k, waitingSince := some (s.itime g.island) }

/-- `LAUNCH_RECORD_ARRIVAL` (R183, R187). -/
def execLaunchRecordArrival (grid : Nat) (s : State) : Out :=
  match s.packets.find? fun p => p.kind == .launchRec && p.grid == grid &&
      (match p.place with | .atTarget n => n == (s.grid grid).island | _ => false) with
  | some p => .next (if (s.grid grid).status = .released then (s.dropPacket p.id).enterTable grid else s.dropPacket p.id)
  | none => .next s

/-! ### Room on a core (R188) -/

/-- What a block of a grid takes of a core, as the dispatcher tries it: the slot for its entry overlay and whether it must be loaded. -/
structure Fit where
  core : Nat
  slot : Nat
  load : Bool

/-- The slot a new block's entry overlay takes on a core (R188): `held` are taken, `loads` those that blocks placed earlier in the same
step load it into. -/
def State.entrySlot (s : State) (g : Grid) (core : Nat) (held loads : List Nat) : Option (Nat × Bool) :=
  let r := g.record
  let has (k : Nat) : Bool := loads.contains k || match NMap.find? (s.core g.island core).tags k with
    | some t => t.image == g.image && t.ovl == recOvl r
    | none => false
  let free (k : Nat) : Bool := !held.contains k
  if recBits r 3 31 31 = 1 then
    let k := recBits r 3 30 29
    if has k then some (k, false) else if free k then some (k, true) else none
  else match (List.range 4).find? has with
    | some k => some (k, false)
    | none => ((List.range 4).find? free).map fun k => (k, true)

/-- What is taken on a core, blocks placed earlier in the same step included, and the slots those load their overlay into. -/
structure Taken where
  blocks : Nat
  warps : Nat
  gran : Nat
  bytes : Nat
  tiles : Nat
  slots : List Nat
  loads : List Nat

def State.taken (s : State) (island core : Nat) : Taken :=
  ⟨(s.residents island core).length, s.slotsTaken island core, s.granTaken island core, s.scrTaken island core,
    (s.tilesTaken island core).length, s.slotsHeld island core, []⟩

/-- Another cooperative grid resident on a cluster, with or without a block on it (R189). -/
def State.coopOn (s : State) (island k gid : Nat) : Bool :=
  s.grids.any fun p => p.1 != gid && p.2.island == island && p.2.clusters.contains k

/-- Blocks on an island that stand on a cluster their partition's mask has lost. -/
def State.displaced (s : State) (island : Nat) : List (Nat × Block) :=
  s.blocks.filter fun b => b.2.island == island && !b.2.saved && !b.2.retired &&
    !bit (s.clmask (s.grid b.2.grid).part island) (b.2.core / 8)

/-- PART_SLICE.BUSY (R389, R390): blocks displaced by the partition's shrink, its children's among them, or by a level-1 partition's growth at
partition 0's expense, are not all saved. -/
def State.sliceBusy (s : State) (p island : Nat) : Bool :=
  (s.displaced island).any fun b =>
    let q := (s.grid b.2.grid).part
    q == p || (s.childrenOf p).contains q && p != 0 || q == 0 && s.parent p == 0 && bit (s.clmask p island) (b.2.core / 8)

/-- A block of a partition that no longer owns the cluster is still on it, or the cluster came with a growth whose BUSY is still 1
(R390). -/
def State.strangerOn (s : State) (part island k : Nat) : Bool :=
  (s.displaced island).any (fun b => b.2.core / 8 == k) || bit (s.part part island).gained k && s.sliceBusy part island

/-- Cores of a cluster where the dispatcher may place a grid's blocks at all (R188, R189, R390, R399). -/
def State.openCores (s : State) (gid : Nat) (g : Grid) (k : Nat) : List Nat :=
  if s.coopOn g.island k gid || s.strangerOn g.part g.island k then []
  else (s.clusterCores g.part g.island k).filter fun c =>
    s.reg .coreStat (coreIx g.island c) % 2 == 0 && bits (s.reg .coreStat (coreIx g.island c)) 2 2 == 0 &&
      (s.presCore g.part g.island c).isSome

/-- Whether a new block fits on a core beside what is taken. -/
def State.fitsOn (s : State) (g : Grid) (core : Nat) (t : Taken) : Option (Nat × Bool) :=
  let r := g.record
  let w := recWarps r
  let ww := warpwOf (s.coreCode g.island core)
  if t.blocks < 64 && t.warps + w ≤ 64 && t.gran + w * recRegg r ≤ 64 && t.bytes + recFootprint r ww ≤ 262144 &&
      t.tiles + w * recAcc r ≤ 16 then s.entrySlot g core t.slots t.loads
  else none

/-- The chosen core: most free warp slots, on a tie the lowest number (R188). -/
def bestCore (cs : List (Nat × Nat × Nat × Bool)) : Option (Nat × Nat × Bool) :=
  (cs.foldl (fun (b : Option (Nat × Nat × Nat × Bool)) x => match b with
    | some y => if x.2.1 < y.2.1 then some x else some y
    | none => some x) none).map fun x => (x.1, x.2.2)

/-- Places `n` blocks in turn on some cores, as (core, slot, load); none where one finds no room. -/
def State.fitAll (s : State) (g : Grid) (cores : List Nat) : Nat → NMap Taken → Option (List (Nat × Nat × Bool))
  | 0, _ => some []
  | n + 1, ts =>
    let at' (c : Nat) : Taken := (NMap.find? ts c).getD (s.taken g.island c)
    let tries := cores.filterMap fun c => (s.fitsOn g c (at' c)).map fun x => (c, (at' c).warps, x)
    match bestCore tries with
    | none => none
    | some (c, slot, load) =>
      let t := at' c
      let r := g.record
      let w := recWarps r
      let t' : Taken := ⟨t.blocks + 1, t.warps + w, t.gran + w * recRegg r,
        t.bytes + recFootprint r (warpwOf (s.coreCode g.island c)), t.tiles + w * recAcc r,
        if t.slots.contains slot then t.slots else t.slots ++ [slot], if load then slot :: t.loads else t.loads⟩
      (s.fitAll g cores n (NMap.set ts c t')).map fun l => (c, slot, load) :: l

/-- Cores by presented number, so that ties take the lowest CORENO (R188, R399; log 26). -/
def State.byCoreno (s : State) (g : Grid) (cs : List Nat) : List Nat :=
  let ps := cs.filterMap fun c => (s.presCore g.part g.island c).map fun n => (n, c)
  (List.range 160).filterMap fun n => (ps.find? fun p => p.1 == n).map Prod.snd

/-! ### Starting a block (R35, R36, R188) -/

/-- The pipe of the next warp: fewest resident warps, lowest number on a tie (R35). -/
def State.nextPipe (s : State) (island core : Nat) (more : List Nat) : Nat :=
  let n (p : Nat) : Nat := s.pipeCount island core p + (more.filter (· == p)).length
  [1, 2, 3].foldl (fun b p => if n p < n b then p else b) 0

/-- Pipes of a block's warps, in WARPID order. -/
def State.pipesFor (s : State) (island core : Nat) : Nat → List Nat → List Nat
  | 0, l => l
  | n + 1, l => s.pipesFor island core n (l ++ [s.nextPipe island core l])

/-- SplitMix64's mixing step: the seed of a warp (R102). -/
def warpSeed (blockId warpNo : Nat) : Nat := mix64 (blockId * 32 + warpNo)

/-- A warp at its start (R35, R92, R188). -/
def firstWarp (bid gid : Nat) (g : Grid) (blockId n pipe lanes slot : Nat) (tiles : List Nat) : Warp :=
  let r := g.record
  let w := Warp.start bid n pipe lanes ⟨slot, recBits r 3 28 16⟩ tiles (recRegg r)
  let put (k v : Nat) (m : NMap Word) : NMap Word := if v = 0 then m else NMap.set m k (BitVec.ofNat 64 v)
  { w with
    srseed := BitVec.ofNat 64 (warpSeed blockId n)
    s := put 4 gid (put 3 (recBits r 10 63 0) (put 2 (recNblk r) (put 1 (recBits r 5 31 0) (put 0 (recBits r 4 47 0) [])))) }

/-- Loads the entry overlay into a slot: its words are read from the grid's address space, as an engine reads (R145 gives X to the reads of
`ovld` alone; log 132), and the slot is tagged (R118). A page fault or a stop is answered with its class. -/
def State.loadEntry (s : State) (g : Grid) (core slot : Nat) : Option Nat × State :=
  let r := g.record
  let va := recBits r 2 47 0
  let n := recBits r 3 45 32 * 8
  match s.engAccess ⟨g.island, some core, g.asid, 0, none, g.part⟩ .read (cutAt 65536 va n 3) with
  | .ok s ps =>
    let s := { s with mem := Memory.writeN s.mem (slotAddr g.island core slot 0) (s.engBytes ps) }
    (some 0, s.modCore g.island core fun c => { c with tags := NMap.set c.tags slot ⟨g.image, recOvl r, va, g.asid⟩ })
  | .page s cls _ => (some cls, s)
  | .stop s cls _ => (some cls, s)
  | .wait s => (none, s)
  | .transit s _ => (none, s)

/-- Places one block: windows zero, warps bound, s registers filled (R35, R108, R188). Events of other cores happen before its own (R88),
so the core drops its REL words. -/
def State.startBlock (s : State) (gid blockId : Nat) (f : Nat × Nat × Bool) : State :=
  let g := s.grid gid
  let r := g.record
  let core := f.1
  let island := g.island
  let ww := warpwOf (s.coreCode island core)
  let w := recWarps r
  let foot := recFootprint r ww
  let scr := recBits r 1 28 20 * 1024
  let s := s.dropRel island core
  let here := s.onCore island core
  let base := firstFit (here.map fun b => (b.scrBase, b.footprint)) foot
  let wb := firstFit (here.map fun b => (b.wbBase, b.wbSize)) (2048 * w)
  let pipes := s.pipesFor island core w []
  let (bid, s) := s.newId
  let wids := (List.range w).map (· + s.fresh)
  let s := { s with fresh := s.fresh + w }
  let freeTiles := (List.range 16).filter fun t => !(s.tilesTaken island core).contains t
  let pc := (s.presCore g.part island core).getD core
  let b : Block :=
    { Block.absent with
      grid := gid, blockId := blockId, island := island, core := core, presCore := pc, presCluster := pc / 8
      warps := wids, warpw := ww, scrBase := base, scrSize := scr, sliceBase := base + scr, sliceSize := recBits r 1 11 6 * 64
      callArea := recBits r 1 19 12 * 16, wbBase := wb, wbSize := 2048 * w, slots := [f.2.1], placed := bid }
  let s := s.setBlock bid b
  let s := (List.range w).foldl (fun s k =>
    let tiles := (freeTiles.drop (k * recAcc r)).take (recAcc r)
    let s := tiles.foldl (fun s t => s.clearMem (accAddr island core t 0 0) 4096) s
    s.setWarp (wids.getD k 0) (firstWarp bid gid g blockId k (pipes.getD k 0) ww f.2.1 tiles)) s
  let s := (s.clearMem (scrAddr island core base) foot).clearMem (wbufAddr island core wb) (2048 * w)
  let s := s.modCore island core fun c =>
    { c with wtags := c.wtags.filter fun e => !(decide (wb ≤ 32 * e.1) && decide (32 * e.1 < wb + 2048 * w)) }
  let s := s.modIsl island fun x => { x with placed := (x.placed + 1) % 2 ^ 32 }
  let s := s.modGrid gid fun g => { g with blocks := g.blocks ++ [bid], core0 := if blockId = 0 then core else g.core0 }
  if blockId = 0 then s.gaugeSee island 0x07 core (some g.part) gid else s

/-- Ends a grid whose entry overlay load faults (R185): END 0x02 with the class. -/
def State.loadFailed (s : State) (gid cls : Nat) : State :=
  (s.modGrid gid fun g => if g.endCode = 0 then { g with endCode := 2, endClass := cls, preempting := true } else g).haltGrid gid

/-- Loads what the chosen fits ask for and starts the blocks, in ascending BLOCKID; answers whether they started. -/
def State.startAll (s : State) (gid first : Nat) (fits : List (Nat × Nat × Bool)) : Bool × State :=
  let r := fits.foldl (fun (x : Option Nat × State) f =>
    match x.1 with
    | some 0 =>
      if f.2.2 && (match NMap.find? (x.2.core (x.2.grid gid).island f.1).tags f.2.1 with
          | some t => !(t.image == (x.2.grid gid).image && t.ovl == recOvl (x.2.grid gid).record)
          | none => true) then x.2.loadEntry (x.2.grid gid) f.1 f.2.1
      else x
    | _ => x) (some 0, s)
  match r.1 with
  | some 0 =>
    let s := (fits.zipIdx).foldl (fun s x => s.startBlock gid (first + x.2) x.1) r.2
    (true, s.modGrid gid fun g => { g with
      nextBlock := first + fits.length
      waitingSince := if first + fits.length < recNblk g.record then some (s.itime g.island) else none })
  | some cls => (true, r.2.loadFailed gid cls)
  | none => (false, r.2)

/-- Blocks of the next group of a grid (R36). -/
def Grid.nextCount (g : Grid) : Nat :=
  let n := recClus g.record
  min (n - g.nextBlock % n) (recNblk g.record - g.nextBlock)

/-- Where the next group of a grid fits (R188): for one block, the best core of all clusters; for a group, the lowest-numbered cluster. -/
def State.fitGroup (s : State) (gid : Nat) (g : Grid) : Option (List (Nat × Nat × Bool)) :=
  if recClus g.record = 1 then
    s.fitAll g (s.byCoreno g ((List.range 20).flatMap fun k => s.openCores gid g k)) 1 []
  else (List.range 20).findSome? fun k =>
    s.fitAll g (s.byCoreno g (s.openCores gid g k)) g.nextCount []

/-- Sizes of a grid's groups, in order. -/
def groupSizes (nblk n : Nat) : List Nat :=
  List.replicate (nblk / n) n ++ if nblk % n = 0 then [] else [nblk % n]

/-- Clusters free of other grids' blocks where a cooperative grid may run (R189). -/
def State.freeClusters (s : State) (gid : Nat) (g : Grid) : List Nat :=
  (List.range 20).filter fun k => !(s.openCores gid g k).isEmpty &&
    !s.blocks.values.any fun b => b.island == g.island && b.core / 8 == k && !b.saved && !b.retired

/-- Packs a cooperative grid's groups into clusters, each into the lowest-numbered that takes it (R188). -/
def State.packCoop (s : State) (gid : Nat) (g : Grid) (ks : List Nat) : List Nat → NMap (List (Nat × Nat × Bool)) →
    Option (List (Nat × Nat × Bool))
  | [], _ => some []
  | n :: ns, used =>
    match ks.findSome? fun k =>
        let before := NMap.getD used k []
        (s.fitAll g (s.byCoreno g (s.openCores gid g k)) (before.length + n) []).map fun l => (k, l.drop before.length, l) with
    | none => none
    | some (k, new, all) => (s.packCoop gid g ks ns (NMap.set used k all)).map fun l => new ++ l

/-- The MINRES clusters of a list that hold most by `cap`, the lower-numbered first among equals (log 24), in ascending number. -/
def coopClusters (cap : Nat → Nat) (minres : Nat) (ks : List Nat) : Option (List Nat) :=
  let caps := (ks.map cap).foldl (fun l x => if l.contains x then l else insertDesc x l) []
  let chosen := (caps.flatMap fun x => ks.filter fun k => cap k == x).take minres
  if chosen.length < minres then none else some (ks.filter fun k => chosen.contains k)

/-- Where all blocks of a cooperative grid fit together on MINRES free clusters, and those clusters (R189). -/
def State.fitCoop (s : State) (gid : Nat) (g : Grid) : Option (List (Nat × Nat × Bool) × List Nat) :=
  let cap (k : Nat) : Nat := sum ((s.openCores gid g k).map fun c => emptyCap g.record (s.coreCode g.island c))
  match coopClusters cap (recMinres g.record) (s.freeClusters gid g) with
  | none => none
  | some ks =>
    if recNblk g.record > 10240 then none
    else
      let fits :=
        if recClus g.record = 1 then s.fitAll g (s.byCoreno g (ks.flatMap fun k => s.openCores gid g k)) (recNblk g.record) []
        else s.packCoop gid g ks (groupSizes (recNblk g.record) (recClus g.record)) []
      fits.map fun l => (l, ks)

/-! ### The order of placement (R187) -/

/-- Whether a grid comes before another in the dispatcher's order: parked grids that are being restored, then PRIO, then arrival (R187). -/
def Grid.before (x y : Grid) : Bool :=
  (x.returning && !y.returning) ||
    (x.returning == y.returning && (decide (y.prio < x.prio) || (x.prio == y.prio && decide (x.arrival < y.arrival))))

/-- Inserts a grid into a list in the dispatcher's order. -/
def insertGrid (x : Nat × Grid) : List (Nat × Grid) → List (Nat × Grid)
  | [] => [x]
  | y :: ys => if x.2.before y.2 then x :: y :: ys else y :: insertGrid x ys

/-- Whether a grid has a block that waits for its restore. -/
def State.hasSaved (s : State) (g : Grid) : Bool := g.blocks.any fun b => (s.block b).saved

/-- Whether a grid has a block to start: its pre-empted blocks return first (R187). -/
def State.hasNew (s : State) (g : Grid) : Bool :=
  decide (g.nextBlock < recNblk g.record) && g.blocks.all fun b => !(s.block b).saved && !(s.block b).halting

/-- Grids of an island's table that the dispatcher may serve and that meet a test, in its order (R187). -/
def State.dispatchOrder (s : State) (island : Nat) (f : Grid → Bool) : List (Nat × Grid) :=
  ((s.table island).filter fun p => p.2.endCode == 0 && !p.2.preempting && f p.2).foldl (fun l x => insertGrid x l) []

/-- Grids of an island's table with a block still to start (R187). -/
def State.waitingGrids (s : State) (island : Nat) : List (Nat × Grid) := s.dispatchOrder island s.hasNew

/-- Whether a reservation of its partition keeps a grid from being placed (R187). -/
def State.reservedAgainst (s : State) (gid : Nat) (g : Grid) : Bool :=
  (s.isl g.island).reservers.any fun r => r != gid && (s.grid r).part == g.part

/-- Clears a reservation that a grid holds. -/
def State.unreserve (s : State) (gid : Nat) : State :=
  s.modIsl (s.grid gid).island fun x => { x with reservers := x.reservers.filter (· != gid) }

/-- Where the next blocks of a grid go, if anywhere, and the clusters that a cooperative grid then holds. -/
def State.fitNext (s : State) (gid : Nat) (g : Grid) : Option (List (Nat × Nat × Bool) × List Nat) :=
  if s.reservedAgainst gid g then none
  else if recCoop g.record then (if g.nextBlock = 0 then s.fitCoop gid g else none) else (s.fitGroup gid g).map fun l => (l, [])

/-- `BLOCK_PLACEMENT` (R187, R188): the first grid in order whose next blocks find room starts them. -/
def execBlockPlacement (island : Nat) (s : State) : Out :=
  let gs := s.waitingGrids island
  match gs.find? fun p => (s.fitNext p.1 p.2).isSome with
  | none => .next s
  | some p =>
    match s.fitNext p.1 p.2 with
    | none => .next s
    | some fits =>
      let r := s.startAll p.1 p.2.nextBlock fits.1
      .next (if r.1 then (r.2.unreserve p.1).modGrid p.1 fun g => { g with clusters := fits.2 } else r.2)

/-- `RESERVATION_TIMEOUT` (R187): the first grid of a partition without a reservation whose next block has waited 16 µs reserves its
partition's cores. -/
def execReservationTimeout (island : Nat) (s : State) : Out :=
  match (s.table island).find? fun p => !((s.isl island).reservers.any fun r => (s.grid r).part == p.2.part) &&
      match p.2.waitingSince with
      | some t => decide (t + 16000 ≤ s.itime island)
      | none => false with
  | some p => .next (s.modIsl island fun x => { x with reservers := x.reservers ++ [p.1] })
  | none => .next s

/-! ### Retirement (R39) -/

/-- Whether something of a warp is still outstanding (R39). -/
def State.warpBusy (s : State) (wid : Nat) : Bool :=
  let w := s.warp wid
  (w.threads.any fun t => t.st.live || t.st == .helper) || !w.mq.isEmpty || !w.xq.isEmpty || !w.fq.isEmpty || w.stopped ||
    !w.log.isEmpty || s.pend.any (fun p => p.warp == wid && p.gen == w.gen.toNat) ||
    s.msgs.any (fun m => m.isEvent && m.warp == wid) || s.waits.any (fun x => x.warp == wid) ||
    s.stalls.any fun x => x.warp == wid

/-- `WARP_RETIRE` (R39): tiles, granules and guard slots are freed. -/
def execWarpRetire (warp : Nat) (s : State) : Out :=
  let w := s.warp warp
  if w.threads.isEmpty || w.retired || s.warpBusy warp || (s.block w.block).halting then .next s
  else .next (s.setWarp warp { w with retired := true, acc := [], g := [], gArm := [] })

/-- Sets in which blocks are freed together: the cluster group (R113). -/
def State.groupOf (s : State) (b : Block) : List (Nat × Block) :=
  let n := recClus (s.grid b.grid).record
  s.blocks.filter fun p => p.2.grid == b.grid && p.2.blockId / n == b.blockId / n

/-- Drops blocks and their warps, with what stands on them. -/
def State.dropBlocks (s : State) (bids : List Nat) : State :=
  let wids := bids.flatMap fun b => (s.block b).warps
  { s with
    blocks := s.blocks.filter fun p => !bids.contains p.1
    warps := s.warps.filter fun p => !wids.contains p.1
    pend := s.pend.filter fun p => !wids.contains p.warp
    waits := s.waits.filter fun x => !wids.contains x.warp
    stalls := s.stalls.filter fun x => !wids.contains x.warp
    grids := s.grids.map fun p => (p.1, { p.2 with blocks := p.2.blocks.filter fun b => !bids.contains b }) }

/-- Posts the fault masks of a retiring block: one record of kind 0 for each warp whose WFAULT is not zero (R39, R105, R380). -/
def State.postMasks (s : State) (b : Block) : State :=
  b.warps.foldl (fun s wid =>
    let w := s.warp wid
    let f := w.wfault.toNat
    if f = 0 then s
    else s.post b.island (warpRecord s w (bits f 39 32) 0 (bits f 31 0) w.wfaultPc w.wfaultOvl 0 0 f)) s

/-- Whether the posts of a block's masks find room in the on-chip buffer, all of them (R379). -/
def State.postRoom (s : State) (b : Block) : Bool :=
  let n := (b.warps.filter fun w => (s.warp w).wfault != 0).length
  let x := s.isl b.island
  n == 0 || (x.waitPost.isEmpty && decide (x.onchip.length + n ≤ 64))

/-- `BLOCK_RETIRE` (R39): the kernel-end flush drains first; then the masks are posted and the block counts towards its grid. Windows
are freed with the last block of the cluster group (R113). -/
def execBlockRetire (block : Nat) (s : State) : Out :=
  let b := s.block block
  if b.warps.isEmpty || b.retired || b.saved || b.halting || (b.warps.any fun w => !(s.warp w).retired) then .next s
  else
    let s := s.flushBlock block
    if s.draining block || !s.postRoom b then .next s
    else
      let bad := b.warps.any fun w => (s.warp w).wfault != 0
      let s := (s.postMasks b).setBlock block { b with retired := true, slots := [] }
      let s := s.modGrid b.grid fun g => { g with done := g.done + 1 }
      let s := s.gaugeSee b.island 0x02 b.core (some (s.grid b.grid).part) (b.blockId + if bad then 2 ^ 32 else 0)
      let group := s.groupOf b
      .next (if group.all fun p => p.2.retired then s.dropBlocks (group.map Prod.fst) else s)

/-! ### The end of a grid (R185) and LKP_GRIDCTL (R186) -/

/-- Writes the end report (R185). PTIME is the island's reading, which stands while it is in HOLD (R220; DESIGN CHOICE, log 130). -/
def State.endReport (s : State) (g : Grid) (code : Nat) : State :=
  let a := recBits g.record 14 47 4 * 16
  if a = 0 then s
  else (s.writeMem (lpddrAddr a) 8 (recBits g.record 10 63 0)).writeMem (lpddrAddr a + 8) 8
    (code + g.endClass * 2 ^ 8 + (s.isl g.island).ptime % 2 ^ 48 * 2 ^ 16)

/-- Ends an LKP_GRIDCTL operation on a grid, if one is in progress: BUSY falls with RES 0 (R186). -/
def State.gridctlDone (s : State) (gid : Nat) : State :=
  if s.gridctl = some gid then
    { s with gridctl := none }.setReg .lkpGridctl 0 (setBits (s.reg .lkpGridctl 0) 23 19 0)
  else s

/-- Ends a grid: what is left of its blocks is discarded; then the three actions of R185, in their order. -/
def State.endGrid (s : State) (gid code : Nat) : State :=
  let g := s.grid gid
  let s := (s.unreserve gid).dropBlocks ((s.blocks.filter fun p => p.2.grid == gid).map Prod.fst)
  let s := s.endReport g code
  let s := if recBits g.record 11 5 5 = 1 then
      (s.notifyAdd (recBits g.record 11 4 0) (recBits g.record 11 19 8) 1 g.part).1 else s
  let s := (s.gaugeSee g.island 0x07 g.core0 (some g.part) (gid + code * 2 ^ 16)).gaugeSee 24 0x41 g.island (some g.part) (gid + code * 2 ^ 16)
  ({ s with grids := NMap.erase s.grids gid }.gridctlDone gid).evalHeads

/-- Whether nothing of a grid that must end runs on: no command is running, no event of its warps is outstanding. -/
def State.gridQuiet (s : State) (gid : Nat) : Bool :=
  (s.blocks.filter fun p => p.2.grid == gid).all fun p => p.2.warps.all fun w =>
    !(s.msgs.any fun m => m.isEvent && m.warp == w) && s.stalls.all (fun x => x.warp != w) &&
      !(((s.warp w).mq ++ (s.warp w).xq ++ (s.warp w).fq).any fun c =>
        c.running && (decide (0 < c.inFlight) || ((s.warp w).stopped && c.lineFault == none)))

/-- Whether every block of a grid is saved. -/
def State.allSaved (s : State) (gid : Nat) : Bool := (s.blocks.filter fun p => p.2.grid == gid).all fun p => p.2.saved

/-- A parked or held grid stands in its island's table again, and its stopped warps may issue (R186, R378). -/
def State.reenter (s : State) (gid : Nat) : State :=
  let wids := (s.blocks.filter fun p => p.2.grid == gid).flatMap fun p => p.2.warps
  let s := wids.foldl (fun s w => s.modWarp w Warp.unstop) s
  (s.modGrid gid fun g => { g with status := .inTable, preempting := false, returning := s.hasSaved g, waitingSince := some (s.itime g.island) }).gridctlDone gid

/-- `GRID_END` (R39, R185): every block retired; ended by a fault, by a shrink or through LKP_GRIDCTL; or held, once every block is
saved; a grid that resumes enters the table here, once there is room (R186). While a record of the grid waits to be posted, its stop has
not gone on to this (R378, R379). -/
def execGridEnd (grid : Nat) (s : State) : Out :=
  match NMap.find? s.grids grid with
  | none => .next s
  | some g =>
    if s.unposted g.island (recordOfGrid grid) then .next s
    else if g.endCode = 0 then
      .next (if g.status = .inTable && g.done = recNblk g.record then s.endGrid grid 1
        else if g.status = .inTable && g.preempting && s.allSaved grid then
          ((s.unreserve grid).setGrid grid { g with status := .parked, preempting := false, waitingSince := none, clusters := [] }).gridctlDone grid |>.evalHeads
        else if (g.status = .parked || g.status = .held) && g.preempting && decide (s.tableTaken g.island < 64) &&
            decide (recBerm g.record ≤ s.bermFree g.part g.island) then s.reenter grid
        else s)
    else if g.endCode = 3 then
      .next (if g.status != .held && s.allSaved grid then
          ((s.unreserve grid).endReport g 3 |>.setGrid grid { g with status := .held, preempting := false, clusters := [] }).gridctlDone grid |>.evalHeads
        else s)
    else .next (if s.gridQuiet grid then s.endGrid grid g.endCode else s)

/-- Writes LKP_GRIDCTL's result for an operation that is not begun (R186). -/
def State.gridctlRes (s : State) (res : Nat) : State := s.setReg .lkpGridctl 0 (setBits (s.reg .lkpGridctl 0) 23 19 (res * 2))

/-- Begins an operation: BUSY rises. -/
def State.gridctlBusy (s : State) (gid : Nat) : State :=
  { s with gridctl := some gid }.setReg .lkpGridctl 0 (setBits (s.reg .lkpGridctl 0) 23 19 1)

/-- The GID and OP fields as GO leaves them. -/
def State.gridctlOp (s : State) (gid op : Nat) : State :=
  (s.setReg .lkpGridctl 0 (setBits (setBits (s.reg .lkpGridctl 0) 15 0 gid) 17 16 op)).command .lkpGridctl 0 18

/-- A write of LKP_GRIDCTL with GO: GID and OP are taken, and the operation runs unless another is in progress. -/
def gridctlRun (s : State) (gid op : Nat) (applies : Grid → Bool) (act : State → Grid → State) : Out :=
  let s := s.gridctlOp gid op
  if s.gridctl.isSome then .next s
  else
    match NMap.find? s.grids gid with
    | none => .next (s.gridctlRes 1)
    | some g => .next (if applies g then act s g else s.gridctlRes 2)

/-- `GRID_PREEMPT` (R186): a grid in its table is halted. -/
def execGridPreempt (grid : Nat) (s : State) : Out :=
  gridctlRun s grid 1 (fun g => g.status == .inTable && g.endCode == 0 && !g.preempting) fun s g =>
    ((s.setGrid grid { g with preempting := true }).haltGrid grid).gridctlBusy grid

/-- Moves a parked grid whose presented island now names another (R400): its contexts and its berm window go there. -/
def State.moveGrid (s : State) (gid : Nat) : State :=
  let g := s.grid gid
  let v := s.reg .partIpres (partIx g.part g.presIsland)
  let there := bits v 4 0
  if !bit v 5 || there = g.island || !s.topo.live there || !s.allSaved gid then s
  else
    let taken := (s.grids.values.filter fun (x : Grid) => x.island == there).map fun (x : Grid) => (x.bermBase, recBerm x.record * 65536)
    let n := recBerm g.record * 65536
    let base := firstFit taken n
    let from' := bermAddr g.island g.bermBase
    let cells := (s.mem.filter fun c => from' ≤ c.1 && c.1 < from' + n).map fun c => (c.1 - from' + bermAddr there base, c.2)
    let s := { s with
      mem := Memory.writeCells (Memory.clear (Memory.clear s.mem (bermAddr there base) n) from' n) cells
      blocks := s.blocks.map fun (p : Nat × Block) => if p.2.grid = gid then (p.1, { p.2 with island := there }) else p }
    s.setGrid gid { g with island := there, bermBase := base }

/-- `GRID_RESUME` (R186, R378, R400): a parked or held grid returns to its island's table, once a table entry and its berm are free; a
stopped warp issues again. -/
def execGridResume (grid : Nat) (s : State) : Out :=
  gridctlRun s grid 2 (fun g => g.status == .parked || g.status == .held) fun s g =>
    ((s.setGrid grid { g with endCode := 0, endClass := 0, waitingSince := none, preempting := true }).moveGrid grid).gridctlBusy grid

/-- `GRID_END_REQUEST` (R186). -/
def execGridEndRequest (grid : Nat) (s : State) : Out :=
  gridctlRun s grid 3 (fun g => g.endCode == 0 || g.endCode == 3) fun s g =>
    ((s.setGrid grid { g with endCode := 6, endClass := 0 }).haltGrid grid).gridctlBusy grid

end Sys2Proof.Machine
end

