-- ==== Sys2Proof/Machine/Returns.lean ====
section
/-!
DEFINITION. The events that write a late result (R95, R99): loads, divides, special functions, tile reads, `keymap`, `ldrec`; the
time limit of `ldg.wait` (R323); and the wake of a sleeping lane (R343).
-/
namespace Sys2Proof.Machine

/-- The byte of the poison value at an address (R98, R410). -/
def poisonByte (a : Nat) : Byte := (bytesOf 4 0xFFC00001).getD (a % 4) 0

/-- The value a lane's load returns: its own stores' bytes where they cover it, else the bytes received (R131), or poison in each word
(R410). -/
def Pend.value (p : Pend) (x : LaneLoad) : Nat :=
  valueOf ((List.range p.size).map fun k =>
    (NMap.find? x.fwd (x.pa + k)).getD (if p.bad.contains x.lane then poisonByte (x.pa + k) else Memory.read p.got (x.pa + k)))

/-- Every register write of a finished result. -/
def Pend.results (p : Pend) : List (Nat × Nat × BitVec 32) :=
  (p.writes.map fun x => if p.bad.contains x.1 then (x.1, x.2.1, 0xFFC00001#32) else x) ++ match p.kind with
    | .load | .loadWait => p.lanes.flatMap fun x => valueRegs x.lane p.dst p.size (p.value x)
    | _ => []

def State.dropPend (s : State) (id : Nat) : State := { s with pend := s.pend.filter fun p => p.id != id }

/-- Lanes whose result a record holds. -/
def Pend.laneSet (p : Pend) : List Nat :=
  if p.who.isEmpty then (p.lanes.map (fun x => x.lane) ++ p.writes.map (fun x => x.1) ++ p.ops.map fun x => x.1).eraseDups else p.who

/-- Writes late results and flags of a warp; the flags count as set in this core clock (R5, R61). -/
def State.lateWrite (s : State) (wid : Nat) (writes : List (Nat × Nat × BitVec 32)) (flags : List (Nat × BitVec 32)) : State :=
  let w := writes.foldl (fun w x => w.writeV x.1 x.2.1 x.2.2) (s.warp wid)
  let w := flags.foldl (fun w x => w.setFlags x.1 x.2) w
  { s.setWarp wid w with now := { s.now with flags := flags.map (fun x => (wid, x.1, x.2)) ++ s.now.flags } }

/-- Writes a finished result (R95); one with a stale GEN writes nothing (R99). The replay that it belongs to has then completed in its
lanes (R376, R377). -/
def State.finish (s : State) (p : Pend) : State :=
  let s := s.dropPend p.id
  if (s.warp p.warp).gen.toNat != p.gen then s
  else
    let s := s.lateWrite p.warp p.results p.flags
    s.modWarp p.warp fun w =>
      let w := match p.kind with
        | .scalarLoad => (p.lanes.head?.map fun x => w.writeS p.dst (BitVec.ofNat 64 (p.value x))).getD w
        | .ldrec => { w with b := NMap.set w.b p.dst p.brec }
        | _ => w
      match p.entry with
      | some k => w.endReplay k p.laneSet
      | none => w

/-- A result whose time has come. -/
def Pend.due? (p : Pend) (s : State) : Bool := p.waiting.isEmpty && decide (p.due ≤ s.clk)

/-- The return of an outstanding result of given kinds. -/
def returnOf (kinds : List PendKind) (id : Nat) (s : State) : Out :=
  match s.pend.find? fun p => p.id == id && kinds.contains p.kind with
  | some p => .next (if p.due? s then s.finish p else s)
  | none => .next s

/-- `LOAD_RETURN` (R95, R322, R328). -/
def execLoadReturn (id : Nat) (s : State) : Out := returnOf [.load, .loadWait, .scalarLoad, .atomic] id s
/-- `DIVIDE_RETURN` (R275). -/
def execDivideReturn (id : Nat) (s : State) : Out := returnOf [.divide] id s
/-- `SPECIAL_FUNCTION_RETURN` (R305). -/
def execSpecialFunctionReturn (id : Nat) (s : State) : Out := returnOf [.special] id s
/-- `ACCRD_RETURN` (R351). -/
def execAccrdReturn (id : Nat) (s : State) : Out := returnOf [.accrd] id s
/-- `KEYMAP_RETURN` (R372). -/
def execKeymapReturn (id : Nat) (s : State) : Out := returnOf [.keymap] id s
/-- `LDREC_COMPLETE` (R325). -/
def execLdrecComplete (id : Nat) (s : State) : Out := returnOf [.ldrec] id s

/-- An outstanding result as the request packet that performs it again (R383): it names the lanes whose destination was empty and holds
their issue operands; that of a scalar load keeps every admitted lane (R325). -/
def Pend.packet (p : Pend) : LogEntry where
  num := p.id
  words := p.words
  pc := p.pc
  ovl := p.ovl
  lanes := if p.who.isEmpty then (p.ops.map fun x => x.1).eraseDups else p.who
  ops := p.ops
  brec := p.brec
  gen := p.gen
  issueTime := p.issueTime
  seed := p.seed
  parkedLanes := false
  replay := false
  going := []
  ptype := 4

/-- The records of one instruction as one entry (R383: an instruction's outstanding lanes are one request packet). -/
def Pend.gather (p : Pend) (qs : List Pend) : LogEntry :=
  { p.packet with
    lanes := if p.who.isEmpty then (qs.flatMap fun q => q.ops.map fun x => x.1).eraseDups else p.who
    ops := qs.flatMap fun q => q.ops }

/-- The request packets of outstanding records, one for each instruction, in issue order. -/
def requestPackets : List Pend → List Nat → List LogEntry
  | [], _ => []
  | p :: ps, seen =>
    if seen.contains p.inst then requestPackets ps seen
    else p.gather (p :: ps.filter fun q => q.inst == p.inst) :: requestPackets ps (p.inst :: seen)

/-- The stalled lanes of the instruction that a record belongs to (R323): their words are not all written, and GETS is not granted. -/
def State.stillWaiting (s : State) (p : Pend) : List Pend :=
  s.pend.filter fun q => q.inst == p.inst && q.warp == p.warp && q.kind == .loadWait &&
    s.msgs.any fun m => m.kind == .gets && m.asker == some q.id && s.unwrittenWait m

/-- `ONCE_WAIT_TIMEOUT` (R83, R323): the lanes that still lack a written word raise the fault together. Their load is kept as an entry,
which the warp replays if its grid is resumed (R378; log 20); a load that is a replay has its entry already (R377). -/
def execOnceWaitTimeout (id : Nat) (s : State) : Out :=
  match s.pend.find? fun p => p.id == id && p.kind == .loadWait with
  | none => .next s
  | some p =>
    let w := s.warp p.warp
    let b := s.block w.block
    let qs := s.stillWaiting p
    if !(qs.any fun q => q.id == id) || s.itime b.island < p.issueTime + 65536 then .next s
    else
      let ids := qs.map fun q => q.id
      let s := { s with
        pend := s.pend.filter fun q => !ids.contains q.id
        msgs := s.msgs.filter fun m => !(m.asker.any fun k => ids.contains k) }
      if w.gen.toNat != p.gen then .next s
      else
        let kept := w.log.find? fun e => p.entry == some e.num
        let e := { p.gather qs with num := (kept.map fun e => e.num).getD p.id }
        let s := s.modWarp p.warp fun w =>
          if kept.isNone then { w with log := w.log ++ [e] }
          else { w with log := w.log.map fun x =>
            if x.num = e.num then { x with going := x.going.filter fun l => !e.lanes.contains l } else x }
        let va := match e.access p.warp with
          | some a => (a.lanes.head?.map fun x => a.va x).getD 0
          | none => 0
        let s := s.stopWarp p.warp 0x14 (laneMask e.lanes) p.pc p.ovl (va + s.warpAsid p.warp * 2 ^ 48) 0
        .next (s.modWarp p.warp fun w => { w with stopReplay := some e.num })

/-- `SLEEP_WAKE` (R343). -/
def execSleepWake (warp lane : Nat) (s : State) : Out :=
  let w := s.warp warp
  match (w.thread lane).wake with
  | some t =>
    if t ≤ s.itime (s.block w.block).island then
      .next (s.setWarp warp (w.modThread lane fun t => { t with wake := none }))
    else .next s
  | none => .next s

end Sys2Proof.Machine
end

