-- ==== Sys2Proof/Machine/Engines.lean ====
section
/-!
DEFINITION. Engine commands as they issue (R345, R346, R352, R353, R357, R361 to R365, R369, R371): operands, checks, and the three
queues of a warp (R191, R192).
-/
namespace Sys2Proof.Machine

/-! ### Queues (R191) -/

/-- The queue of a command: 0 MQ, 1 XQ, 2 FQ. -/
def queueOf (op : Nat) : Nat :=
  if op = 0xD0 || op = 0xD1 || op = 0xD2 || op = 0xD6 then 0 else if op = 0xE8 || op = 0xE9 || op = 0xEA then 2 else 1

def Warp.queue (w : Warp) (q : Nat) : List Cmd := if q = 0 then w.mq else if q = 1 then w.xq else w.fq
def queueDepth (q : Nat) : Nat := if q = 1 then 16 else 8

/-- Commands of a queue that have not started. -/
def Warp.queued (w : Warp) (q : Nat) : List Cmd := (w.queue q).filter fun c => !c.running

/-- Puts a command at the end of its queue. -/
def Warp.pushCmd (w : Warp) (q : Nat) (c : Cmd) : Warp :=
  if q = 0 then { w with mq := w.mq ++ [c] } else if q = 1 then { w with xq := w.xq ++ [c] } else { w with fq := w.fq ++ [c] }

/-- Makes RES of a `ratom` full again, with its value as it stands (log 27). -/
def Warp.refill (w : Warp) (c : Cmd) : Warp :=
  if c.op = 0xE2 && bit c.w.ext.toNat 6 then { w with sEmpty := w.sEmpty.filter (· != bits c.w.ext.toNat 5 0) } else w

/-- Discards a command that its guard has decided against (R192, R223, R226). -/
def State.discardCmd (s : State) (wid : Nat) (c : Cmd) : State :=
  let w := s.warp wid
  let b := s.block w.block
  let s := s.setWarp wid ((w.dropCmd c.id).refill c)
  (s.coreCount b.island b.core 0x0B 1).gaugeSee b.island 0x05 b.core (some (s.grid b.grid).part) (queueOf c.op)

/-! ### Issue (R346) -/

/-- Low 48 bits of an s register that names a virtual address (log 28). -/
def vaOf (x : Nat) : Nat := x % 2 ^ 48

/-- The five s operands of a command as they stand (R252). -/
def engineVals (w : WordE) (c : Ctx) : List Nat := [w.s1, w.s2, w.s3, w.s4, w.s5].map fun r => (c.w.sreg r.toNat).toNat

/-- The checks of an engine command: encoding, sources, a full queue or a scalar load of the group in the log (R86), its guard slot, then the rules of the command (R256, R346). -/
def engineChecks (w : WordE) (op : Nat) (u : Usage) (rules : Ctx → List Nat → Check) (c : Ctx) : Check :=
  (checkEncoding c u).andThen ((checkSources c u []).andThen
    ((if queueDepth (queueOf op) ≤ (c.w.queued (queueOf op)).length || c.i.lanes.any fun l => !(c.w.parkedReads l).isEmpty then
        Check.wait else .go).andThen
      ((if w.ge = 1 && c.w.guard w.gslot.toNat == .none then Check.stop 0x50 [] 0 0 else .go).andThen
        (rules c (engineVals w c)))))

/-- Events of the group's members that are not yet performed. -/
def State.eventsOf (s : State) (c : Ctx) : List Nat :=
  (c.i.lanes.flatMap fun l => (s.outstanding c.wid l).map fun m => m.id).eraseDups

/-- Issues an engine command. It follows the earlier events of its group, and of the group that resolved its guard (R86). -/
def engineIssue (w : WordE) (op : Nat) (u : Usage) (rules : Ctx → List Nat → Check) (s : State) : Out :=
  let q := queueOf op
  issueWith s (engineChecks w op u rules) fun c =>
    let (id, s) := s.newId
    let (draw, s) := if op = 0xE2 then s.free else (0, s)
    let ratom := op == 0xE2
    let rnd := if ratom then atomRM c.w (bits w.ext.toNat 16 14) else 0
    let yes := w.xf == 0
    let cmd : Cmd :=
      { id := id, op := op, w := w, sv := engineVals w c
        brec := c.w.bufRec (bits w.ext.toNat 4 0), brec2 := c.w.bufRec (bits w.ext.toNat 9 5)
        arm := NMap.getD c.w.gArm w.gslot.toNat 0
        decided := if w.ge = 0 then some true
          else match c.w.guard w.gslot.toNat with
            | .isTrue => some yes
            | .isFalse => some !yes
            | _ => none
        headAt := none, running := false, pc := c.i.pc, ovl := c.ovl, lane := draw % 32
        seed := c.w.srseed.toNat, m := 0, n := rnd, k := 0, bytes := 0, lineFault := none
        after := (s.eventsOf c ++ if w.ge = 1 then NMap.getD c.w.gAfter w.gslot.toNat [] else []).eraseDups
        rankEntry := 0, inFlight := 0, doneAt := 0, stage := [], begun := false }
    let x := c.w.advance c.i.lanes 2
    let x := if ratom && bit w.ext.toNat 6 then { x with sEmpty := x.sEmpty ++ [bits w.ext.toNat 5 0] } else x
    let x := if rnd = 5 then { x with srseed := BitVec.ofNat 64 (nextSeed x.srseed.toNat) } else x
    let s := s.setWarp c.wid (x.pushCmd q cmd)
    if cmd.decided = some false then s.discardCmd c.wid cmd else s

/-! ### Checks at issue -/

/-- A check that stops the whole group. -/
def Ctx.must (_ : Ctx) (ok : Bool) (cls info0 : Nat) : Check := if ok then .go else .stop cls [] info0 0

/-- INFO0 of an address (R380). -/
def Ctx.info (c : Ctx) (a : Nat) : Nat := a % 2 ^ 48 + c.g.asid * 2 ^ 48

/-- A completion operand is aligned: a counter to 16 bytes, a word to 4 (R213, R348). -/
def Ctx.completion (c : Ctx) (w : WordE) (vs : List Nat) : Check :=
  let a := vs.getD 3 0
  c.must (match ckOf w with | 1 => a % 16 == 0 | 2 => a % 4 == 0 | _ => true) 0x22 (c.info a)

/-- A record whose STRIDE is 0 or ESZ (R353, R365). -/
def recPacked (r : Nat) : Bool := recStride r == recEsize r

/-- Bytes of a B tile's elements, and of the tile (R352). -/
def tileElems (f : Nat) (sp : Bool) : Nat :=
  let dense := [2048, 2048, 1024, 1024, 512, 1024, 512, 8192].getD f 0
  if sp then dense / 2 else dense
def tileSize (f : Nat) (sp : Bool) : Nat := tileElems f sp + (if f = 4 then 32 else 0) + if sp then 128 else 0

/-- Bytes of an element in the source of `wbload` (R353): the 4-bit formats are read by the byte. -/
def tileEsize (f : Nat) : Nat := if f ≤ 1 then 2 else if f = 7 then 8 else 1

/-- Formats of 4-bit elements. -/
def nibbleFmt (f : Nat) : Bool := f == 4 || f == 6

/-- The source reads of a B tile, unit by unit, as (second record, element indices) (R353). -/
def tileUnits (f : Nat) (sp : Bool) (x p a : Nat) : List (Bool × List Nat) :=
  let rows := if nibbleFmt f then 32 else if sp then 16 else 32
  let per := if nibbleFmt f then (if sp then 8 else 16) else 32
  let elems := (List.range rows).map fun r => (false, (List.range per).map fun j => x + r * p + j)
  let scales := if f = 4 then [(true, (List.range 32).map (· + a))] else []
  let a' := if f = 4 then a + 32 else a
  elems ++ scales ++ if sp then [(true, (List.range 128).map (· + a'))] else []

def wbWofs (w : WordE) : Nat := bits w.imm64.toNat 15 0
def wbFmt (w : WordE) : Nat := bits w.imm64.toNat 19 16
def wbSp (w : WordE) : Bool := bit w.imm64.toNat 20

/-- The rules that `wbload` and `wbzero` share (R352). -/
def Ctx.tileRules (c : Ctx) (w : WordE) (vs : List Nat) : Check :=
  (c.must (!(wbSp w && wbFmt w == 7)) 0x40 0).andThen
    ((c.must (wbWofs w % 32 == 0) 0x22 (c.info (wbWofs w))).andThen
      ((c.completion w vs).andThen
        (c.must (decide (wbWofs w + tileSize (wbFmt w) (wbSp w) ≤ c.b.wbSize)) 0x32 0)))

/-- The rules of `wbload` (R353). -/
def wbloadRules (w : WordE) (c : Ctx) (vs : List Nat) : Check :=
  let r := (c.w.bufRec (bits w.ext.toNat 4 0)).toNat
  let q := (c.w.bufRec (bits w.ext.toNat 9 5)).toNat
  let units := tileUnits (wbFmt w) (wbSp w) (vs.getD 0 0) (vs.getD 1 0) (vs.getD 2 0)
  let second := units.any fun u => u.1
  (c.tileRules w vs).andThen (c.must
    (recEsize r == tileEsize (wbFmt w) && recPacked r && (!second || (recEsize q == 1 && recPacked q)) &&
      units.all fun u => u.2.all fun e => decide (e < recExtent (if u.1 then q else r))) 0x32 0)

/-- `wbload` (R352, R353). -/
def execWbload (w : WordE) (s : State) : Out :=
  engineIssue w 0xD0 (useWbload w) (wbloadRules w) s

/-- The rules of `wbzero` (R352). -/
def wbzeroRules (w : WordE) (c : Ctx) (vs : List Nat) : Check :=
  c.tileRules w vs

/-- `wbzero` (R352). -/
def execWbzero (w : WordE) (s : State) : Out := engineIssue w 0xD6 (useWbzero w) (wbzeroRules w) s

/-! #### Matrix loops (R355 to R359) -/

def mlAcc (w : WordE) : Nat := bits w.ext.toNat 3 0
def mlByp (w : WordE) : Nat := bits w.ext.toNat 7 4
def mlBypen (w : WordE) : Bool := bit w.ext.toNat 8
def mlFmt (w : WordE) : Nat := bits w.ext.toNat 12 9
def mlSp (w : WordE) : Bool := bit w.ext.toNat 13
def mlZero (w : WordE) : Bool := bit w.ext.toNat 14
def mlSata (w : WordE) : Bool := bit w.ext.toNat 15
def mlMo (w : WordE) : Nat := bits w.imm64.toNat 15 12 + 1
def mlNo (w : WordE) : Nat := bits w.imm64.toNat 19 16 + 1
def mlAsc (w : WordE) : Nat := bits w.imm64.toNat 49 32

/-- KSTEPS of `mloop` or, with `cnt`, of `mloopc`. -/
def mlSteps (w : WordE) (cnt : Bool) (vs : List Nat) : Nat := if cnt then vs.getD 4 0 else bits w.imm64.toNat 11 0 + 1

/-- WFMT, A type (TYPE codes; 12 for INT8, 15 for MXFP4), tile bytes of A, and core clocks of a K-step (R356, R359). -/
def mlWfmt (f : Nat) : Nat := [0, 1, 2, 3, 2, 3, 4, 4, 4, 5, 6, 7].getD f 0
def mlAtype (f : Nat) : Nat := [7, 6, 8, 8, 9, 9, 15, 7, 8, 12, 12, 5].getD f 0
def mlAsize (f : Nat) : Nat := [2048, 2048, 1024, 1024, 1024, 1024, 512, 2048, 1024, 1024, 1024, 8192].getD f 0
def mlClocks (f : Nat) : Nat := [16, 16, 8, 8, 8, 8, 4, 16, 8, 8, 8, 512].getD f 0

/-- Destination tiles of a loop (R357). -/
def mlTiles (w : WordE) : List Nat :=
  (List.range (mlMo w * mlNo w * if mlFmt w = 11 then 2 else 1)).map (· + mlAcc w)

/-- Bypass tiles. -/
def mlBypTiles (w : WordE) (steps : Nat) : List Nat :=
  if mlBypen w then (List.range (min steps 17)).map (· + mlByp w) else []

/-- The four increments of S3 (R355). -/
def mlInc (vs : List Nat) (i : Nat) : Int := sext 16 (bits (vs.getD 2 0) (16 * i + 15) (16 * i))

/-- Offset of the A tile, and of the B tile, of a K-step (R358). -/
def mlAofs (vs : List Nat) (k m : Nat) : Int := (vs.getD 0 0 : Nat) + 64 * (mlInc vs 0 * (k : Nat) + mlInc vs 1 * (m : Nat))
def mlBofs (vs : List Nat) (k n : Nat) : Int := (vs.getD 1 0 : Nat) + 32 * (mlInc vs 2 * (k : Nat) + mlInc vs 3 * (n : Nat))

/-- Whether `size` bytes at an offset lie in a window. -/
def inWindow (o : Int) (size window : Nat) : Bool := decide (0 ≤ o) && decide (o + (size : Nat) ≤ (window : Nat))

/-- The checks of R357; offsets are linear in k, m and n, so the corners of the loop decide. -/
def Ctx.loopRules (c : Ctx) (w : WordE) (cnt : Bool) (vs : List Nat) : Check :=
  let f := mlFmt w
  let k := mlSteps w cnt vs
  let byp := mlBypTiles w k
  let a := mlAtype f
  let corners (x y : Nat) : List (Nat × Nat) := [(0, 0), (x - 1, 0), (0, y - 1), (x - 1, y - 1)]
  (c.must (1 ≤ k && k ≤ 4096 && !(mlSp w && f == 11) &&
      (!mlBypen w || ((a == 7 || a == 8 || a == 9) && mlMo w == 1 && decide (k ≤ 16) && byp.all fun t => !(mlTiles w).contains t)) &&
      (f == 6 || mlAsc w == 0) && (f != 11 || mlAcc w % 2 == 0)) 0x40 0).andThen
    ((c.must ((mlTiles w ++ byp).all fun t => decide (t < c.w.acc.length)) 0x41 0).andThen
      ((c.must ((mlBypen w || vs.getD 0 0 % 64 == 0) && vs.getD 1 0 % 32 == 0) 0x22
          (c.info (if !mlBypen w && vs.getD 0 0 % 64 != 0 then vs.getD 0 0 else vs.getD 1 0))).andThen
        ((c.completion w vs).andThen
          (c.must ((mlBypen w || ((corners k (mlMo w)).all fun x => inWindow (mlAofs vs x.1 x.2) (mlAsize f) c.b.scrSize)) &&
            (f != 6 || decide (mlAsc w + 32 * (k * mlMo w) ≤ c.b.scrSize)) &&
            (corners k (mlNo w)).all fun x => inWindow (mlBofs vs x.1 x.2) (tileSize (mlWfmt f) (mlSp w)) c.b.wbSize) 0x32 0))))

/-- The rules of `mloop` (R357). -/
def mloopRules (w : WordE) (c : Ctx) (vs : List Nat) : Check :=
  c.loopRules w false vs

/-- `mloop` (R355 to R360). -/
def execMloop (w : WordE) (s : State) : Out :=
  engineIssue w 0xD1 (useMloop w false) (mloopRules w) s

/-- The rules of `mloopc` (R357). -/
def mloopcRules (w : WordE) (c : Ctx) (vs : List Nat) : Check :=
  c.loopRules w true vs

/-- `mloopc` (R355 to R360). -/
def execMloopc (w : WordE) (s : State) : Out :=
  engineIssue w 0xD2 (useMloop w true) (mloopcRules w) s

/-! #### Fills, overlays, re-arming (R361 to R363) -/

/-- A range of bytes from 4 to 16 MiB. -/
def rangeOk (n : Nat) : Bool := 4 ≤ n && n ≤ 2 ^ 24

def fillMode (w : WordE) : Nat := bits w.ext.toNat 11 10
def fillDq (w : WordE) : Bool := bit w.ext.toNat 12

/-- Size of the window a local offset of a fill lies in (R361). -/
def Ctx.fillWindow (c : Ctx) (berm : Bool) : Nat := if berm then recBerm c.g.record * 65536 else c.b.scrSize

/-- The rules of `xfill` (R361, R120). -/
def xfillRules (w : WordE) (c : Ctx) (vs : List Nat) : Check :=
  let m := fillMode w
  let src := vs.getD 0 0
  let dst := vs.getD 1 0
  let n := vs.getD 2 0
  let r := (c.w.bufRec (bits w.ext.toNat 4 0)).toNat
  let q := (c.w.bufRec (bits w.ext.toNat 9 5)).toNat
  let into := c.fillWindow (m == 1 || m == 3)
  if fillDq w then
    (c.must (dst % 64 == 0) 0x22 (c.info dst)).andThen ((c.completion w vs).andThen
      (c.must (1 ≤ n && n ≤ 4096 && recEsize r == 1 && recEsize q == 1 && decide (16 * src + 16 * n ≤ recExtent r) &&
        decide (src + n ≤ recExtent q) && decide (dst + 64 * n ≤ into)) 0x32 0))
  else
    let global := m ≤ 1
    let esz := if global then recEsize r else 1
    (c.must (n % 4 == 0 && n % esz == 0 && dst % 4 == 0 && (global || src % 4 == 0)) 0x22
        (c.info (if dst % 4 != 0 then dst else if !global && src % 4 != 0 then src else dst))).andThen ((c.completion w vs).andThen
      (c.must (rangeOk n && decide (dst + n ≤ into) &&
        (if global then decide (src + n / esz ≤ recExtent r) else decide (src + n ≤ c.fillWindow (m == 2)))) 0x32 0))

/-- `xfill` (R361, R120). -/
def execXfill (w : WordE) (s : State) : Out :=
  engineIssue w 0xE8 (useXfill w) (xfillRules w) s

/-- The rules of `ovld` (R362). -/
def ovldRules (w : WordE) (c : Ctx) (vs : List Nat) : Check :=
  (c.must (vs.getD 0 0 % 8 == 0) 0x22 (c.info (vs.getD 0 0))).andThen ((c.completion w vs).andThen
    (c.must (1 ≤ vs.getD 1 0 && vs.getD 1 0 ≤ 8192) 0x32 0))

/-- `ovld` (R362). -/
def execOvld (w : WordE) (s : State) : Out :=
  engineIssue w 0xE9 (useOvld w) (ovldRules w) s

/-- The rules of `onceinit` (R363). -/
def onceinitRules (w : WordE) (c : Ctx) (vs : List Nat) : Check :=
  (c.must (vs.getD 0 0 % 4 == 0 && vs.getD 1 0 % 4 == 0) 0x22 (c.info (vs.getD 0 0))).andThen ((c.completion w vs).andThen
    (c.must (rangeOk (vs.getD 1 0)) 0x32 0))

/-- `onceinit` (R363). -/
def execOnceinit (w : WordE) (s : State) : Out :=
  engineIssue w 0xEA (useOnceinit w) (onceinitRules w) s

/-! #### Transfers (R365 to R369) and launches (R371) -/

def xferRofs (vs : List Nat) : Nat := bits (vs.getD 1 0) 23 0
def xferWin (vs : List Nat) : Nat := bits (vs.getD 1 0) 59 48

/-- INFO0 of a transfer's classes: rank and window (R380). -/
def xferInfo (vs : List Nat) : Nat := vs.getD 0 0 % 65536 + xferWin vs * 65536

/-- The operand fields of a transfer that must be zero (R365). -/
def Ctx.xferFields (c : Ctx) (vs : List Nat) : Check :=
  (c.must (vs.getD 0 0 < 65536) 0x31 (xferInfo vs)).andThen
    (c.must (bits (vs.getD 1 0) 47 24 == 0 && bits (vs.getD 1 0) 63 60 == 0) 0x32 (xferInfo vs))

/-- The rules of `put` and `get` (R365). -/
def Ctx.putRules (c : Ctx) (w : WordE) (vs : List Nat) : Check :=
  let r := (c.w.bufRec (bits w.ext.toNat 4 0)).toNat
  let e := vs.getD 2 0
  let n := vs.getD 3 0
  let va := recVA r (e : Nat)
  let scen := bit w.ext.toNat 6
  (c.must (n % 4 == 0 && va % 4 == 0 && xferRofs vs % 4 == 0 && (!scen || vs.getD 4 0 % 16 == 0)) 0x22
      (c.info (if n % 4 == 0 && va % 4 == 0 && xferRofs vs % 4 == 0 then vs.getD 4 0 else va))).andThen
    ((c.xferFields vs).andThen
      (c.must (rangeOk n && bits r 53 51 == 0 && recPacked r && decide (e * recEsize r + n ≤ recExtent r * recEsize r)) 0x32 (xferInfo vs)))

/-- The rules of `put` (R365). -/
def putRules (w : WordE) (c : Ctx) (vs : List Nat) : Check :=
  c.putRules w vs

/-- `put` (R365, R366). -/
def execPut (w : WordE) (s : State) : Out := engineIssue w 0xE0 (usePut w) (putRules w) s
/-- The rules of `get` (R365). -/
def getRules (w : WordE) (c : Ctx) (vs : List Nat) : Check :=
  c.putRules w vs

/-- `get` (R365, R366). -/
def execGet (w : WordE) (s : State) : Out := engineIssue w 0xE1 (useGet w) (getRules w) s

/-- Access size of a `ratom` (R367). -/
def ratomSize (w : WordE) : Nat := if is64 (bits w.ext.toNat 13 10) then 8 else 4

/-- The rules of `ratom` (R365, R367). -/
def ratomRules (w : WordE) (c : Ctx) (vs : List Nat) : Check :=
  let scen := bit w.ext.toNat 17
  (c.must (xferRofs vs % ratomSize w == 0 && (!scen || vs.getD 4 0 % 16 == 0)) 0x22
    (c.info (if xferRofs vs % ratomSize w == 0 then vs.getD 4 0 else xferRofs vs))).andThen (c.xferFields vs)

/-- `ratom` (R365 to R367). -/
def execRatom (w : WordE) (s : State) : Out :=
  engineIssue w 0xE2 (useRatom w) (ratomRules w) s

/-- The rules of `notify` (R369). -/
def notifyRules (_w : WordE) (c : Ctx) (vs : List Nat) : Check :=
  (c.must (vs.getD 0 0 < 65536) 0x31 (vs.getD 0 0 % 65536)).andThen
    (c.must (vs.getD 1 0 < 4096) 0x32 (vs.getD 0 0 % 65536))

/-- `notify` (R369). -/
def execNotify (w : WordE) (s : State) : Out :=
  engineIssue w 0xE5 (useNotify w) (notifyRules w) s

/-- The rules of `launch` (R371). -/
def launchRules (w : WordE) (c : Ctx) (vs : List Nat) : Check :=
  (c.must (vs.getD 0 0 % 128 == 0 && (w.ext == 0 || vs.getD 1 0 % 16 == 0)) 0x22
    (c.info (if vs.getD 0 0 % 128 == 0 then vs.getD 1 0 else vs.getD 0 0))).andThen
    (c.must (decide (vs.getD 0 0 + 128 ≤ c.b.scrSize)) 0x32 0)

/-- `launch` (R371). -/
def execLaunch (w : WordE) (s : State) : Out :=
  engineIssue w 0xEB (useLaunch w) (launchRules w) s

/-! ### Guard slots (R370) -/

/-- Whether the guard admits a member. -/
def Ctx.someMember (c : Ctx) (g : BitVec 4) : Bool := !(c.members g).isEmpty

/-- The checks of `garm` (R370), raised whatever lanes the guard admits (R256). -/
def garmChecks (w : WordV3) (c : Ctx) : Check :=
  (checkEncoding c (useGarm w)).andThen (if c.w.guard (w.dst.toNat % 16) == .pending then .stop 0x50 [] 0 0 else .go)

/-- `garm` (R370): a new arming; commands that wait on an earlier one keep its number. -/
def execGarm (w : WordV3) (s : State) : Out :=
  let k := w.dst.toNat % 16
  issueWith s (garmChecks w) fun c =>
    let x := c.w.advance c.i.lanes 1
    s.setWarp c.wid (if c.someMember w.guard then
      { x with g := NMap.set x.g k .pending, gArm := NMap.set x.gArm k (NMap.getD x.gArm k 0 + 1) } else x)

/-- The value a `gset` gives its slot. -/
def gsetValue (c : Ctx) (w : WordV3) : Bool :=
  let a := w.sa.toNat
  match w.md.toNat % 8 with
  | 0 => readPred c.w.q (a % 8)
  | 1 => (c.members w.guard).any fun l => readPred (c.w.thread l).p (a % 8)
  | 2 => (c.members w.guard).all fun l => readPred (c.w.thread l).p (a % 8)
  | _ =>
    let v (r : Nat) : Int := readInt w.ty.toNat (c.w.sreg (r % 64)).toNat
    relation (w.md.toNat / 64) (v a) (v w.sb.toNat)

/-- Decides the commands that wait on an arming of a slot (R192): those it decides against leave at once; the others follow the events
that stand before the `gset` (R86). -/
def State.resolveGuard (s : State) (wid k arm : Nat) (v : Bool) (before : List Nat) : State :=
  let w := s.warp wid
  let cs := (w.mq ++ w.xq ++ w.fq).filter fun c => c.w.ge == 1 && c.w.gslot.toNat == k && c.arm == arm && c.decided == none
  cs.foldl (fun s c =>
    if v == (c.w.xf == 0) then s.modWarp wid fun w => w.modCmd c.id fun c => { c with decided := some true, after := c.after ++ before }
    else s.discardCmd wid c) s

/-- The checks of `gset` (R370), made whatever lanes the guard admits (R256); one that resolves its slot follows its group's parked scalar
loads (R86). -/
def gsetChecks (w : WordV3) (c : Ctx) : Check :=
  (checkEncoding c (useGset w)).andThen ((checkSources c (useGset w) []).andThen
    ((if c.someMember w.guard && c.i.lanes.any fun l => !(c.w.parkedReads l).isEmpty then Check.wait else .go).andThen
      (if c.w.guard (w.dst.toNat % 16) == .pending then .go else .stop 0x50 [] 0 0)))

/-- `gset` (R370). -/
def execGset (w : WordV3) (s : State) : Out :=
  let k := w.dst.toNat % 16
  issueWith s (gsetChecks w) fun c =>
    let x := c.w.advance c.i.lanes 1
    if c.someMember w.guard then
      let v := gsetValue c w
      let before := s.eventsOf c
      (s.setWarp c.wid { x with
        g := NMap.set x.g k (if v then .isTrue else .isFalse), gAfter := NMap.set x.gAfter k before }).resolveGuard c.wid k
          (NMap.getD x.gArm k 0) v before
    else s.setWarp c.wid x

/-! ### Tile instructions (R350, R351) -/

/-- Accumulator tiles that a command names (R101, R351). -/
def Cmd.tiles (c : Cmd) : List Nat :=
  if c.op = 0xD1 || c.op = 0xD2 then mlTiles c.w ++ mlBypTiles c.w (mlSteps c.w (c.op == 0xD2) c.sv) else []

/-- Tiles of a tile instruction. -/
def tilePair (ty k : Nat) : List Nat := if ty = 5 then [k, k + 1] else [k]

/-- The checks of a tile instruction beyond its sources: ownership, then the wait for engine operations that name the tile. -/
def tileCheck (ty k : Nat) (c : Ctx) : Check :=
  (c.must ((tilePair ty k).all fun t => decide (t < c.w.acc.length)) 0x41 0).andThen
    (if c.w.mq.any fun q => q.tiles.any fun t => (tilePair ty k).contains t then .wait else .go)

/-- Byte of element (i, j) of one of a warp's tiles. -/
def tileAddr (b : Block) (w : Warp) (t i j : Nat) : Nat := accAddr b.island b.core (w.acc.getD t 0) i j

/-- Element (i, j) of a tile, or of a pair for binary64. -/
def State.tileElem (s : State) (b : Block) (w : Warp) (f64 : Bool) (t i j : Nat) : Nat :=
  s.readMem (tileAddr b w t i j) 4 + if f64 then s.readMem (tileAddr b w (t + 1) i j) 4 * 2 ^ 32 else 0

/-- Writes an element. -/
def State.setTileElem (s : State) (b : Block) (w : Warp) (f64 : Bool) (t i j v : Nat) : State :=
  let s := s.writeMem (tileAddr b w t i j) 4 v
  if f64 then s.writeMem (tileAddr b w (t + 1) i j) 4 (v / 2 ^ 32) else s

/-- Column of a lane (R351). -/
def accColumn (q l : Nat) : Nat := (8 * q + l) % 32

/-- The checks of a tile instruction as an event on the accumulator file, which follows the order rules of REL (R72, R75). -/
def tileRules (s : State) (g : BitVec 4) (ty k : Nat) (c : Ctx) : Check :=
  (tileCheck ty k c).andThen (checkOrder s c (c.members g) 0)

/-- Elements that `accrd` reads in lane l (R351). -/
def accElems (w : WordV4) (s : State) (c : Ctx) (l : Nat) : List Nat :=
  let imm := w.imm32.toNat
  (List.range (accCount imm)).map fun i => s.tileElem c.b c.w (w.ty.toNat == 5) w.sa.toNat (accRow imm + i) (accColumn (accColq imm) l)

/-- What `accrd` writes in lane l from the elements it read: each rounded, FINV set by a signalling NaN (R58, R351). -/
def accrdOut (w : WordV4) (c : Ctx) (l : Nat) (xs : List Nat) : LaneOut :=
  let ty := w.ty.toNat
  (xs.zipIdx).foldl (fun (o : LaneOut) x =>
    let a := fdecode (if ty = 5 then 5 else 4) x.1 (mdFtz w.md)
    let v := c.round ty w.md l 0 (a, a.sigFlag)
    { o with vals := o.vals ++ [(w.dst.toNat + regsOf ty * x.2, regsOf ty, v.1)], flags := o.flags ||| v.2 }) {}

/-- `accrd` (R351): helpers are neither read nor written. The elements read are its operands (R383), numbered from 16. -/
def execAccrd (w : WordV4) (s : State) : Out :=
  let u := useAccrd w
  issueWith s (fun c => (checkEncoding c u).andThen ((checkSources c u (c.members w.guard)).andThen
      (tileRules s w.guard w.ty.toNat w.sa.toNat c))) fun c =>
    let mem := c.members w.guard
    let out (l : Nat) : LaneOut := accrdOut w c l (accElems w s c l)
    let x := mem.foldl (fun x l => u.dsts.foldl (fun x d => x.emptyV l d.1 d.2) x) c.w
    let s := s.setWarp c.wid ((seedStep w.md x).advance c.i.lanes 2)
    if mem.isEmpty then s
    else
      let (id, s) := s.newId
      let p := c.noPend .accrd w.dst.toNat 0 id u mem
      { s with pend := s.pend ++ [{ p with
          writes := mem.flatMap fun l => splitVals l (out l), flags := mem.map fun l => (l, (out l).flags)
          due := s.clk + 8 + regsOf w.ty.toNat * accCount w.imm32.toNat, issueTime := s.itime c.b.island
          ops := p.ops ++ mem.flatMap fun l => ((accElems w s c l).zipIdx).map fun x => (l, 16 + x.2, x.1) }] }

/-- `accwr` (R351): values are exact, a NaN becomes canonical, and a signalling one sets FINV (R58). -/
def execAccwr (w : WordV4) (s : State) : Out :=
  let u := useAccwr w
  let ty := w.ty.toNat
  let f64 := ty == 5
  let imm := w.imm32.toNat
  let r := regsOf ty
  issueWith s (laneChecks u w.guard (tileRules s w.guard ty w.dst.toNat)) fun c =>
    let elem (l i : Nat) : FVal := fdecode ty (readV c.w l (w.sa.toNat + r * i) r) (mdFtz w.md)
    let rows := List.range (accCount imm)
    let s1 := (c.members w.guard).foldl (fun s l => rows.foldl (fun s i =>
      s.setTileElem c.b c.w f64 w.dst.toNat (accRow imm + i) (accColumn (accColq imm) l)
        (fround (elem l i) (if f64 then 5 else 4) 0 false false 0).1) s) s
    let x := (c.members w.guard).foldl (fun x l => x.setFlags l (rows.foldl (fun f i => f ||| (elem l i).sigFlag) 0)) (c.sourced u w.guard)
    s1.setWarp c.wid (x.advance c.i.lanes 2)

/-- `acczero` (R351). -/
def execAcczero (w : WordV3) (s : State) : Out :=
  let ty := w.ty.toNat
  issueWith s (fun c => (checkEncoding c (useAcczero w)).andThen (tileRules s w.guard ty w.dst.toNat c)) fun c =>
    let s1 := if c.someMember w.guard then
        (tilePair ty w.dst.toNat).foldl (fun s t => s.clearMem (tileAddr c.b c.w t 0 0) 4096) s
      else s
    s1.setWarp c.wid (c.w.advance c.i.lanes 1)

/-! ### Key lookup (R177, R372) -/

/-- The sixteen points of a number on a ring. -/
def ringPoints (base n : Nat) : List (Nat × Nat) := (List.range 16).map fun j => (mix64 (base + n * 16 + j), n)

/-- The owner of a key: the least point at or above its hash, else the least point of all; none gives 0xFFFF_FFFF. -/
def ringOwner (ps : List (Nat × Nat)) (key : Nat) : Nat :=
  let h := mix64 (key + 0x9E3779B97F4A7C15)
  let least (l : List (Nat × Nat)) : Option (Nat × Nat) :=
    l.foldl (fun b x => match b with
      | some y => if x.1 < y.1 then some x else some y
      | none => some x) none
  match least (ps.filter fun x => h ≤ x.1) with
  | some x => x.2
  | none => (least ps).elim 0xFFFFFFFF Prod.snd

/-- Whether a partition's block still runs under a presented number on a core. -/
def State.presBusy (s : State) (p island presented core : Nat) : Bool :=
  s.blocks.values.any fun b => b.island == island && b.core == core && b.presCore == presented && !b.saved && !b.retired &&
    (s.grid b.grid).part == p

/-- The ring of a partition's cores on an island: every presented number of a live core of its slice has its points, and keeps them until
its blocks have retired or moved (R177, R178). -/
def State.coreRing (s : State) (p island : Nat) : List (Nat × Nat) :=
  ((List.range 160).filter fun n =>
    let v := s.reg .partPres (presIx p island n)
    let k := bits v 7 0
    (bit v 8 && s.coreCode island k != 3 && bit (s.clmask p island) (k / 8)) || s.presBusy p island n k).flatMap (ringPoints 0)

/-- Whether a rank's points stand by its entry in node 24's copy (R177, R178, R424): the rank is valid, and its node is a live island, or
lies on another panel, or the rank is HELD. -/
def State.rankStands (s : State) (job n e : Nat) : Bool :=
  rankOk e && decide (n < s.nranksOf job) && (bit e 6 || crosses (bits e 39 8) 8 24 || s.topo.live (bits e 4 0))

/-- Ranks of a job with blocks that have neither retired nor moved (R178). -/
def State.busyRanks (s : State) (job : Nat) : List Nat :=
  (s.blocks.values.filter fun b => !b.saved && !b.retired && recJob (s.grid b.grid).record == job).map fun b => recRank (s.grid b.grid).record

/-- The ring of a job's ranks, from node 24's copy of its table (R177): a rank that leaves it keeps its points until its blocks have retired
or moved (R178). -/
def State.rankRing (s : State) (job : Nat) : List (Nat × Nat) :=
  let stand := (s.ranks.filter fun e => e.1 / 65536 == job * 32 + 24 && s.rankStands job (e.1 % 65536) e.2).map fun e => e.1 % 65536
  ((stand ++ s.busyRanks job).eraseDups).flatMap (ringPoints (2 ^ 48))

/-- What `keymap` writes from its key (R372). -/
def keymapOut (w : WordV3) (s : State) (c : Ctx) (xs : List Nat) : LaneOut :=
  let ps := if w.md.toNat % 8 = 0 then s.coreRing c.g.part c.b.island else s.rankRing (recJob c.g.record)
  { vals := [(w.dst.toNat, 1, ringOwner ps (argN xs 0))] }

/-- `keymap` (R372). -/
def execKeymap (w : WordV3) (s : State) : Out :=
  lateInstr s w.guard (useKeymap w) 1 .keymap (fun _ => .go) (fun _ => 32) fun c _ xs => keymapOut w s c xs

/-! ### `arm` and `waitarr` (R213 to R216, R368) -/

/-- What the counter's page answers (R213): its address and leaf, a replayable class, a stop, or a stall. -/
inductive CtrRes where
  | ok (pa leaf : Nat)
  | fault (cls : Nat)
  | stop
  | transit
  deriving DecidableEq, Repr

/-- Translates a counter's address for `arm` (which reads and writes) or `waitarr` (which reads). -/
def State.counterAt (s : State) (wid va : Nat) (write : Bool) : CtrRes × State :=
  let c := s.warpSite wid
  match s.translate c.island c.core c.asid va with
  | (.absent _, s) => (.fault 0x10, s)
  | (.leaf e z, s) =>
    (if leafTransit e then .transit
      else if 2 ≤ leafType e then .stop
      else if leafR e && (!write || leafW e) then .ok (hbmAddr c.island (leafPA e z va)) e else .fault 0x11, s)

/-- The RMW of an `arm` goes to the home slice (R132, R214). On a SEQ page it is a SEQ read too, whose answer drops the core's REL words
(R78, R128). -/
def State.sendArm (s : State) (wid : Nat) (lanes : List Nat) (pa leaf y : Nat) (add : Bool) : State :=
  let w := s.warp wid
  let b := s.block w.block
  let ws := wordsOf (pa + 8) 8
  let own := lanes.flatMap fun l => (s.outstanding wid l).filter fun m => leafType leaf == 0 || overlaps m.words (wordsOf pa 16)
  let (id, s) := s.newId
  let seq := leafType leaf == 0
  let s := if seq then { s with pend := s.pend ++ [{ Pend.blank (id + 1) wid w.gen.toNat .load with waiting := [id], drops := true }]
                                fresh := s.fresh + 1 } else s
  (s.addMsg { Msg.blank id .atom b.island b.core wid with
    lanes := lanes, gen := w.gen.toNat, words := ws, ptype := leafType leaf, cls := leafClass leaf, asker := if seq then some (id + 1) else none
    ops := [⟨lanes.headD 0, pa + 8, if add then 10 else 9, 3, 0, 0, y, 0⟩], part := (s.grid b.grid).part
    acq := leafType leaf == 0, after := ((own.map fun m => m.id) ++ s.wbacksOf b.island b.core ws).eraseDups }).coreCount b.island b.core 9 1

/-- The group's lanes wait at a counter, since the issue of the `waitarr` (R216, R226): they stand at the `waitarr`, and the slice gives up exclusive copies. -/
def State.waitAt (s : State) (wid : Nat) (e : LogEntry) (pa : Nat) : State :=
  let w := s.warp wid
  let b := s.block w.block
  let (id, s) := s.newId
  let s := s.modWarp wid fun w => w.modThreads e.lanes fun t => { t with pc := e.pc, hold := t.hold ++ [id] }
  let x : WaitArr := ⟨id, wid, e.lanes, e.pc, pa, e.issueTime, w.gen.toNat, { e with num := id, parkedLanes := false, replay := false }, false⟩
  { s with waits := s.waits ++ [x] }.recallHolders b.island (wordsOf pa 16)

/-- The log entry of an `arm` or `waitarr` (R375; log 29). -/
def counterEntry (s : State) (wid num : Nat) (words : List Word) (pc : PC) (ovl : Nat) (lanes : List Nat) (va y : Nat)
    (parked : Bool) : LogEntry where
  num := num
  words := words
  pc := pc
  ovl := ovl
  lanes := lanes
  ops := lanes.flatMap fun l => [(l, 0, va), (l, 1, y)]
  brec := 0
  gen := (s.warp wid).gen.toNat
  issueTime := s.itime (s.block (s.warp wid).block).island
  seed := 0
  parkedLanes := parked
  replay := false
  going := []
  ptype := 4

/-- Posts the record of a counter's page fault and parks the group's lanes (R368, R375; log 29). -/
def State.parkCounter (s : State) (wid cls : Nat) (e : LogEntry) (va : Nat) (write : Bool) : State :=
  let w := s.warp wid
  let b := s.block w.block
  let info := va / 256 * 256 + (s.grid b.grid).asid * 2 ^ 48 + if write then 2 ^ 60 else 0
  let s := s.post b.island (warpRecord s w cls 1 (laneMask e.lanes) e.pc e.ovl info 0 0)
  s.modWarp wid fun w =>
    let log := if w.log.any fun x => x.num == e.num then w.log.map fun x => if x.num = e.num then e else x else w.log ++ [e]
    { w.modThreads e.lanes (fun t => { t with st := .parked }) with log := log }

/-- The address of the counter an `arm` or `waitarr` names. -/
def counterVA (w : WordS) (c : Ctx) : Nat := vaOf (c.w.sreg w.sa.toNat).toNat

/-- The checks of an `arm` or `waitarr`; beyond the encoding they count only where the q guard holds (R292, R368). -/
def counterChecks (w : WordS) (u : Usage) (write : Bool) (s : State) (c : Ctx) : Check :=
  (checkEncoding c u).andThen (if c.qOn w.guard then (checkSources c u []).andThen
    ((if 16 ≤ s.logTaken c.wid then Check.wait else .go).andThen
      ((c.must (counterVA w c % 16 == 0) 0x22 (c.info (counterVA w c))).andThen
        ((checkOrder s c c.i.lanes 0).andThen
          (match (s.counterAt c.wid (counterVA w c) write).1 with
            | .stop => .stop 0x12 [] (c.info (counterVA w c)) 0
            | .ok _ leaf => if write && c.i.lanes.any (fun l => (c.w.parkedReads l).any fun r =>
                leafType leaf == 0 || r.meets c.wid (counterVA w c) 16) then .wait else .go
            | .fault _ | .transit => .go))))
    else .go)

/-- An `arm` or `waitarr` on a counter (R368): `act` performs it once the page answers. -/
def counterInstr (w : WordS) (u : Usage) (write : Bool) (act : State → Ctx → Nat → Nat → State) (s : State) : Out :=
  let va (c : Ctx) : Nat := counterVA w c
  let y (c : Ctx) : Nat := if write then yOf w c.w else 0
  issueWith s (counterChecks w u write s) fun c =>
    let x := c.w.advance c.i.lanes 1
    if !c.qOn w.guard then s.setWarp c.wid x
    else match s.counterAt c.wid (va c) write with
      | (.ok pa leaf, s) => act (s.setWarp c.wid x) c pa leaf
      | (.fault cls, s) =>
        let (k, s) := s.newId
        let e := counterEntry s c.wid k c.words c.i.pc c.ovl c.i.lanes (va c) (y c) true
        (s.setWarp c.wid x).parkCounter c.wid cls e (va c) write
      | (_, s) =>
        let (k, s) := s.newId
        let e := counterEntry s c.wid k c.words c.i.pc c.ovl c.i.lanes (va c) (y c) false
        let x := x.modThreads c.i.lanes fun t => { t with hold := t.hold ++ [k] }
        { s.setWarp c.wid x with stalls := s.stalls ++ [⟨k, c.wid, e, s.itime c.b.island, va c, write⟩] }

/-- `arm` (R214, R368). -/
def execArm (w : WordS) (s : State) : Out :=
  counterInstr w (useArm w) true (fun s c pa leaf => s.sendArm c.wid c.i.lanes pa leaf (yOf w c.w) (w.sd == 1)) s

/-- `waitarr` (R216, R368). -/
def execWaitarr (w : WordS) (s : State) : Out :=
  counterInstr w (useWaitarr w) false (fun s c pa _ =>
    s.waitAt c.wid (counterEntry s c.wid 0 c.words c.i.pc c.ovl c.i.lanes (counterVA w c) 0 false) pa) s

/-- `WAITARR_RELEASE` (R216): reached or ERR, an acquire at island scope; OVF, ARRIVAL_OVERFLOW. One whose translation was removed
translates again: it goes into the operand log, once that has a place, and is replayed from there (log 136). -/
def execWaitarrRelease (id : Nat) (s : State) : Out :=
  match s.waits.find? fun x => x.id == id with
  | none => .next s
  | some x =>
    let w := s.warp x.warp
    let b := s.block w.block
    let ws := wordsOf x.pa 16
    let mine := x.lanes.any fun l => (s.outstanding x.warp l).any fun m => overlaps m.words ws
    let st := ctrState (s.readMem x.pa 16)
    if x.stale then
      .next (if 16 ≤ s.logTaken x.warp || s.boot.starting then s
        else { s with waits := s.waits.filter fun y => y.id != id }.modWarp x.warp fun w =>
          { w with log := w.log ++ [{ x.entry with replay := true }] })
    else if st = 0 || mine || !(s.holders b.island ws).isEmpty then .next s
    else
      let s := { s with waits := s.waits.filter fun y => y.id != id }
      if st = 2 then
        .next (s.stopWarp x.warp 0x34 0 x.pc (s.ovlOf b.island b.core x.pc.slot) 0 0)
      else
        let s := (s.modWarp x.warp fun w => w.advance x.lanes 1).dropRel b.island b.core
        .next ((s.islCount b.island 9 1).gaugeSee b.island 0x04 b.core (some (s.grid b.grid).part) (s.itime b.island - x.since))

/-- Replays an `arm` or `waitarr` from its log entry (R377). -/
def State.replayCounter (s : State) (wid : Nat) (e : LogEntry) : State :=
  let x := WordS.unpack (e.words.getD 0 0)
  let write := (e.words.getD 0 0).toNat / 2 ^ 56 == 0xE3
  let val (k : Nat) : Nat := ((e.ops.find? fun o => o.2.1 == k).map fun o => o.2.2).getD 0
  let drop (s : State) : State := s.modWarp wid fun w => w.endReplay e.num e.lanes
  match s.counterAt wid (val 0) write with
  | (.ok pa leaf, s) =>
    if write then (drop s).sendArm wid e.lanes pa leaf (val 1) (x.sd == 1) else (drop s).waitAt wid e pa
  | (.fault cls, s) => s.parkCounter wid cls { e with parkedLanes := true, replay := false } (val 0) write
  | (.stop, s) =>
    (s.stopWarp wid 0x12 0 e.pc e.ovl (val 0 + s.warpAsid wid * 2 ^ 48) 0).modWarp wid fun w =>
      { w with stopReplay := some e.num }
  | (.transit, s) =>
    let (id, s) := s.newId
    let s := s.modWarp wid fun w => { w with log := w.log.map fun y => if y.num = e.num then { y with replay := false } else y }
    { s with stalls := s.stalls ++ [⟨id, wid, e, s.itime (s.block (s.warp wid).block).island, val 0, write⟩] }

/-! ### Request packets and replays (R306, R377, R383) -/

/-- The context in which a request packet is performed again: its words, MODE and SRSEED as the issue read them. -/
def State.packetCtx (s : State) (wid : Nat) (e : LogEntry) : Ctx :=
  let l := e.lanes.headD 0
  let helpers := e.lanes.filter fun l => e.operand l 4 == 1
  let c := s.ctx ⟨wid, e.lanes.filter fun l => !helpers.contains l, helpers, e.pc, 0⟩
  { c with w := { c.w with mode := BitVec.ofNat 32 (e.operand l 5), srseed := BitVec.ofNat 64 e.seed }, words := e.words, ovl := e.ovl }

/-- What a local load writes in lane l when it is performed again from its index. -/
def localOut (w : WordM) (sp : Space) (s : State) (c : Ctx) (l : Nat) (xs : List Nat) : LaneOut :=
  { vals := [(w.data.toNat, sizeRegs w.size.toNat, localValue w sp s c l (argN xs 0))] }

/-- What a lane instruction writes in lane l when it is performed again from the operands of its issue (R306, R383). -/
def packetLane (s : State) (c : Ctx) (e : LogEntry) (l : Nat) : LaneOut :=
  let xs := (List.range 3).map (e.operand l)
  let fn (w : WordV3) (f : List FVal → FVal × BitVec 32) : LaneOut := specialOut w (fun _ => f) c l xs
  match decodeWords (e.words.getD 0 0) (e.words.getD 1 0) with
  | .idiv w => divOut w (fun r => r.1) c l xs
  | .irem w => divOut w (fun r => r.2.1) c l xs
  | .fdiv w => fn w fun x => fdiv (fa x 0) (fa x 1)
  | .fsqrt w => fn w fun x => fsqrtV (fa x 0)
  | .frsqrt w => fn w fun x => frsqrtV (fa x 0)
  | .frcp w => fn w fun x => frcpV (fa x 0)
  | .fexp2 w => fn w fun x => specialV .exp2 (fa x 0)
  | .flog2 w => fn w fun x => specialV .log2 (fa x 0)
  | .fsin w => fn w fun x => specialV .sin (fa x 0)
  | .fcos w => fn w fun x => specialV .cos (fa x 0)
  | .ftanh w => fn w fun x => specialV .tanh (fa x 0)
  | .fsigm w => fn w fun x => specialV .sigm (fa x 0)
  | .accrd w => accrdOut w c l ((List.range (accCount w.imm32.toNat)).map fun i => e.operand l (16 + i))
  | .keymap w => keymapOut w s c xs
  | .ldl w => localOut w .slice s c l xs
  | .lds w => localOut w .scratch s c l xs
  | .ldc w => localOut w .cluster s c l xs
  | .ldbm w => localOut w .berm s c l xs
  | _ => {}

/-- Performs a request packet of a lane instruction again from its operands (R306, R383): values and flags are written in the lanes it
names, zero in a helper lane that would have trapped (R31). -/
def State.packetResults (s : State) (wid : Nat) (e : LogEntry) : State :=
  let c := s.packetCtx wid e
  let out (l : Nat) : LaneOut := if e.operand l 6 = 1 then zeroOut (packetLane s c e l) else packetLane s c e l
  let s := s.lateWrite wid (e.lanes.flatMap fun l => splitVals l (out l)) (c.i.lanes.map fun l => (l, (out l).flags))
  s.modWarp wid fun w => { w with log := w.log.filter fun x => x.num != e.num }

/-- Replays one entry of a warp's log, of whatever instruction (R377). -/
def State.replayAny (s : State) (wid num : Nat) : State :=
  match (s.warp wid).log.find? fun e => e.num == num with
  | none => s
  | some e =>
    let op := (e.words.getD 0 0).toNat / 2 ^ 56
    if op = 0xE3 || op = 0xE4 then s.replayCounter wid e
    else match e.access wid with
      | some a => s.replayAccess wid e a
      | none => s.packetResults wid e

end Sys2Proof.Machine
end

