-- ==== Sys2Proof/Machine/EngineRun.lean ====
section
/-!
DEFINITION. Engine commands as they start, run and end (R347 to R349, R352 to R354, R358 to R366, R371): start conditions, the checks at
start, one unit of progress per event, and the completion of R348.
-/
namespace Sys2Proof.Machine

/-! ### When commands may run (R171, R193, R195, R349, R382) -/

/-- A partition's bucket is empty (R395): partition 0's never is. -/
def State.bucketEmpty (s : State) (p island : Nat) : Bool :=
  let u := s.part p island
  p != 0 && u.allot != 0xFFFFFFFF && u.cur == 0 && u.bank == 0

/-- A partition is stopped by budget: its own bucket or an ancestor's is empty (R195). -/
def State.budgetStop (s : State) (p island : Nat) : Bool := (s.lineage p).any fun q => s.bucketEmpty q island

/-- A restored warp whose entries are still to be replayed (R386). -/
def Warp.replaysFirst (w : Warp) : Bool := w.restored && w.log.any fun e => e.replay

/-- Whether commands of a warp may go on: no HOLD, no halt, no replay of a restore to come, no budget stop. Those of a stopped warp complete first (R378). -/
def State.engineOk (s : State) (wid : Nat) : Bool :=
  let b := s.block (s.warp wid).block
  !(s.isl b.island).inHold && (!b.halting || (s.warp wid).stopped) && !b.saved && !(s.warp wid).replaysFirst && !s.budgetStop (s.grid b.grid).part b.island

/-- A running command between two of its fixed points (R349): in a K-step, or in a B tile. It goes on to the next of them in HOLD, in a
halt and in a budget stop. -/
def Cmd.midUnit (c : Cmd) : Bool := c.running && (c.begun || c.op == 0xD0 || c.op == 0xD6)

/-- A matrix loop. -/
def Cmd.isLoop (c : Cmd) : Bool := c.op == 0xD1 || c.op == 0xD2

/-- Whether a matrix loop occupies a core's engine (R360). -/
def State.engineTaken (s : State) (island core : Nat) : Bool :=
  (s.liveWarps (s.residents island core)).any fun w => w.mq.any fun c => c.running && c.isLoop

/-- The command at the head of a queue, if it has not started (R191): in MQ the first command must have ended. -/
def Warp.headCmd (w : Warp) (q : Nat) : Option Cmd :=
  if q = 0 then (match w.mq.head? with | some c => if c.running then none else some c | none => none)
  else (w.queue q).find? fun c => !c.running

/-- The start condition of a head command (R347, R362, R369, R371). -/
def State.startCond (s : State) (wid : Nat) (c : Cmd) : Bool :=
  let b := s.block (s.warp wid).block
  c.decided == some true &&
    (if queueOf c.op = 0 then !s.engineTaken b.island b.core
     else if c.op = 0xE9 then
       (s.residents b.island b.core).all fun x => !(x.slots.contains (bits c.w.ext.toNat 1 0)) || (x.grid == b.grid && x.blockId == b.blockId)
     else if c.op = 0xEB then decide (s.tableTaken b.island < 64)
     else if c.op = 0xE5 then c.after.all fun k => !s.msgs.any fun m => m.id == k
     else true)

/-- Notes the core clock in which each head's last condition came to hold (R347), at the end of that clock. -/
def State.refreshHeads (s : State) : State :=
  s.warps.foldl (fun s p =>
    if p.2.mq.isEmpty && p.2.xq.isEmpty && p.2.fq.isEmpty then s
    else [0, 1, 2].foldl (fun s q =>
      match (s.warp p.1).headCmd q with
      | some c =>
        let on := s.startCond p.1 c
        if on && c.headAt == none then s.modWarp p.1 fun w => w.modCmd c.id fun c => { c with headAt := some s.clk }
        else if !on && c.headAt != none then s.modWarp p.1 fun w => w.modCmd c.id fun c => { c with headAt := none }
        else s
      | none => s) s) s

/-- A head command whose time to start has come. -/
def State.mayStart (s : State) (wid : Nat) (c : Cmd) : Bool :=
  !(s.warp wid).stopped && s.engineOk wid && s.startCond wid c && c.lineFault == none &&
    (match c.headAt with | some t => decide (t + 4 ≤ s.clk) | none => false)

/-! ### Failures (R347) -/

/-- Stops a command's warp with a class (R347): the record names the command's issue. -/
def State.engineStop (s : State) (wid : Nat) (c : Cmd) (cls info0 info1 : Nat) : State :=
  let s := s.modWarp wid fun w => (w.dropCmd c.id).refill c
  let s := { s with stalls := s.stalls.filter fun x => x.id != c.id }
  s.stopWarp wid cls 0 c.pc c.ovl info0 info1

/-- A running command meets a replayable class: it waits at the line, and a record is posted (R347, R380). -/
def State.engineLine (s : State) (wid : Nat) (c : Cmd) (cls va : Nat) (write : Bool) : State :=
  let w := s.warp wid
  let b := s.block w.block
  let info := va / 256 * 256 + s.warpAsid wid * 2 ^ 48 + (if write then 2 ^ 60 else 0) + 2 ^ 62
  let s := s.post b.island (warpRecord s w cls 1 0 c.pc c.ovl info 0 0)
  let s := { s with stalls := s.stalls.filter fun x => x.id != c.id }
  s.modWarp wid fun w => w.modCmd c.id fun c => { c with lineFault := some (va, cls) }

/-- A command's access stalls at a page in TRANSIT (R157); `write` says that it writes (R380). -/
def State.engineStall (s : State) (wid : Nat) (c : Cmd) (va : Nat) (write : Bool) : State :=
  if s.stalls.any fun x => x.id == c.id then s
  else
    let b := s.block (s.warp wid).block
    let x : Stall := ⟨c.id, wid, counterEntry s wid c.id [] c.pc c.ovl [] va 0 false, s.itime b.island, va, write⟩
    { s with stalls := s.stalls ++ [x] }

/-- Goes on with what an access answers, or leaves the command waiting or stopped. -/
def engineStep (wid : Nat) (c : Cmd) (write : Bool) (r : EngOut) (k : State → List (Nat × Nat × Nat) → State) : State :=
  match r with
  | .wait s => s
  | .transit s va => s.engineStall wid c va write
  | .page s cls va => s.engineLine wid c cls va write
  | .stop s cls va => s.engineStop wid c cls (va % 2 ^ 48 + s.warpAsid wid * 2 ^ 48) 0
  | .ok s ps => k { s with stalls := s.stalls.filter fun x => x.id != c.id } ps

/-- The VA of the source counter of an XQ command that names one (R345). -/
def Cmd.sourceCounter (c : Cmd) : Option Nat :=
  let e := c.w.ext.toNat
  if c.op = 0xE0 || c.op = 0xE1 then (if bit e 6 then some (vaOf (c.sv.getD 4 0)) else none)
  else if c.op = 0xE2 then (if bit e 17 then some (vaOf (c.sv.getD 4 0)) else none)
  else if c.op = 0xEB then (if bit e 0 then some (vaOf (c.sv.getD 1 0)) else none)
  else none

/-- A failure at start: ERR of the source counter, then the stop (R347, R214). While the counter's page is in TRANSIT the command stalls
(R157), and while it is absent or does not permit the change the command waits at that line; a counter that its page's type refuses is
left, and the first failure stands (log 121). -/
def State.startFail (s : State) (wid : Nat) (c : Cmd) (cls info0 info1 : Nat) : State :=
  match c.sourceCounter with
  | some va =>
    match s.ctrUpdate (s.warpSite wid) va ctrErr with
    | .stop s _ _ => s.engineStop wid c cls info0 info1
    | r => engineStep wid c true r fun s _ => s.engineStop wid c cls info0 info1
  | none => s.engineStop wid c cls info0 info1

/-! ### The checks at start (R347) -/

/-- The completion operand of a command with CK (R348). -/
def Cmd.completion (c : Cmd) : Option (Bool × Nat) :=
  if queueOf c.op = 1 then none
  else match ckOf c.w with
    | 1 => some (true, vaOf (c.sv.getD 3 0))
    | 2 => some (false, vaOf (c.sv.getD 3 0))
    | _ => none

/-- Translates the counters and completion words a command names (R347 step 3); the type of a completion word is met at the end. -/
def State.checkCounters (s : State) (wid : Nat) (c : Cmd) (k : State → State) : State :=
  let site := s.warpSite wid
  match c.sourceCounter, c.completion with
  | some va, _ => engineStep wid c true (s.engResolve site .counter [(va, 16)]).1 fun s _ => k s
  | none, some (true, va) => engineStep wid c true (s.engResolve site .counter [(va, 16)]).1 fun s _ => k s
  | none, some (false, va) =>
    match (s.engResolve site .write [(va, 4)]).1 with
    | .stop s _ _ => k s
    | r => engineStep wid c true r fun s _ => k s
  | none, none => k s

/-- Length of a transfer. -/
def Cmd.length (c : Cmd) : Nat := if c.op = 0xE2 then ratomSize c.w else c.sv.getD 3 0

/-- Target counter of a transfer, as (window, offset) (R345, R367). -/
def Cmd.targetCounter (c : Cmd) : Option (Nat × Nat) :=
  let e := c.w.ext.toNat
  if (c.op = 0xE0 && bit e 5) || (c.op = 0xE2 && bit e 18) then some (bits c.w.imm64.toNat 35 24, bits c.w.imm64.toNat 23 0) else none

/-- Rank, route and windows of an XQ command (R347 steps 1 and 2, R164, R167, R365, R366): a class with its INFO, a wait, or the rank's
entry. -/
inductive RankRes where
  | ok (entry : Nat)
  | held
  | fail (cls info0 info1 : Nat)
  deriving DecidableEq, Repr

def State.checkRank (s : State) (wid : Nat) (c : Cmd) : RankRes × State :=
  let b := s.block (s.warp wid).block
  let g := s.grid b.grid
  let job := recJob g.record
  let rank := c.sv.getD 0 0 % 65536
  let info := if c.op = 0xE5 then rank else xferInfo c.sv
  if s.nranksOf job ≤ rank then (.fail 0x31 info 0, s)
  else
    let (e, s) := s.rankEntry job b.island rank
    let route := bits e 39 8
    if !rankOk e then (.fail 0x31 info route, s)
    else if bit e 6 then (.held, s)
    else if !s.topo.routeOk route 8 b.island then (.fail 0x30 info route, s)
    else if c.op = 0xE5 then (.ok e, s)
    else
      let win := s.window job b.island (xferWin c.sv)
      if !winOk win || decide (winSize win < xferRofs c.sv + c.length) then (.fail 0x32 info route, s)
      else match c.targetCounter with
        | none => (.ok e, s)
        | some (tw, tofs) =>
          let t := s.window job b.island tw
          if !winOk t || decide (winSize t < tofs + 16) then (.fail 0x32 (rank + tw * 65536) route, s)
          else if tofs % 16 != 0 then (.fail 0x22 ((winBase t + tofs) % 2 ^ 48 + g.asid * 2 ^ 48) 0, s)
          else (.ok e, s)

/-- The pages of a range at their 64 KiB steps, for `onceinit` (R363). -/
def State.oncePages (s : State) (site : EngSite) : List (Nat × Nat) → EngOut
  | [] => .ok s []
  | (va, _) :: xs =>
    match s.translate site.island site.core site.asid va with
    | (.absent _, s) => .page s 0x10 va
    | (.leaf e _, s) =>
      if leafTransit e then .transit s va
      else if leafType e != 2 then .stop s 0x12 va
      else if !leafW e then .page s 0x11 va
      else s.oncePages site xs

/-- Marks a command as running. -/
def State.startRun (s : State) (wid : Nat) (c : Cmd) (f : Cmd → Cmd := id) : State :=
  s.modWarp wid fun w => w.modCmd c.id fun c => f { c with running := true }

/-- K-steps of a loop, in all (R360). -/
def Cmd.steps (c : Cmd) : Nat := mlSteps c.w (c.op == 0xD2) c.sv
def Cmd.allSteps (c : Cmd) : Nat := c.steps * mlMo c.w * mlNo c.w

/-- K-steps that a loop has made. -/
def Cmd.stepsDone (c : Cmd) : Nat := (c.m * mlNo c.w + c.n) * c.steps + c.k

/-- Sends the packet of a `notify`, which ends the command (R369); the packet keeps the place of the issue for a refusal. -/
def State.sendNotify (s : State) (wid : Nat) (c : Cmd) (entry : Nat) : State :=
  let w := s.warp wid
  let b := s.block w.block
  let g := s.grid b.grid
  let (id, s) := s.newId
  let p : Packet := { Packet.blank id .notify b.island with
    route := bits entry 39 8, grid := b.grid, warp := wid, gen := w.gen.toNat, cmd := c.id, job := recJob g.record
    rank := c.sv.getD 0 0 % 65536, ofs := c.sv.getD 1 0 % 4096, len := bits c.w.imm64.toNat 15 0, part := g.part
    scva := c.pc.slot + 4 * c.pc.ofs, asid := c.ovl, res := bits entry 39 8
    issuer := (b.core, w.warpNo, b.blockId, w.mark.toNat) }
  (s.addPacket p).modWarp wid fun w => w.dropCmd c.id

/-- Starts a head command: its checks in the order of R347, then its run. -/
def State.startCmd (s : State) (wid : Nat) (c : Cmd) : State :=
  let b := s.block (s.warp wid).block
  let site := s.warpSite wid
  if c.op = 0xE0 || c.op = 0xE1 || c.op = 0xE2 || c.op = 0xE5 then
    match s.checkRank wid c with
    | (.held, s) => s
    | (.fail cls i0 i1, s) => s.startFail wid c cls i0 i1
    | (.ok e, s) =>
      if c.op = 0xE5 then s.sendNotify wid c e
      else s.checkCounters wid c fun s => s.startRun wid c fun c => { c with rankEntry := e }
  else if c.op = 0xEA then
    engineStep wid c true (s.oncePages site (cutAt 65536 (vaOf (c.sv.getD 0 0)) (c.sv.getD 1 0) 257)) fun s _ =>
      s.checkCounters wid c fun s => s.startRun wid c
  else s.checkCounters wid c fun s =>
    if c.isLoop then
      s.startRun wid c fun c => { c with doneAt := s.clk + 20 + mlClocks (mlFmt c.w) * (c.allSteps - c.stepsDone) }
    else if c.op = 0xD6 then s.startRun wid c fun c => { c with doneAt := s.clk + 32 }
    else if c.op = 0xE9 then
      let slot := bits c.w.ext.toNat 1 0
      let keep := match NMap.find? (s.core b.island b.core).tags slot with
        | some t => t.image == (s.grid b.grid).image && t.ovl == bits c.w.imm64.toNat 15 0
        | none => false
      let s := if keep then s else s.modCore b.island b.core fun x => { x with tags := NMap.erase x.tags slot }
      let s := s.modBlock (s.warp wid).block fun b => { b with slots := if b.slots.contains slot then b.slots else b.slots ++ [slot] }
      s.startRun wid c
    else s.startRun wid c

/-- `ENGINE_COMMAND_START` (R347): the command at the head of a queue, 4 core clocks after its last condition came to hold. -/
def execEngineCommandStart (warp queue : Nat) (s : State) : Out :=
  match (s.warp warp).headCmd queue with
  | some c => .next (if s.mayStart warp c then s.startCmd warp c else s)
  | none => .next s

/-! ### Ends (R348) -/

/-- Bytes that CK 1 adds (R348). -/
def Cmd.counted (c : Cmd) : Nat :=
  if c.op = 0xD0 || c.op = 0xD6 then tileSize (wbFmt c.w) (wbSp c.w)
  else if c.isLoop then (if mlFmt c.w = 11 then 8192 else 4096) * (mlMo c.w * mlNo c.w)
  else if c.op = 0xE8 then (if fillDq c.w then 64 * c.sv.getD 2 0 else c.sv.getD 2 0)
  else if c.op = 0xE9 then 8 * c.sv.getD 1 0
  else c.sv.getD 1 0

/-- Ends a command: the addition or the completion word, then it leaves its queue. -/
def State.finishCmd (s : State) (wid : Nat) (c : Cmd) (after : State → State := id) : State :=
  let site := s.warpSite wid
  let drop (s : State) : State := after (s.modWarp wid fun w => w.dropCmd c.id)
  match c.completion with
  | none => drop s
  | some (true, va) => engineStep wid c true (s.ctrUpdate site va (ctrAdd c.counted)) fun s _ => drop s
  | some (false, va) =>
    engineStep wid c true (s.engAccess site .write [(va, 4)]) fun s ps => drop (s.engWrite site .write ps (bytesOf 4 1))

/-! ### The weight buffer (R352 to R354) -/

/-- Byte of an offset in a block's share. -/
def wbufByte (b : Block) (o : Nat) : Nat := wbufAddr b.island b.core (b.wbBase + o)

/-- Writes a tile and the tags of its granules (R354). -/
def State.writeTile (s : State) (b : Block) (w : WordE) (bs : List Byte) : State :=
  let s := { s with mem := Memory.writeN s.mem (wbufByte b (wbWofs w)) bs }
  s.modCore b.island b.core fun x =>
    { x with wtags := (List.range (tileSize (wbFmt w) (wbSp w) / 32)).foldl (fun t i =>
        NMap.set t ((b.wbBase + wbWofs w) / 32 + i) (wbFmt w * 2 + (if wbSp w then 1 else 0), wbWofs w)) x.wtags }

/-- The bytes of `wbzero`: zero elements, scales 0x7F, metadata that keeps rows 0 and 1 (R354). -/
def zeroTile (f : Nat) (sp : Bool) : List Byte :=
  List.replicate (tileElems f sp) 0 ++ (if f = 4 then List.replicate 32 0x7F else []) ++ if sp then List.replicate 128 0x44 else []

/-- Metadata nibbles with i₀ < i₁ (R353). -/
def metaOk (bs : List Byte) : Bool :=
  bs.all fun b => bits b.toNat 1 0 < bits b.toNat 3 2 && bits b.toNat 5 4 < bits b.toNat 7 6

/-- One unit of `wbload`: its next reads, and after the last of them the tile (R353). -/
def State.wbloadUnit (s : State) (wid : Nat) (c : Cmd) : State :=
  let b := s.block (s.warp wid).block
  let f := wbFmt c.w
  let sp := wbSp c.w
  let units := tileUnits f sp (c.sv.getD 0 0) (c.sv.getD 1 0) (c.sv.getD 2 0)
  match units[c.m]? with
  | some u =>
    let r := (if u.1 then c.brec2 else c.brec).toNat
    let n := if u.1 then 1 else tileEsize f
    engineStep wid c false (s.engAccess (s.warpSite wid) .read (u.2.map fun (e : Nat) => (recVA r (e : Int), n))) fun s ps =>
      s.modWarp wid fun w => w.modCmd c.id fun c => { c with m := c.m + 1, stage := c.stage ++ s.engBytes ps }
  | none =>
    if sp && !metaOk (c.stage.drop (tileElems f sp + if f = 4 then 32 else 0)) && c.n = 0 then s.engineStop wid c 0x42 0 0
    else
      let s := if c.n = 0 then s.writeTile b c.w c.stage else s
      let s := s.modWarp wid fun w => w.modCmd c.id fun c => { c with n := 1 }
      s.finishCmd wid c

/-- `wbzero` writes its tile as it ends. -/
def State.wbzeroUnit (s : State) (wid : Nat) (c : Cmd) : State :=
  let b := s.block (s.warp wid).block
  let s := if c.n = 0 then s.writeTile b c.w (zeroTile (wbFmt c.w) (wbSp c.w)) else s
  let s := s.modWarp wid fun w => w.modCmd c.id fun c => { c with n := 1 }
  s.finishCmd wid c

/-! ### Matrix loops (R66, R358 to R360) -/

/-- An integer as an exact value. -/
def intVal (x : Int) : FVal := .fin (decide (x < 0)) x.natAbs 0 false

/-- MxValue (R51, R68). -/
def mxVal (e sc : Nat) : FVal :=
  if sc = 255 then .nan false
  else match fdecode 14 e false with
    | .fin n m x st => .fin n m (x + (sc : Int) - 127) st
    | v => v

/-- A 4-bit value at nibble `k` of a byte list. -/
def nibbleAt (bs : List Byte) (k : Nat) : Nat := (bs.getD (k / 2) 0).toNat / 16 ^ (k % 2) % 16

/-- A little-endian element of `n` bytes at index `k`. -/
def elemAt (bs : List Byte) (n k : Nat) : Nat := valueOf ((bs.drop (n * k)).take n)

/-- Row i of an A tile in the scratchpad: 32 values (R359). -/
def State.aRow (s : State) (b : Block) (c : Cmd) (i : Nat) : List FVal :=
  let a := (mlAofs c.sv c.k c.m).toNat
  let at' (o : Nat) : Nat := scrAddr b.island b.core (b.scrBase + o)
  let ty := mlAtype (mlFmt c.w)
  if ty = 15 then
    let bs := Memory.readN s.mem (at' (a + 16 * i)) 16
    let sc := s.readMem (at' (mlAsc c.w + 32 * (c.k + c.steps * c.m) + i)) 1
    (List.range 32).map fun j => mxVal (nibbleAt bs j) sc
  else
    let n := if ty = 5 then 8 else if ty = 6 || ty = 7 then 2 else 1
    let bs := Memory.readN s.mem (at' (a + 32 * n * i)) (32 * n)
    (List.range 32).map fun j => if ty = 12 then intVal (sext 8 (elemAt bs n j)) else fdecode ty (elemAt bs n j) false

/-- Row i of the A operand taken from a bypass tile (R358). -/
def State.bypRow (s : State) (b : Block) (w : Warp) (c : Cmd) (i : Nat) : List FVal :=
  let ty := mlAtype (mlFmt c.w)
  (List.range 32).map fun j =>
    let x := fdecode 4 (s.tileElem b w false (mlByp c.w + c.k) i j) false
    fdecode ty (fround x ty 0 (mlSata c.w) false 0).1 false

/-- Element (k, n) of a B tile's bytes (R353). -/
def bElem (f : Nat) (sp : Bool) (bs : List Byte) (k n : Nat) : FVal :=
  let ne := tileElems f sp
  let sc := (bs.getD (ne + n) 0).toNat
  let value (x : Nat) : FVal :=
    if f = 4 then mxVal x sc else if f = 5 then intVal (sext 8 x) else if f = 6 then intVal (sext 4 x)
    else fdecode ([7, 6, 8, 9, 14, 12, 12, 5].getD f 7) x false
  let zero : FVal := if f = 4 then mxVal 0 sc else .fin false 0 0 false
  if sp then
    let nib := nibbleAt (bs.drop (ne + if f = 4 then 32 else 0)) (32 * (k / 4) + n)
    let r := if k % 4 = nib % 4 then some (2 * (k / 4)) else if k % 4 = nib / 4 then some (2 * (k / 4) + 1) else none
    match r with
    | none => zero
    | some r => value (if nibbleFmt f then nibbleAt (bs.drop (8 * n)) r else elemAt bs (tileEsize f) (32 * r + n))
  else value (if nibbleFmt f then nibbleAt (bs.drop (16 * n)) k else elemAt bs (tileEsize f) (32 * k + n))

/-- Whether every granule of a B tile carries the loop's WFMT and SP, with the tile's first granule as origin (R354). -/
def State.tagsOk (s : State) (b : Block) (c : Cmd) (o : Nat) : Bool :=
  let f := mlWfmt (mlFmt c.w)
  let want := (f * 2 + (if mlSp c.w then 1 else 0), o)
  (List.range (tileSize f (mlSp c.w) / 32)).all fun i => NMap.find? (s.core b.island b.core).wtags ((b.wbBase + o) / 32 + i) == some want

/-- The destination tile of a loop's next K-step (R358). -/
def Cmd.dest (c : Cmd) : Nat := mlAcc c.w + (c.m * mlNo c.w + c.n) * if mlFmt c.w = 11 then 2 else 1

/-- Applies one K-step: every element of the tile is rounded once (R66, R358). -/
def State.kStep (s : State) (wid : Nat) (c : Cmd) : State :=
  let w := s.warp wid
  let b := s.block w.block
  let f64 := mlFmt c.w == 11
  let f := mlWfmt (mlFmt c.w)
  let bo := (mlBofs c.sv c.k c.n).toNat
  let bs := Memory.readN s.mem (wbufByte b bo) (tileSize f (mlSp c.w))
  let cols := (List.range 32).map fun n => (List.range 32).map fun k => bElem f (mlSp c.w) bs k n
  (List.range 32).foldl (fun s' i =>
    let row := if mlBypen c.w then s.bypRow b w c i else s.aRow b c i
    (cols.zipIdx).foldl (fun s' col =>
      let old := if mlZero c.w && c.k == 0 then FVal.fin false 0 0 false
        else fdecode (if f64 then 5 else 4) (s.tileElem b w f64 c.dest i col.2) false
      let prods := List.zipWith (fun x y => (fmul x y).1) row col.1
      s'.setTileElem b w f64 c.dest i col.2 (fround (exactSum (old :: prods) 0).1 (if f64 then 5 else 4) 0 false false 0).1) s') s

/-- A K-step has ended: the next one's counters. -/
def Cmd.nextStep (c : Cmd) : Cmd :=
  let c := { c with begun := false }
  if c.k + 1 < c.steps then { c with k := c.k + 1 }
  else if c.n + 1 < mlNo c.w then { c with k := 0, n := c.n + 1 }
  else { c with k := 0, n := 0, m := c.m + 1 }

/-- Core clocks in which a K-step may start or a pipe may issue: multiples of 2^GATE (R411). -/
def State.gateOpen (s : State) (island : Nat) : Bool := s.clk % 2 ^ bits (s.reg .pwrIsl island) 45 43 == 0

/-- The running loop of a warp, while a K-step is left. -/
def Warp.loop (w : Warp) : Option Cmd := w.mq.find? fun c => c.running && c.isLoop && decide (c.stepsDone < c.allSteps)

/-- Core clock by which a loop's next K-step ends. -/
def Cmd.stepDue (c : Cmd) : Nat := c.doneAt - mlClocks (mlFmt c.w) * (c.allSteps - c.stepsDone - 1)

/-- Core clock from which a loop's next K-step may begin. -/
def Cmd.stepFrom (c : Cmd) : Nat := c.doneAt - mlClocks (mlFmt c.w) * (c.allSteps - c.stepsDone)

/-- Begins, at the end of a core clock, the next K-step of every loop whose time has come: not in HOLD, a halt or a budget stop (R349), in
a clock that the island's gating leaves (R411), and after the events before the command (R86). The loop ends the later by what it has
waited. -/
def State.beginSteps (s : State) : State :=
  s.warps.foldl (fun s p =>
    match p.2.loop with
    | none => s
    | some c =>
      if c.begun || s.clk < c.stepFrom || !s.engineOk p.1 || !s.gateOpen (s.block p.2.block).island ||
          c.after.any (fun k => s.msgs.any fun m => m.id == k) then s
      else s.modWarp p.1 fun w => w.modCmd c.id fun c =>
        { c with begun := true, doneAt := max c.doneAt (s.clk + mlClocks (mlFmt c.w) * (c.allSteps - c.stepsDone)) }) s

/-- `MATRIX_K_STEP` (R358, R360): a K-step that has begun ends. -/
def execMatrixKStep (warp : Nat) (s : State) : Out :=
  let b := s.block (s.warp warp).block
  match (s.warp warp).loop with
  | none => .next s
  | some c =>
    if !c.begun || s.clk < c.stepDue then .next s
    else
      let o := (mlBofs c.sv c.k c.n).toNat
      if s.tagsOk b c o then
        let s := (s.kStep warp c).coreCount b.island b.core 0x0A 1
        .next (s.modWarp warp fun w => w.modCmd c.id Cmd.nextStep)
      else
        let s := if mlZero c.w && c.k = 0 then
            (if mlFmt c.w = 11 then [c.dest, c.dest + 1] else [c.dest]).foldl (fun s t =>
              s.clearMem (tileAddr b (s.warp warp) t 0 0) 4096) s
          else s
        .next (s.engineStop warp c 0x42 0 0)

/-! ### Fills, overlays, re-arming (R120, R361 to R363) -/

/-- Byte of a local offset of a fill: berm or scratchpad (R361). -/
def State.fillByte (s : State) (b : Block) (berm : Bool) (o : Nat) : Nat :=
  if berm then bermAddr b.island ((s.grid b.grid).bermBase + o) else scrAddr b.island b.core (b.scrBase + o)

/-- Writes local bytes; watchers of the words see it (R43). -/
def State.localWrite (s : State) (a : Nat) (bs : List Byte) : State :=
  { s with mem := Memory.writeN s.mem a bs }.touch (wordsOf a bs.length)

/-- Moves a command's byte progress on. -/
def State.progress (s : State) (wid : Nat) (c : Cmd) (n : Nat) : State :=
  s.modWarp wid fun w => w.modCmd c.id fun c => { c with bytes := c.bytes + n }

/-- Element i of a fill's global source, as reads of (VA, bytes): a plain element, or the 16 element bytes and the scale of an MXFP4 block
(R120, R361). -/
def fillReads (c : Cmd) (i : Nat) : List (Nat × Nat) :=
  let j := c.sv.getD 0 0 + i
  if fillDq c.w then ((List.range 16).map fun k => (recVA c.brec.toNat ((16 * j + k : Nat) : Int), 1)) ++ [(recVA c.brec2.toNat (j : Nat), 1)]
  else [(recVA c.brec.toNat (j : Nat), recEsize c.brec.toNat)]

/-- What `n` elements of a fill write: their bytes unchanged, or the BF16 values of each block (R53, R120). -/
def fillBytes (dq : Bool) (n : Nat) (bs : List Byte) : List Byte :=
  if dq then (List.range n).flatMap fun b =>
    let x := bs.drop (17 * b)
    (List.range 32).flatMap fun i => bytesOf 2 (fround (mxVal (nibbleAt x i) (x.getD 16 0).toNat) 7 0 false false 0).1
  else bs

/-- One 256-byte region of a fill's destination (R349). Each element is read once: the rest of one that the region's end cuts is kept for
the next region. -/
def State.xfillUnit (s : State) (wid : Nat) (c : Cmd) : State :=
  let b := s.block (s.warp wid).block
  let m := fillMode c.w
  let src := c.sv.getD 0 0
  let dst := c.sv.getD 1 0
  let n := if fillDq c.w then 64 * c.sv.getD 2 0 else c.sv.getD 2 0
  if c.bytes = n then s.finishCmd wid c
  else
    let k := min (256 - (dst + c.bytes) % 256) (n - c.bytes)
    if m ≤ 1 then
      let e := if fillDq c.w then 64 else recEsize c.brec.toNat
      let first := (c.bytes + e - 1) / e
      let count := (c.bytes + k + e - 1) / e - first
      let reads := (List.range count).flatMap fun i => fillReads c (first + i)
      engineStep wid c false (s.engAccess (s.warpSite wid) .read reads) fun s ps =>
        let out := c.stage ++ fillBytes (fillDq c.w) count (s.engBytes ps)
        ((s.localWrite (s.fillByte b (m == 1) (dst + c.bytes)) (out.take k)).progress wid c k).modWarp wid fun w =>
          w.modCmd c.id fun c => { c with stage := out.drop k }
    else
      let bs := Memory.readN s.mem (s.fillByte b (m == 2) (src + c.bytes)) k
      (s.localWrite (s.fillByte b (m == 3) (dst + c.bytes)) bs).progress wid c k

/-- One 256-byte region of `ovld`; after the last word the slot's tag names the overlay (R362). -/
def State.ovldUnit (s : State) (wid : Nat) (c : Cmd) : State :=
  let b := s.block (s.warp wid).block
  let slot := bits c.w.ext.toNat 1 0
  let va := vaOf (c.sv.getD 0 0)
  let n := 8 * c.sv.getD 1 0
  if c.bytes = n then
    let g := s.grid b.grid
    let s := s.modCore b.island b.core fun x =>
      { x with tags := NMap.set x.tags slot ⟨g.image, bits c.w.imm64.toNat 15 0, va, g.asid⟩ }
    s.finishCmd wid c
  else
    let k := min 256 (n - c.bytes)
    let at' := (va + c.bytes) % 2 ^ 48
    engineStep wid c false (s.engAccess (s.warpSite wid) .exec (cutAt 256 at' k 3)) fun s ps =>
      ({ s with mem := Memory.writeN s.mem (slotAddr b.island b.core slot 0 + c.bytes) (s.engBytes ps) }).progress wid c k

/-- Clears the written bits of one 256-byte region; L1 copies of its words are dropped (R84, R138, R363). -/
def State.onceinitUnit (s : State) (wid : Nat) (c : Cmd) : State :=
  let site := s.warpSite wid
  let va := vaOf (c.sv.getD 0 0)
  let n := c.sv.getD 1 0
  if c.bytes = n then s.finishCmd wid c
  else
    let at' := (va + c.bytes) % 2 ^ 48
    let k := min (256 - at' % 256) (n - c.bytes)
    match s.oncePages site [(at', k)] with
    | .ok s _ =>
      match s.translate site.island site.core site.asid at' with
      | (.leaf e z, s) =>
        let ws := wordsOf (hbmAddr site.island (leafPA e z at')) k
        let s := (s.setWritten (ws.headD 0) ws.length false)
        let s := { s with
          spans := (s.spans.map fun (r : SpanRec) => if r.island == site.island && r.st == SpanState.ow then r.without ws else r).filter
            fun (r : SpanRec) => !r.words.isEmpty
          msgs := s.msgs.map fun (m : Msg) => if m.kind == MsgKind.data && m.island == site.island && m.ptype == 2 && overlaps m.words ws then { m with keep := m.keep.filter fun w => !ws.contains w } else m }
        ((s.touch ws).progress wid c k)
      | (.absent _, s) => s
    | r => engineStep wid c true r fun s _ => s

/-! ### Transfers at the source (R365, R366) -/

/-- Bytes of the next packet: cut at 256-byte boundaries of ROFS. -/
def Cmd.chunk (c : Cmd) : Nat := min (256 - (xferRofs c.sv + c.bytes) % 256) (c.length - c.bytes)

/-- A packet of a transfer, its payload apart. -/
def State.xferPacket (s : State) (wid : Nat) (c : Cmd) (id : Nat) (kind : PacketKind) : Packet :=
  let w := s.warp wid
  let b := s.block w.block
  let g := s.grid b.grid
  let tc := c.targetCounter
  { Packet.blank id kind b.island with
    route := bits c.rankEntry 39 8, grid := b.grid, warp := wid, gen := w.gen.toNat, cmd := c.id, job := recJob g.record
    rank := c.sv.getD 0 0 % 65536, win := xferWin c.sv, ofs := xferRofs c.sv + c.bytes, len := c.chunk
    tcen := tc.isSome, tcwin := (tc.getD (0, 0)).1, tcofs := (tc.getD (0, 0)).2
    scen := c.sourceCounter.isSome, scva := c.sourceCounter.getD 0, asid := g.asid, part := g.part }

/-- Counts a packet on its way. -/
def State.sent (s : State) (wid : Nat) (c : Cmd) (n : Nat) : State :=
  s.modWarp wid fun w => w.modCmd c.id fun c => { c with bytes := c.bytes + n, inFlight := c.inFlight + 1 }

/-- One packet of `put`, `get` or `ratom`; the command ends when every packet has been answered. -/
def State.xferUnit (s : State) (wid : Nat) (c : Cmd) : State :=
  if c.bytes = c.length then (if c.inFlight = 0 then s.modWarp wid fun w => w.dropCmd c.id else s)
  else
    let (id, s) := s.newId
    let k := c.chunk
    if c.op = 0xE0 then
      let va := (recVA c.brec.toNat ((c.sv.getD 2 0 : Nat) : Int) + c.bytes) % 2 ^ 48
      engineStep wid c false (s.engAccess (s.warpSite wid) .read (cutAt 256 va k 3)) fun s ps =>
        (s.addPacket { s.xferPacket wid c id .putData with payload := s.engBytes ps }).sent wid c k
    else if c.op = 0xE1 then (s.addPacket (s.xferPacket wid c id .getRequest)).sent wid c k
    else
      let e := c.w.ext.toNat
      let ty := bits e 13 10
      let mask := 2 ^ (8 * ratomSize c.w)
      let op : AtomOp := ⟨c.lane, 0, bits e 9 7, ty, c.n, c.seed, c.sv.getD 2 0 % mask, c.sv.getD 3 0 % mask⟩
      (s.addPacket { s.xferPacket wid c id .ratomReq with op := op, ret := bit e 6, res := bits e 5 0 }).sent wid c k

/-! ### Device-side launch (R190, R371) -/

/-- The number of a grid that a kernel of the island launches, from the island's reserve, which the Lock-keeper fills again with the next
of the sequence (R180; log 105). -/
def State.drawGid (s : State) (island : Nat) : Nat × State :=
  let (gid, s) := match NMap.find? s.gidReserve island with
    | some k => (k, { s with gidReserve := NMap.erase s.gidReserve island })
    | none => (s.nextGid, { s with lastGid := s.nextGid })
  let next := { s with gidReserve := NMap.set s.gidReserve island gid }.nextGid
  (gid, { s with gidReserve := NMap.set s.gidReserve island next, lastGid := next })

/-- The launch itself: dword 15 of the scratchpad record takes the answer. Its place in the table is kept from its start on (R190); it
waits while the berm share is full (log 30). -/
def State.deviceLaunch (s : State) (wid : Nat) (c : Cmd) : State :=
  let b := s.block (s.warp wid).block
  let g := s.grid b.grid
  let a := scrAddr b.island b.core (b.scrBase + c.sv.getD 0 0)
  let r := s.recordAt a
  let cause := s.deviceCause g r
  let done (s : State) : State := s.modWarp wid fun w => w.modCmd c.id fun c => { c with n := 1 }
  let answer (s : State) (v : Nat) : State := (s.writeMem (a + 120) 8 v).touch (wordsOf (a + 120) 8)
  if cause != 0 then done (answer s (2 + cause * 2 ^ 8))
  else if s.bermFree g.part b.island < recBerm r then s
  else
    let (gid, s) := s.drawGid b.island
    let s := s.setGrid gid (s.newGrid r b.island g.prio true)
    done (answer (s.enterTable gid) (1 + gid * 2 ^ 16))

/-- The report of a launch, then its counter. -/
def State.launchUnit (s : State) (wid : Nat) (c : Cmd) : State :=
  if c.n = 0 then s.deviceLaunch wid c
  else match c.sourceCounter with
    | some va => engineStep wid c true (s.ctrUpdate (s.warpSite wid) va (ctrAdd 128)) fun s _ => s.modWarp wid fun w => w.dropCmd c.id
    | none => s.modWarp wid fun w => w.dropCmd c.id

/-! ### The event -/

/-- Whether a running command may take its next unit, or go on with the one it is in (R349): events before it are performed (R86), and it
does not wait at a line. -/
def State.unitReady (s : State) (wid : Nat) (c : Cmd) : Bool :=
  let w := s.warp wid
  c.running && (s.engineOk wid || (c.midUnit && !(s.block w.block).saved && !w.replaysFirst)) && c.lineFault == none && c.after.all (fun k => !s.msgs.any fun m => m.id == k) &&
    (if c.isLoop then c.stepsDone == c.allSteps && decide (c.doneAt ≤ s.clk) else decide (c.doneAt ≤ s.clk))

/-- `ENGINE_COMMAND_END`: the next unit of a running command, the completion last (R347 to R349; log 31). -/
def execEngineCommandEnd (id : Nat) (s : State) : Out :=
  match s.cmdOf id with
  | none => .next s
  | some (wid, c) =>
    if !s.unitReady wid c then .next s
    else
      let b := s.block (s.warp wid).block
      .next (match c.op with
        | 0xD0 => s.wbloadUnit wid c
        | 0xD6 => s.wbzeroUnit wid c
        | 0xD1 | 0xD2 => s.finishCmd wid c fun s => s.gaugeSee b.island 0x06 b.core (some (s.grid b.grid).part) c.allSteps
        | 0xE8 => s.xfillUnit wid c
        | 0xE9 => s.ovldUnit wid c
        | 0xEA => s.onceinitUnit wid c
        | 0xEB => s.launchUnit wid c
        | _ => s.xferUnit wid c)

/-- `ENGINE_LINE_RETRY` (R377): a command waiting at a faulting line, to which a trigger has come, tries it again, once its record is
posted (R379). -/
def execEngineLineRetry (id : Nat) (s : State) : Out :=
  match s.cmdOf id with
  | none => .next s
  | some (wid, c) => .next (if s.warpUnposted wid then s else match c.lineFault with
      | some (_, 0) => s.modWarp wid fun w => w.modCmd id fun c => { c with lineFault := none }
      | _ => s)

end Sys2Proof.Machine
end

