-- ==== Sys2Proof/Machine/Faults.lean ====
section
/-!
DEFINITION. Fault records and their ring (R379), the triggers of a replay (R377), TRANSIT time-outs (R157), and the save and restore of a
block (R382 to R387).
-/
namespace Sys2Proof.Machine

/-! ### The record ring (R379) -/

/-- ISL_FQSTAT as the host reads it: PEND and FULL beside the stored LOST. -/
def State.fqStat (s : State) (island : Nat) : Nat :=
  setBits (setBits (s.reg .islFqstat island) 6 0 (s.isl island).onchip.length) 7 7 (if s.fqFull island then 1 else 0)

/-- Bytes of a record. -/
def recordBytes (r : List Word) : List Byte := r.flatMap fun w => bytesOf 8 w.toNat

/-- Records that wait for a place on chip are posted as far as there are places (R379). -/
def Island.postWaiting (x : Island) : Island :=
  let n := 64 - x.onchip.length
  (x.waitPost.take n).foldl Island.posted { x with waitPost := x.waitPost.drop n }

/-- `FAULT_RECORD_POST` (R379): the oldest record on chip is written at TAIL, then TAIL advances; a record that waited is posted in the
place freed. TAIL counts modulo the ring's size, also where a smaller ring has been set since. -/
def execFaultRecordPost (island : Nat) (s : State) : Out :=
  let x := s.isl island
  match x.onchip with
  | [] => .next s
  | r :: rest =>
    if s.fqFull island then .next s
    else
      let t := s.reg .islFqtail island % s.fqSize island
      let a := lpddrAddr (bits (s.reg .islFqbase island) 47 6 * 64 + 64 * t)
      let s := { s with mem := Memory.writeN s.mem a (recordBytes r) }
      let s := s.setReg .islFqtail island ((t + 1) % s.fqSize island)
      let s := s.setIsl island { x with onchip := rest }.postWaiting
      .next (s.gaugeSee island 0x01 (recBits r 0 23 16) (some (recBits r 0 54 48)) (recBits r 0 7 0 + recBits r 0 28 24 * 2 ^ 8))

/-- `ISL_FQHEAD` (R379). -/
def execIslFqheadWrite (island value : Nat) (s : State) : Out := .next (s.setReg .islFqhead island (bits value 15 0))

/-- `ISL_FQBASE` (R379): ignored while HEAD ≠ TAIL. -/
def execIslFqbaseWrite (island value : Nat) (s : State) : Out :=
  .next (if s.reg .islFqhead island = s.reg .islFqtail island then s.setReg .islFqbase island (bits value 51 6 * 2 ^ 6) else s)

/-! ### Replays (R377) -/

/-- `ACCESS_REPLAY` (R377): an entry to which a trigger has come is replayed, unless its warp is stopped, halting or saved, or a record of
the warp still waits to be posted (R379); the entries of a warp in their order. -/
def execAccessReplay (warp entry : Nat) (s : State) : Out :=
  let w := s.warp warp
  let b := s.block w.block
  .next (if (w.log.any fun e => e.num == entry && e.replay) && !w.stopped && !b.halting && !b.saved &&
      !s.warpUnposted warp && !(w.log.any fun e => e.replay && e.num < entry) then s.replayAny warp entry else s)

/-- Whether a packet held at a node waits for an address space (R381). -/
def State.packetAsid (s : State) (node : Nat) (p : Packet) (asid : Nat) : Bool :=
  winAsid (s.window p.job node p.win) == asid || (p.tcen && winAsid (s.window p.job node p.tcwin) == asid)

/-- Whether some lane of a log entry has its replay still to make: not all are lanes whose load is on its way. -/
def LogEntry.waits (e : LogEntry) : Bool := e.parkedLanes && e.lanes.any fun l => !e.going.contains l

/-- A trigger of R377 on an island, for one address space or for all: parked entries, commands at a faulting line and held packets
try again. -/
def State.trigger (s : State) (island : Nat) (asid : Option Nat) : State :=
  let on (wid : Nat) : Bool := (s.block (s.warp wid).block).island == island && (asid.isNone || asid == some (s.warpAsid wid))
  let again (c : Cmd) : Cmd := { c with lineFault := c.lineFault.map fun x => (x.1, 0) }
  { s with
    warps := s.warps.map fun (p : Nat × Warp) =>
      if on p.1 then (p.1, { p.2 with
        log := p.2.log.map fun e => if e.waits then { e with replay := true } else e
        mq := p.2.mq.map again, xq := p.2.xq.map again, fq := p.2.fq.map again })
      else p
    packets := s.packets.map fun (p : Packet) =>
      if p.place = .stored island && (asid.isNone || asid.any fun a => s.packetAsid island p a) then { p with place := .atTarget island }
      else p }

/-- `REPLAY_ASID`: ISL_REPLAY with GO (R379). -/
def execReplayAsid (island asid : Nat) (s : State) : Out :=
  .next (((s.setReg .islReplay island (asid % 4096)).command .islReplay island 12).trigger island (some (asid % 4096)))

/-- `REPLAY_ALL`: ISL_REPLAY with ALL (R379). -/
def execReplayAll (island : Nat) (s : State) : Out := .next ((s.command .islReplay island 13).trigger island none)

/-! ### TRANSIT (R157) -/

/-- Lanes that a log entry parks: none for `sldg` (R375). -/
def LogEntry.parks (e : LogEntry) : List Nat := if (e.words.getD 0 0).toNat / 2 ^ 56 = 0xAF then [] else e.lanes

/-- An entry with another of the same instruction joined to it: its lanes and their operands besides. -/
def LogEntry.join (e x : LogEntry) : LogEntry :=
  { e with
    lanes := e.lanes ++ x.lanes.filter fun l => !e.lanes.contains l
    ops := e.ops ++ x.ops.filter fun o => !e.ops.any fun p => p.1 == o.1 && p.2.1 == o.2.1 }

/-- Puts what a stall held into the log: into its instruction's entry, where that stands there, else as an entry of its own (R375). -/
def Warp.logStall (w : Warp) (x : LogEntry) (f : LogEntry → LogEntry) : Warp :=
  if w.log.any fun e => e.num == x.num then { w with log := w.log.map fun e => if e.num = x.num then f (e.join x) else e }
  else { w with log := w.log ++ [f x] }

/-- Takes a stall away; what it held waits in the log for its replay. -/
def State.unstall (s : State) (x : Stall) : State :=
  let s := { s with stalls := s.stalls.filter fun y => y.id != x.id }
  if (s.cmdOf x.id).isSome then s
  else s.modWarp x.warp fun w => w.logStall x.entry fun e => { e with replay := true }

/-- Helper lanes of a stalled access: they raise no fault (R31). -/
def Stall.helpers (x : Stall) : List Nat := x.entry.lanes.filter fun l => x.entry.operand l 4 == 1

/-- Addresses at which the lanes of a stalled access wait. -/
def Stall.vas (x : Stall) : List Nat :=
  match x.entry.access x.warp with
  | some a => (a.lanes.filter fun l => !l.helper).map a.va
  | none => [x.va]

/-- The lowest line that a stalled access faults at, and whether it writes. -/
def Stall.line (x : Stall) : Nat × Bool :=
  ((x.vas.map fun v => v / 256 * 256).foldl min (x.vas.headD x.va / 256 * 256), x.write)

/-- Gives the helper lanes of a stalled load zero, as where it would fault (R31), and takes them out of its entry. -/
def State.zeroHelpers (s : State) (x : Stall) : State :=
  match x.entry.access x.warp with
  | none => s
  | some a =>
    let s := if a.returns then s.lateWrite x.warp (x.helpers.flatMap fun l => valueRegs l a.dst a.n 0) [] else s
    s.modWarp x.warp fun w => (w.endReplay x.entry.num x.helpers).modThreads x.helpers fun t =>
      { t with hold := t.hold.filter fun k => k != x.entry.num }

/-- `TRANSIT_TIMEOUT` (R157): after 65,536 ns the lanes park, or the command waits at its line, with class 0x16; helper lanes receive zero
(R31). -/
def execTransitTimeout (id : Nat) (s : State) : Out :=
  match s.stalls.find? fun x => x.id == id with
  | none => .next s
  | some x =>
    let w := s.warp x.warp
    let b := s.block w.block
    if s.itime b.island < x.since + 65536 then .next s
    else match s.cmdOf id with
      | some (wid, c) => .next (s.engineLine wid c 0x16 x.va x.write)
      | none =>
        let s := { s with stalls := s.stalls.filter fun y => y.id != id }.zeroHelpers x
        let e := { x.entry with lanes := x.entry.lanes.filter fun l => !x.helpers.contains l }
        if e.lanes.isEmpty then .next s
        else
          let info := x.line.1 + s.warpAsid x.warp * 2 ^ 48 + if x.line.2 then 2 ^ 60 else 0
          let s := s.post b.island (warpRecord s w 0x16 1 (laneMask e.parks) e.pc e.ovl info 0 0)
          .next (s.modWarp x.warp fun w =>
            (w.modThreads e.parks fun t => { t with st := .parked }).logStall e fun y => { y with parkedLanes := true })

/-! ### Halt and save (R382 to R385) -/

/-- Cells of a range, counted from its start. -/
def cellsIn (m : List Host.Cell) (a n : Nat) : List Host.Cell :=
  (m.filter fun c => a ≤ c.1 && c.1 < a + n).map fun c => (c.1 - a, c.2)

/-- Puts saved cells back over a range. -/
def State.putCells (s : State) (a n : Nat) (cs : List Host.Cell) : State :=
  { s with mem := Memory.writeCells (Memory.clear s.mem a n) (cs.map fun c => (c.1 + a, c.2)) }

/-- LIVE of the block where a thread of a core stands: at a header, the block that the header begins (R94, R240). -/
def State.threadLive (s : State) (island core : Nat) (t : Thread) : Nat :=
  let h := s.slotWord island core t.pc.slot t.pc.ofs
  if t.blockEnd ≤ t.pc.ofs && isHeader h false then bits h 45 35 else t.live

/-- The register bound of a warp (R94): the largest LIVE of the blocks where its threads stand. -/
def State.bound (s : State) (w : Warp) : Nat :=
  let b := s.block w.block
  (w.threads.map fun t => if t.st.live then s.threadLive b.island b.core t else 0).foldl max 0

/-- The registers a save keeps (R94): above the bound `top` they come back full, dead and poisoned. -/
def Warp.cutRegs (w : Warp) (top : Nat) : Warp :=
  { w with v := (w.v.filter fun e => e.1 / 32 ≤ top) ++
      ((List.range (64 * w.gran - (top + 1))).flatMap fun k => (List.range w.threads.length).map fun l =>
        (32 * (top + 1 + k) + l, (⟨0xFFC00001#32, true, true⟩ : VReg))) }

/-- A warp as saved: a fresh spin detector, its commands at their progress, its entries as they are (R385). -/
def Warp.saved (w : Warp) (top : Nat) : Warp :=
  { w.cutRegs top with
    spinPc := none, spinCount := 0, watch := [], floor := false, passed := [], waited := 0, owed := none
    mq := w.mq.map fun c => { c with headAt := none, running := c.running && !c.isLoop, begun := false }
    xq := w.xq.map fun c => { c with headAt := none, running := c.running && !(c.op == 0xEB && c.n == 0) }
    fq := w.fq.map fun c => { c with headAt := none } }

/-- Writes, stores and RMWs of a warp still on their way, those of `ratom` included (R382 step 3; log 27). -/
def State.writesOut (s : State) (wid : Nat) : Bool :=
  s.msgs.any (fun m => m.isEvent && m.warp == wid && (!m.ops.isEmpty || m.kind == .mirror || m.kind == .wack || m.kind == .aack)) ||
    s.stalls.any (fun x => x.warp == wid && (s.cmdOf x.id).isNone) ||
    s.packets.any fun p => p.warp == wid && (p.kind == .ratomReq || p.kind == .ratomResult)

/-- What a stopped warp completes before its halt (R378 step 2). -/
def State.stoppedWork (s : State) (wid : Nat) : Bool :=
  let w := s.warp wid
  w.stopped && (s.pend.any (fun p => p.warp == wid && p.gen == w.gen.toNat) ||
    (w.mq ++ w.xq ++ w.fq).any fun c => c.running && c.lineFault == none)

/-- Step 4 for one warp (R382, R383): GEN rises; atomics have returned; what else is outstanding becomes request packets, but for a replay of
an entry that the log still holds: the entry stands for it. -/
def State.packets4 (s : State) (wid : Nat) : State :=
  let mine := s.pend.filter fun p => p.warp == wid && p.gen == (s.warp wid).gen.toNat
  let s := (mine.filter fun p => p.kind == .atomic || p.kind == .ldrec).foldl (fun s p => s.finish p) s
  let rest := mine.filter fun p => p.kind != .atomic && p.kind != .ldrec && !(p.kind == .load && p.lanes.isEmpty && p.writes.isEmpty) &&
    !(p.entry.any fun k => (s.warp wid).log.any fun e => e.num == k)
  let ids := mine.map fun p => p.id
  let s := { s with
    pend := s.pend.filter fun p => !ids.contains p.id
    stalls := s.stalls.filter fun x => x.warp != wid
    waits := s.waits.filter fun x => x.warp != wid }
  s.modWarp wid fun w =>
    { w with
      gen := w.gen + 1
      log := (w.log.map fun e => { e with going := [] }) ++ (requestPackets rest []).map fun e => { e with gen := w.gen.toNat } }

/-- A running command of a warp has not yet come to its fixed point (R349, R382 step 2); one that waits at a faulting line stands. -/
def Warp.midUnit (w : Warp) : Bool := (w.mq ++ w.xq ++ w.fq).any fun c => c.midUnit && c.lineFault == none

/-- Step 6 and 7 for one block (R382, R385): its context is kept beside it, and the core is free of it. -/
def State.saveBlock (s : State) (bid : Nat) : State :=
  let b := s.block bid
  let core := s.core b.island b.core
  let acc := (b.warps.zipIdx).flatMap fun x => ((s.warp x.1).acc.zipIdx).flatMap fun t =>
    (cellsIn s.mem (accAddr b.island b.core t.1 0 0) 4096).map fun c => ((x.2 * 16 + t.2) * 4096 + c.1, c.2)
  let lo := b.wbBase / 32
  let b' := { b with
    saved := true, halting := false, haltStep := 0
    savedMem := cellsIn s.mem (scrAddr b.island b.core b.scrBase) b.footprint ++
      (cellsIn s.mem (wbufAddr b.island b.core b.wbBase) b.wbSize).map fun c => (c.1 + 2 ^ 30, c.2)
    savedAcc := acc
    savedTags := (core.wtags.filter fun e => lo ≤ e.1 && e.1 < lo + b.wbSize / 32).map fun e => (e.1 - lo, e.2)
    savedSlots := b.slots.map fun k => (k, NMap.find? core.tags k, cellsIn s.mem (slotAddr b.island b.core k 0) 65536) }
  let s := b.warps.foldl (fun s w => s.modWarp w fun x => x.saved (s.bound x)) s
  let s := s.setBlock bid b'
  s.modGrid b.grid fun g =>
    { g with
      waitingSince := some (g.waitingSince.getD (s.itime b.island))
      clusters := if s.allSaved b.grid then [] else g.clusters }

/-- A grid whose blocks are discarded, not saved (R378, R185). -/
def Grid.discards (g : Grid) : Bool := g.endCode != 0 && g.endCode != 3

/-- `BLOCK_HALT` (R382): the next steps of the halt of a block and its cluster group; in HOLD it waits (R171). -/
def execBlockHalt (block : Nat) (s : State) : Out :=
  let b := s.block block
  if !b.halting || b.saved || (s.isl b.island).inHold || (s.grid b.grid).discards then .next s
  else
    let group := s.groupOf b
    let s := group.foldl (fun s p => s.modBlock p.1 fun x => { x with halting := true }) s
    let wids := group.flatMap fun p => p.2.warps
    if b.haltStep = 0 then
      if wids.any fun w => s.writesOut w || s.stoppedWork w || (s.warp w).midUnit then .next s
      else
        let s := wids.foldl State.packets4 s
        let s := group.foldl (fun s p => (s.modBlock p.1 fun x => { x with haltStep := 1 }).flushBlock p.1) s
        .next s
    else if group.any fun p => s.draining p.1 then .next s
    else .next (group.foldl (fun s p => s.saveBlock p.1) s)

/-! ### Restore (R386, R387) -/

/-- Whether a saved slot can be had on a core: free, or holding the saved tag with identical words, as the core stands or as blocks that the
same restore puts on the core before (`placed`) leave it (R386). -/
def State.slotFits (s : State) (island core : Nat) (placed : List (Nat × Block)) (x : Nat × Option SlotTag × List Host.Cell) : Bool :=
  match (placed.flatMap fun p => if p.1 = core then p.2.savedSlots else []).find? fun y => y.1 == x.1 with
  | some y => y == x
  | none => !(s.slotsHeld island core).contains x.1 ||
      (NMap.find? (s.core island core).tags x.1 == x.2.1 && cellsIn s.mem (slotAddr island core x.1 0) 65536 == x.2.2)

/-- Room on a core for a saved block beside what is taken: the width, and what its live warps and its windows need. -/
def State.savedFits (s : State) (b : Block) (core : Nat) (t : Taken) (placed : List (Nat × Block)) : Bool :=
  let live := (b.warps.map s.warp).filter fun w => !w.retired
  let n := if b.retired then 0 else b.warps.length
  warpwOf (s.coreCode b.island core) == b.warpw && t.blocks < 64 && decide (t.warps + n ≤ 64) &&
    decide (t.gran + sum (live.map fun w => w.gran) ≤ 64) && decide (t.bytes + b.bytesHeld ≤ 262144) &&
    decide (t.tiles + sum (live.map fun w => w.acc.length) ≤ 16) && b.savedSlots.all fun x => s.slotFits b.island core placed x

/-- Cores for saved blocks in turn, as (block, core), beside those that `placed` names. -/
def State.fitSaved (s : State) (cores : List Nat) : List (Nat × Block) → NMap Taken → List (Nat × Block) → Option (List (Nat × Nat))
  | [], _, _ => some []
  | (bid, b) :: rest, ts, placed =>
    let at' (c : Nat) : Taken := (NMap.find? ts c).getD (s.taken b.island c)
    match bestCore ((cores.filter fun c => s.savedFits b c (at' c) placed).map fun c => (c, (at' c).warps, (0, false))) with
    | none => none
    | some (c, _) =>
      let t := at' c
      let live := (b.warps.map s.warp).filter fun w => !w.retired
      let t' : Taken := ⟨t.blocks + 1, t.warps + (if b.retired then 0 else b.warps.length), t.gran + sum (live.map fun w => w.gran),
        t.bytes + b.bytesHeld, t.tiles + sum (live.map fun w => w.acc.length), t.slots ++ b.slots, []⟩
      (s.fitSaved cores rest (NMap.set ts c t') ((c, b) :: placed)).map fun l => (bid, c) :: l

/-- Puts a saved block on a core (R386): windows, registers and bits first; its entries are marked for replay. Its threads must not read
older values there than they have read elsewhere (R82, R91), so the core drops its REL words. -/
def State.restoreBlock (s : State) (bid core : Nat) : State :=
  let b := s.block bid
  let island := b.island
  let s := s.dropRel island core
  let here := s.onCore island core
  let base := firstFit (here.map fun x => (x.scrBase, x.footprint)) b.footprint
  let wb := firstFit (here.map fun x => (x.wbBase, x.wbSize)) b.wbSize
  let held := s.slotsHeld island core
  let s := b.savedSlots.foldl (fun s x =>
    if held.contains x.1 then s
    else (s.putCells (slotAddr island core x.1 0) 65536 x.2.2).modCore island core fun c =>
      { c with tags := match x.2.1 with | some t => NMap.set c.tags x.1 t | none => NMap.erase c.tags x.1 }) s
  let s := s.putCells (scrAddr island core base) b.footprint (b.savedMem.filter fun c => c.1 < 2 ^ 30)
  let s := s.putCells (wbufAddr island core wb) b.wbSize ((b.savedMem.filter fun c => 2 ^ 30 ≤ c.1).map fun c => (c.1 - 2 ^ 30, c.2))
  let s := s.modCore island core fun c =>
    let kept := c.wtags.filter fun e => !(wb / 32 ≤ e.1 && e.1 < (wb + b.wbSize) / 32)
    { c with wtags := b.savedTags.foldl (fun t e => NMap.set t (e.1 + wb / 32) e.2) kept }
  let live := (b.warps.zipIdx).filter fun x => !(s.warp x.1).retired
  let free := (List.range 16).filter fun t => !(s.tilesTaken island core).contains t
  let pipes := s.pipesFor island core live.length []
  let again (c : Cmd) : Cmd := { c with lineFault := c.lineFault.map fun y => (y.1, 0) }
  let s := (live.zipIdx).foldl (fun s (x : (Nat × Nat) × Nat) =>
    let w := s.warp x.1.1
    let tiles := (free.drop (x.2 * recAcc (s.grid b.grid).record)).take w.acc.length
    let s := (tiles.zipIdx).foldl (fun s t =>
      s.putCells (accAddr island core t.1 0 0) 4096
        ((b.savedAcc.filter fun c => c.1 / 4096 == x.1.2 * 16 + t.2).map fun c => (c.1 % 4096, c.2))) s
    s.setWarp x.1.1 { w with
      acc := tiles, pipe := pipes.getD x.2 0, stopReplay := none, restored := true, log := w.log.map fun e => { e with replay := true }
      mq := w.mq.map again, xq := w.xq.map again, fq := w.fq.map again }) s
  let s := if b.blockId = 0 then s.modGrid b.grid fun g => { g with core0 := core } else s
  s.modBlock bid fun y =>
    { y with
      core := core, saved := false, halting := false, scrBase := base, sliceBase := base + b.scrSize, wbBase := wb
      savedMem := [], savedAcc := [], savedTags := [], savedSlots := [] }

/-- Responses that carry the warp's GEN are still outstanding (R99). -/
def State.genClash (s : State) (wid : Nat) : Bool :=
  s.msgs.any (fun m => m.warp == wid && m.isEvent && m.gen == (s.warp wid).gen.toNat) ||
    s.packets.any fun p => p.warp == wid && (p.kind == .ratomReq || p.kind == .ratomResult) && p.gen == (s.warp wid).gen.toNat

/-- Places the cluster groups of a saved cooperative grid, each into the lowest-numbered cluster that takes it. -/
def State.packSaved (s : State) (gid : Nat) (g : Grid) (ks : List Nat) : List (List (Nat × Block)) → NMap (List (Nat × Block)) →
    Option (List (Nat × Nat))
  | [], _ => some []
  | u :: us, used =>
    match ks.findSome? fun k =>
        let before := NMap.getD used k []
        (s.fitSaved (s.byCoreno g (s.openCores gid g k)) (before ++ u) [] []).map fun l => (k, l.drop before.length) with
    | none => none
    | some (k, l) => (s.packSaved gid g ks us (NMap.set used k (NMap.getD used k [] ++ u))).map fun m => l ++ m

/-- Where a saved cooperative grid returns whole, and the clusters it then holds (R189, R386): MINRES free clusters, those that take most
of its blocks before the others. -/
def State.fitSavedCoop (s : State) (gid : Nat) (g : Grid) : Option (List (Nat × Nat) × List Nat) :=
  let unit := s.blocks.filter fun p => p.2.grid == gid
  let width (c : Nat) : Bool := unit.any fun p => p.2.warpw == warpwOf (s.coreCode g.island c)
  let cap (k : Nat) : Nat := (unit.filter fun p => (s.fitSaved (s.openCores gid g k) [p] [] []).isSome).length *
    sum (((s.openCores gid g k).filter width).map fun c => emptyCap g.record (s.coreCode g.island c))
  match coopClusters cap (recMinres g.record) (s.freeClusters gid g) with
  | none => none
  | some ks =>
    let groups := ((unit.map fun p => p.2.blockId / recClus g.record).eraseDups).map fun n =>
      unit.filter fun (p : Nat × Block) => p.2.blockId / recClus g.record == n
    let fits :=
      if recClus g.record = 1 then s.fitSaved (s.byCoreno g (ks.flatMap fun k => s.openCores gid g k)) unit [] []
      else s.packSaved gid g ks groups []
    fits.map fun l => (l, ks)

/-- Where a block's unit of restore goes, and the clusters that a cooperative grid then holds: its cluster group on one hardware cluster, a
cooperative grid whole on MINRES free clusters, a single block on the best core (R386). -/
def State.fitRestore (s : State) (b : Block) : Option (List (Nat × Nat) × List Nat) :=
  let g := s.grid b.grid
  let unit := if recCoop g.record then s.blocks.filter fun p => p.2.grid == b.grid else s.groupOf b
  if s.reservedAgainst b.grid g || unit.any (fun p => !p.2.saved || p.2.warps.any s.genClash) then none
  else if recCoop g.record then s.fitSavedCoop b.grid g
  else
    let fits :=
      if recClus g.record = 1 then s.fitSaved (s.byCoreno g ((List.range 20).flatMap fun k => s.openCores b.grid g k)) unit [] []
      else (List.range 20).findSome? fun k => s.fitSaved (s.byCoreno g (s.openCores b.grid g k)) unit [] []
    fits.map fun l => (l, [])

/-- Whether a block waits for its restore. -/
def State.awaitsRestore (s : State) (b : Block) : Bool :=
  let g := s.grid b.grid
  b.saved && g.status == .inTable && g.endCode == 0 && !g.preempting

/-- The saved block of a grid that returns next: blocks return in ascending BLOCKID (R37, R187). -/
def State.nextSaved (s : State) (gid : Nat) : Option Nat :=
  ((s.blocks.filter fun p => p.2.grid == gid && p.2.saved).foldl (fun (o : Option (Nat × Block)) p => match o with
    | some q => if p.2.blockId < q.2.blockId then some p else some q
    | none => some p) none).map fun p => p.1

/-- The grid whose turn it is at an island's dispatcher, and the saved block that it restores, if it has one: the first in order whose next
blocks find room (R187, R386). -/
def State.turn (s : State) (island : Nat) : Option (Nat × Option Nat) :=
  (s.dispatchOrder island fun g => s.hasSaved g || s.hasNew g).findSome? fun p =>
    match s.nextSaved p.1 with
    | some k => if (s.fitRestore (s.block k)).isSome then some (p.1, some k) else none
    | none => if (s.fitNext p.1 p.2).isSome then some (p.1, none) else none

/-- `CONTEXT_RESTORE` (R386, R387): the block whose turn it is returns with its unit. -/
def execContextRestore (block : Nat) (s : State) : Out :=
  let b := s.block block
  if !s.awaitsRestore b || s.turn b.island != some (b.grid, some block) then .next s
  else match s.fitRestore b with
    | none => .next s
    | some l =>
      let s := l.1.foldl (fun s x => s.restoreBlock x.1 x.2) s
      let s := s.modGrid b.grid fun g =>
        let more := (g.blocks.any fun k => (s.block k).saved) || decide (g.nextBlock < recNblk g.record)
        { g with
          waitingSince := if more then some (s.itime b.island) else none
          clusters := l.2
          returning := g.returning && g.blocks.any fun k => (s.block k).saved }
      .next (s.unreserve b.grid)

end Sys2Proof.Machine
end

