-- ==== Sys2Proof/Machine/Gauge.lean ====
section
/-!
DEFINITION. The Tide Gauge (R225 to R239): its 28 instructions, runs and their end, attachments, windows and budgets.
-/
namespace Sys2Proof.Machine

/-! ### Runs and instructions (R231, R232) -/

/-- The gauge whose run executes now: the lowest with a run not yet ended. -/
def State.activeGauge (s : State) : Option (Nat × GaugeRun) :=
  s.gauges.findSome? fun p => if p.2.ending then none else p.2.run.map fun r => (p.1, r)

/-- Ancestors charged on a gauge: partition 0 is not (R239). -/
def State.charged (s : State) (part : Nat) : List Nat := (s.lineage part).filter (· != 0)

/-- LEFT of TGP_BUD (R239). -/
def State.gaugeLeft (s : State) (g part : Nat) : Nat :=
  if part = 0 then 0xFFFFFF else bits (s.reg .tgpBud (gaugeIx g part)) 47 24

/-- Subtracts one executed instruction from LEFT of a partition and its ancestors (R239). -/
def State.chargeGauge (s : State) (g part : Nat) : State :=
  (s.charged part).foldl (fun s p =>
    let ix := gaugeIx g p
    s.setReg .tgpBud ix (setBits (s.reg .tgpBud ix) 47 24 (bits (s.reg .tgpBud ix) 47 24 - 1))) s

/-- A gauge register. -/
def GaugeRun.get (r : GaugeRun) (n : BitVec 4) : Nat := (NMap.getD r.h n.toNat 0).toNat
/-- The run's record of bytes it is about to write, as they stood before it (R237). -/
def GaugeRun.keep (r : GaugeRun) (s : State) (p n : Nat) : GaugeRun :=
  { r with undo := r.undo ++ ((List.range n).filterMap fun k =>
      if r.undo.any fun c => c.1 == p + k then none else some (p + k, Memory.read s.mem (p + k))) }
def GaugeRun.put (r : GaugeRun) (n : BitVec 4) (v : Nat) : GaugeRun := { r with h := NMap.set r.h n.toNat (BitVec.ofNat 64 v) }

/-- What an instruction leaves: the state, the run, and whether the run ends at once. -/
structure GaugeOut where
  st : State
  run : GaugeRun
  stop : Bool

/-- The next word of a run, its instruction counted. -/
def GaugeRun.advance (r : GaugeRun) : GaugeRun := { r with pc := r.pc + 1, executed := r.executed + 1 }

/-- Puts a run back; it ends at `done`, at a refused access, and at word ENTRY + 64 (R229) or the end of program memory. -/
def State.setGaugeRun (s : State) (g : Nat) (r : GaugeRun) (stop : Bool) : State :=
  s.modGauge g fun x => { x with run := some r, ending := stop || r.entry + 64 ≤ r.pc || 4096 ≤ r.pc }

/-- One gauge instruction of the run in progress: charged, then performed (R239). -/
def gaugeInstr (s : State) (f : State → Nat → GaugeRun → GaugeOut) : Out :=
  match s.activeGauge with
  | none => .fault .noGaugeRun
  | some (g, r) =>
    let o := f (s.chargeGauge g r.part) g r.advance
    .next (o.st.setGaugeRun g o.run o.stop)

/-- An instruction that only writes hd. -/
def gaugeAlu (s : State) (d : BitVec 4) (f : GaugeRun → Nat) : Out :=
  gaugeInstr s fun s _ r => ⟨s, r.put d (f r), false⟩

/-- SExt(imm, 14) modulo 2⁶⁴. -/
def imm14s (i : BitVec 14) : Nat := wrapN 64 (sext 14 i.toNat)

/-- `done` (R232). -/
def execGaugeDone (s : State) : Out := gaugeInstr s fun s _ r => ⟨s, r, true⟩
/-- `mov` (R232). -/
def execGaugeMov (d a : BitVec 4) (s : State) : Out := gaugeAlu s d fun r => r.get a
/-- `li` (R232). -/
def execGaugeLi (d : BitVec 4) (i : BitVec 14) (s : State) : Out := gaugeAlu s d fun _ => imm14s i
/-- `add` (R232). -/
def execGaugeAdd (d a b : BitVec 4) (s : State) : Out := gaugeAlu s d fun r => r.get a + r.get b
/-- `sub` (R232). -/
def execGaugeSub (d a b : BitVec 4) (s : State) : Out := gaugeAlu s d fun r => r.get a + (2 ^ 64 - r.get b)
/-- `and` (R232). -/
def execGaugeAnd (d a b : BitVec 4) (s : State) : Out := gaugeAlu s d fun r => r.get a &&& r.get b
/-- `or` (R232). -/
def execGaugeOr (d a b : BitVec 4) (s : State) : Out := gaugeAlu s d fun r => r.get a ||| r.get b
/-- `xor` (R232). -/
def execGaugeXor (d a b : BitVec 4) (s : State) : Out := gaugeAlu s d fun r => r.get a ^^^ r.get b
/-- `addi` (R232). -/
def execGaugeAddi (d a : BitVec 4) (i : BitVec 14) (s : State) : Out := gaugeAlu s d fun r => r.get a + imm14s i
/-- `shl` (R232). -/
def execGaugeShl (d a : BitVec 4) (i : BitVec 6) (s : State) : Out := gaugeAlu s d fun r => r.get a * 2 ^ i.toNat
/-- `shr` (R232). -/
def execGaugeShr (d a : BitVec 4) (i : BitVec 6) (s : State) : Out := gaugeAlu s d fun r => r.get a / 2 ^ i.toNat
/-- `min` (R232). -/
def execGaugeMin (d a b : BitVec 4) (s : State) : Out := gaugeAlu s d fun r => min (r.get a) (r.get b)
/-- Leading zeros of a 64-bit value. -/
def clz64 (v : Nat) : Nat := if v = 0 then 64 else 63 - Nat.log2 v
/-- `clz` (R232). -/
def execGaugeClz (d a : BitVec 4) (s : State) : Out := gaugeAlu s d fun r => clz64 (r.get a)
/-- `hash` (R232). -/
def execGaugeHash (d a : BitVec 4) (i : BitVec 14) (s : State) : Out :=
  gaugeAlu s d fun r => mix64 (r.get a + i.toNat * 0x9E3779B97F4A7C15)

/-! ### Gauge memory (R233, R234, R236) -/

/-- Window base and size in bytes of a partition's TGP_GWIN (R236). -/
def State.gaugeWindow (s : State) (g part : Nat) : Nat × Nat :=
  let v := s.reg .tgpGwin (gaugeIx g part)
  (bits v 5 0 * 4096, bits v 14 8 * 4096)

/-- The memory address of `n` bytes at a window offset, if they lie inside it and `align` divides the offset (R233). -/
def State.gaugeCell (s : State) (g part ofs n align : Nat) : Option Nat :=
  let w := s.gaugeWindow g part
  if ofs % align = 0 && ofs + n ≤ w.2 then some (gaugeAddr g (w.1 + ofs)) else none

/-- Ends a run at a refused access: ABORT + 1, nothing written (R233). -/
def gaugeAbort (s : State) (g : Nat) (r : GaugeRun) : GaugeOut := ⟨s.dropCount g r.att 48, r, true⟩

/-- `ld` (R232, R233). -/
def execGaugeLd (d a : BitVec 4) (i : BitVec 14) (s : State) : Out :=
  gaugeInstr s fun s g r =>
    match s.gaugeCell g r.part ((r.get a + 8 * i.toNat) % 2 ^ 64) 8 8 with
    | some p => ⟨s, r.put d (s.readMem p 8), false⟩
    | none => gaugeAbort s g r

/-- `st` (R232, R233). -/
def execGaugeSt (a b : BitVec 4) (i : BitVec 14) (s : State) : Out :=
  gaugeInstr s fun s g r =>
    match s.gaugeCell g r.part ((r.get a + 8 * i.toNat) % 2 ^ 64) 8 8 with
    | some p => ⟨s.writeMem p 8 (r.get b), r.keep s p 8, false⟩
    | none => gaugeAbort s g r

/-- `acc` (R232, R233). -/
def execGaugeAcc (a b : BitVec 4) (i : BitVec 14) (s : State) : Out :=
  gaugeInstr s fun s g r =>
    match s.gaugeCell g r.part ((r.get a + 8 * i.toNat) % 2 ^ 64) 8 8 with
    | some p => ⟨s.writeMem p 8 (min (s.readMem p 8 + r.get b) (2 ^ 64 - 1)), r.keep s p 8, false⟩
    | none => gaugeAbort s g r

/-- Adds one to a saturating 32-bit cell (R234). -/
def State.bumpCell (s : State) (p : Nat) : State := s.writeMem p 4 (min (s.readMem p 4 + 1) (2 ^ 32 - 1))

/-- Bucket of a histogram (R234). -/
def histBucket (log : Bool) (v n : Nat) : Nat :=
  if log then (if v = 0 then 0 else min (n - 1) (64 - clz64 v)) else min (n - 1) v

/-- A histogram update (R234). -/
def execHist (log : Bool) (a b : BitVec 4) (sh n : BitVec 6) (s : State) : Out :=
  gaugeInstr s fun s g r =>
    match s.gaugeCell g r.part ((r.get b + 4 * histBucket log (r.get a / 2 ^ sh.toNat) (n.toNat + 1)) % 2 ^ 64) 4 4 with
    | some p => ⟨s.bumpCell p, r.keep s p 4, false⟩
    | none => gaugeAbort s g r

/-- `hist.lin` (R234). -/
def execHistLin (a b : BitVec 4) (sh n : BitVec 6) (s : State) : Out := execHist false a b sh n s
/-- `hist.log` (R234). -/
def execHistLog (a b : BitVec 4) (sh n : BitVec 6) (s : State) : Out := execHist true a b sh n s

/-- The four cells of a sketch for one key, all inside the window (R234). -/
def sketchCells (s : State) (g part key base w : Nat) : Option (List Nat) :=
  (List.range 4).mapM fun k =>
    let j := mix64 (key + 0x9E3779B97F4A7C15 * (k + 1)) % 2 ^ w
    s.gaugeCell g part ((base + 4 * (k * 2 ^ w + j)) % 2 ^ 64) 4 4

/-- `cms` (R234). -/
def execGaugeCms (a b w : BitVec 4) (s : State) : Out :=
  gaugeInstr s fun s g r =>
    match sketchCells s g r.part (r.get a) (r.get b) w.toNat with
    | some ps => ⟨ps.foldl State.bumpCell s, ps.foldl (fun r p => r.keep s p 4) r, false⟩
    | none => gaugeAbort s g r

/-- `cmq` (R234). -/
def execGaugeCmq (d a b w : BitVec 4) (s : State) : Out :=
  gaugeInstr s fun s g r =>
    match sketchCells s g r.part (r.get a) (r.get b) w.toNat with
    | some ps => ⟨s, r.put d ((ps.map fun p => s.readMem p 4).foldl min (2 ^ 32 - 1)), false⟩
    | none => gaugeAbort s g r

/-! ### Branches and triggers (R232, R235) -/

/-- A forward branch of a gauge program: the next word is this word + imm. -/
def gaugeBranch (s : State) (i : BitVec 14) (c : GaugeRun → Bool) : Out :=
  gaugeInstr s fun s _ r => ⟨s, if c r then { r with pc := r.pc - 1 + i.toNat } else r, false⟩

/-- `bz` (R232). -/
def execGaugeBz (a : BitVec 4) (i : BitVec 14) (s : State) : Out := gaugeBranch s i fun r => r.get a == 0
/-- `bnz` (R232). -/
def execGaugeBnz (a : BitVec 4) (i : BitVec 14) (s : State) : Out := gaugeBranch s i fun r => r.get a != 0
/-- `bltu` (R232). -/
def execGaugeBltu (a b : BitVec 4) (i : BitVec 14) (s : State) : Out := gaugeBranch s i fun r => r.get a < r.get b

/-- Adds a trigger to a run. -/
def GaugeRun.trigger (r : GaugeRun) (t : Trigger) : GaugeRun := { r with triggers := r.triggers ++ [t] }

/-- `ntfy` (R235): the counter, with the island in bits [16:12] on the panel gauge. -/
def execGaugeNtfy (a : BitVec 4) (i : BitVec 14) (s : State) : Out :=
  gaugeInstr s fun s _ r => ⟨s, r.trigger (.ntfy (r.get a) i.toNat), false⟩
/-- `irq` (R235). -/
def execGaugeIrq (v : BitVec 8) (s : State) : Out := gaugeInstr s fun s _ r => ⟨s, r.trigger (.irq v.toNat), false⟩
/-- `frz` (R235). -/
def execGaugeFrz (s : State) : Out := gaugeInstr s fun s _ r => ⟨s, r.trigger .frz, false⟩

/-- Length of the trace ring in 16-byte records (R236): a TRLEN above 4 × SIZE acts as 0. -/
def traceLen (v : Nat) : Nat := if 4 * bits v 14 8 < bits v 21 16 then 0 else bits v 21 16 * 64

/-- `trc` (R235). -/
def execGaugeTrc (a b : BitVec 4) (s : State) : Out :=
  gaugeInstr s fun s g r =>
    let ix := gaugeIx g r.part
    let v := s.reg .tgpGwin ix
    let n := traceLen v
    if bit v 24 || n = 0 then ⟨s, r, false⟩
    else
      let w := s.gaugeWindow g r.part
      let p := gaugeAddr g (w.1 + w.2 - n * 16 + bits v 47 32 % n * 16)
      let r' := r.keep s p 16
      let s := (s.writeMem p 8 (r.get a)).writeMem (p + 8) 8 (r.get b)
      ⟨s.setReg .tgpGwin ix (setBits v 47 32 ((bits v 47 32 + 1) % n)), r', false⟩

/-! ### Events of the gauge (R228 to R239) -/

/-- `GAUGE_EVENT` (R226 to R228). -/
def execGaugeEvent (g code unit : Nat) (part : Option Nat) (payload : Nat) (s : State) : Out :=
  .next (s.gaugeSee g code unit part payload)

/-- A BUDGET_EXCEEDED record (R225, R239, R379): the panel gauge's goes to the control die; an island's is dropped and counted in LOST
where the ring and the on-chip buffer are full. -/
def State.postBudget (s : State) (g part att : Nat) : State :=
  if g = 24 then { s with panelRecords := s.panelRecords ++ [s.panelRecord part att] }
  else if !s.fqFull g || ((s.isl g).onchip.length < 64 && (s.isl g).waitPost.isEmpty) then s.post g (bareRecord 0x62 3 0 part att 0)
  else
    let v := s.reg .islFqstat g
    s.setReg .islFqstat g (setBits v 23 8 (min 0xFFFF (bits v 23 8 + 1)))

/-- Starts a run for the head event, or drops it for budget (R231, R239). -/
def execGaugeRunStart (g : Nat) (s : State) : Out :=
  let x := s.gauge g
  match x.run, x.queue with
  | none, e :: rest =>
    let s := s.setGauge g { x with queue := rest }
    let r := s.reg .tgpAtt (gaugeIx g e.att)
    let part := bits r 7 1
    match (s.charged part).find? fun p => s.gaugeLeft g p < 64 with
    | some _ =>
      let s := s.dropCount g e.att 32
      if x.posted.contains part then .next s
      else
        let s := s.modGauge g fun x => { x with posted := x.posted ++ [part] }
        .next ((s.setW1c .tgpBud (gaugeIx g part) 48).postBudget g part e.att)
    | none =>
      let h1 := e.code + e.unit * 2 ^ 8 + (e.part.getD 0) * 2 ^ 16 + (if e.part.isNone then 2 ^ 23 else 0) + e.att * 2 ^ 24
      let (h2, s) := if bit r 34 then s.viewTime part g false e.time else (e.time, s)
      let run : GaugeRun :=
        { h := [(0, BitVec.ofNat 64 e.payload), (1, BitVec.ofNat 64 h1), (2, BitVec.ofNat 64 h2)]
          pc := bits r 31 20, entry := bits r 31 20, att := e.att, part := part, triggers := [], executed := 0,
          began := s.clk, undo := [] }
      .next (s.modGauge g fun x => { x with run := some run, ending := false })
  | _, _ => .next s

/-- One trigger of an ended run takes effect (R235). -/
def State.fireTrigger (s : State) (g : Nat) (r : GaugeRun) (t : Trigger) : State :=
  match t with
  | .ntfy c inc => (s.notifyAdd (if g = 24 then bits c 16 12 else g) (bits c 11 0) inc r.part).1
  | .irq v =>
    let ix := gaugeIx g r.att
    if bit (s.reg .tgpAtt ix) 35 then s
    else { s.setW1c .tgpAtt ix 35 with interrupts := s.interrupts ++ [(g, r.att, v)] }
  | .frz => s.setW1c .tgpGwin (gaugeIx g r.part) 24

/-- Ends a run: its triggers take effect in order after its writes (R235). -/
def execGaugeRunEnd (g : Nat) (s : State) : Out :=
  let x := s.gauge g
  match x.run with
  | some r =>
    if x.ending then
      .next (r.triggers.foldl (fun s t => s.fireTrigger g r t) (s.setGauge g { x with run := none, ending := false }))
    else .next s
  | none => .next s

/-- Fields of TGP_ATT other than EN, BAD and IPEND, as writable while EN is 0 (R227). -/
def attFields (old v : Nat) : Nat :=
  setBits (setBits (setBits (setBits old 32 1 (bits v 32 1)) 34 34 (bits v 34 34)) 47 40 (bits v 47 40)) 48 48 (bits v 48 48)

/-- IPEND cleared where 1 is written (R5, R227). -/
def State.ipendW1c (s : State) (ix v : Nat) : Nat :=
  if s.clears .tgpAtt ix 35 v then setBits (s.reg .tgpAtt ix) 35 35 0 else s.reg .tgpAtt ix

/-- A write of TGP_ATT with EN 1 (R227, R229): on a disabled attachment the fields are taken and verification starts. -/
def execTgpAttEnable (g att value : Nat) (s : State) : Out :=
  let ix := gaugeIx g att
  let old := s.ipendW1c ix value
  if bit old 0 then .next (s.setReg .tgpAtt ix old)
  else
    let s := s.setReg .tgpAtt ix (attFields old value)
    .next (s.modGauge g fun x => { x with atts := NMap.set x.atts att { x.att att with verifying := true } })

/-- Opcode of a gauge word. -/
def gaugeOp (w : Nat) : Nat := bits w 31 26

/-- Fields a gauge word leaves unused, and its immediate's limits (R229, R232): refused when it holds otherwise. -/
def gaugeWordOk (w : Nat) : Bool :=
  let op := gaugeOp w
  let imm := bits w 13 0
  let d := bits w 25 22
  let a := bits w 21 18
  let b := bits w 17 14
  match op with
  | 0x00 | 0x1A => d == 0 && a == 0 && b == 0 && imm == 0
  | 0x01 | 0x0C => b == 0 && imm == 0
  | 0x02 => a == 0 && b == 0
  | 0x03 | 0x04 | 0x05 | 0x06 | 0x07 | 0x0B => imm == 0
  | 0x08 | 0x0D | 0x0E => b == 0
  | 0x09 | 0x0A => b == 0 && imm < 64
  | 0x0F | 0x10 => d == 0
  | 0x11 => d == 0 && imm < 2 ^ 13
  | 0x12 => d == 0 && 4 ≤ imm && imm ≤ 12
  | 0x13 => 4 ≤ imm && imm ≤ 12
  | 0x14 | 0x15 => d == 0 && b == 0 && 1 ≤ imm && imm ≤ 63
  | 0x16 => d == 0 && 1 ≤ imm && imm ≤ 63
  | 0x17 => d == 0 && b == 0 && imm != 0
  | 0x18 => d == 0 && a == 0 && b == 0 && imm < 256
  | 0x19 => d == 0 && imm == 0
  | _ => false

/-- Verification walks the 64 words from ENTRY (R229): `reach` holds the words reached so far, as offsets; a word no
path reaches is not read. -/
def verifyWalk (s : State) (g entry : Nat) : Nat → Nat → List Nat → Bool
  | 0, _, _ => true
  | fuel + 1, i, reach =>
    if !reach.contains i || 4096 ≤ entry + i then verifyWalk s g entry fuel (i + 1) reach
    else
      let w := s.readMem (gaugeProgAddr g (entry + i)) 4
      let op := gaugeOp w
      let t := i + bits w 13 0
      let isBranch := 0x14 ≤ op && op ≤ 0x16
      gaugeWordOk w && (!isBranch || (t ≤ 63 && entry + t ≤ 4095)) &&
        verifyWalk s g entry fuel (i + 1) ((if op = 0 then [] else [i + 1]) ++ (if isBranch then [t] else []) ++ reach)

/-- Ends verification (R229, R238): accepted, EN becomes 1 with counts and drops cleared; refused, BAD is set. -/
def execTgpAttVerifyEnd (g att : Nat) (s : State) : Out :=
  let x := s.gauge g
  if (x.att att).verifying then
    let ix := gaugeIx g att
    let r := s.reg .tgpAtt ix
    let ok := verifyWalk s g (bits r 31 20) 64 0 [0] && !(bit r 34 && sharedCode (bits r 15 8))
    let s := s.setGauge g { x with atts := NMap.set x.atts att ⟨0, false⟩ }
    if ok then .next ((s.setReg .tgpAtt ix (setBits (setBits r 0 0 1) 33 33 0)).setReg .tgpAdrop ix 0)
    else .next (s.setReg .tgpAtt ix (setBits r 33 33 1))
  else .next s

/-- A write of TGP_ATT with EN 0 (R227, R229): queued and held events of the attachment are discarded. -/
def execTgpAttDisable (g att value : Nat) (s : State) : Out :=
  let ix := gaugeIx g att
  let old := s.ipendW1c ix value
  let new := if bit old 0 then setBits old 0 0 0 else attFields old value
  let s := s.setReg .tgpAtt ix new
  .next (s.modGauge g fun x =>
    { x with
      atts := NMap.set x.atts att { x.att att with verifying := false }
      queue := x.queue.filter fun e => e.att != att
      held := x.held.filter fun h => h.2.att != att })

/-- Clearing IPEND (R227). -/
def execIpendClear (g att : Nat) (s : State) : Out :=
  let ix := gaugeIx g att
  .next (s.setReg .tgpAtt ix (s.ipendW1c ix (2 ^ 35)))

/-- Whether two windows of non-zero size overlap (R236). -/
def windowsOverlap (a b : Nat) : Bool :=
  let sa := bits a 14 8
  let sb := bits b 14 8
  sa != 0 && sb != 0 && bits a 5 0 < bits b 5 0 + sb && bits b 5 0 < bits a 5 0 + sa

/-- A write of TGP_GWIN (R236): ignored past granule 63 or over another window; it resets TRPOS. -/
def execTgpGwinWrite (g part value : Nat) (s : State) : Out :=
  let ix := gaugeIx g part
  let old := s.reg .tgpGwin ix
  let clash := (List.range 128).any fun p => p != part && windowsOverlap value (s.reg .tgpGwin (gaugeIx g p))
  if 64 < bits value 5 0 + bits value 14 8 || 64 < bits value 14 8 || clash then .next s
  else
    let v := bits value 5 0 + bits value 14 8 * 2 ^ 8 + bits value 21 16 * 2 ^ 16
    let frozen := if s.clears .tgpGwin ix 24 value then 0 else bits old 24 24
    .next (s.setReg .tgpGwin ix (v + frozen * 2 ^ 24))

/-- A write of TGP_BUD (R239): ALLOT up to the parent's; OVER is W1C; partition 0 ignores it. -/
def execTgpBudWrite (g part value : Nat) (s : State) : Out :=
  if part = 0 then .next s
  else
    let ix := gaugeIx g part
    let old := s.reg .tgpBud ix
    let a := s.parent part
    let cap := if a = 0 then 0xFFFFFF else bits (s.reg .tgpBud (gaugeIx g a)) 23 0
    let v := setBits old 23 0 (min cap (bits value 23 0))
    .next (s.setReg .tgpBud ix (if s.clears .tgpBud ix 48 value then setBits v 48 48 0 else v))

/-- A gauge budget period begins: LEFT := ALLOT in every partition (R239). -/
def State.gaugePeriod (s : State) (g : Nat) : State :=
  let s := (List.range 127).foldl (fun s p =>
    let ix := gaugeIx g (p + 1)
    let v := s.reg .tgpBud ix
    if bits v 47 24 = bits v 23 0 then s else s.setReg .tgpBud ix (setBits v 47 24 (bits v 23 0))) s
  s.modGauge g fun x => { x with posted := [] }

/-- `GAUGE_BUDGET_PERIOD` (R239). -/
def execGaugeBudgetPeriod (g : Nat) (s : State) : Out := .next (s.gaugePeriod g)

/-- Whether an enabled attachment's 64-word range covers a program word (R229). -/
def State.progCovered (s : State) (g w : Nat) : Bool :=
  (List.range 16).any fun n =>
    let r := s.reg .tgpAtt (gaugeIx g n)
    bit r 0 && bits r 31 20 ≤ w && w < bits r 31 20 + 64

/-- Whether management function `part` reaches a byte of a gauge's memory: function 0 all of it and the program memory from 2^18 on,
a driver its own partition's window (R237, R397). -/
def State.gaugeReach (s : State) (part g a : Nat) : Bool :=
  if part = 0 then decide (a < 2 ^ 18 + 2 ^ 14)
  else
    let w := s.gaugeWindow g part
    s.partValid part && decide (w.1 ≤ a) && decide (a < w.1 + w.2)

/-- A host or driver write to gauge memory or program memory, between two runs (R229, R237). -/
def execGaugeMemoryWrite (reach : GaugeReach) (address : Nat) (bytes : List (BitVec 8)) (s : State) : Out :=
  .next { s with mem := (bytes.zipIdx).foldl (fun m x =>
    let a := address + x.2
    if s.gaugeReach reach.part reach.gauge a && !(2 ^ 18 ≤ a && s.progCovered reach.gauge ((a - 2 ^ 18) / 4)) then
      Memory.write m (gaugeAddr reach.gauge a) x.1 else m) s.mem }

/-- The byte of gauge memory that a management function reads (R237): zero where it does not reach. While a run is
in progress its bytes read as they stood before it (log 101). -/
def State.gaugeRead (s : State) (part g a : Nat) : Byte :=
  if s.gaugeReach part g a then
    let before := (s.gauge g).run.bind fun r => r.undo.find? fun (c : Host.Cell) => c.1 == gaugeAddr g a
    (before.map Prod.snd).getD (Memory.read s.mem (gaugeAddr g a))
  else 0

end Sys2Proof.Machine
end

