-- ==== Sys2Proof/Machine/Topology.lean ====
section
/-!
DEFINITION. The topology table's bytes and checks (R159 to R162), routes (R165), the clock tree, HOLD and relock (R141, R169 to R173),
table updates (R174 to R176, R408), and the rank table (R166 to R168).
-/
namespace Sys2Proof.Machine

/-! ### Measurements (R402) -/

/-- A 48-byte register as its list of bytes. -/
def pad (n : Nat) (bs : List Byte) : List Byte := (bs ++ List.replicate n 0).take n

/-- The digest of a message, 48 bytes. -/
def sha384 (bs : List Byte) : List Byte := pad 48 (Config.sha384 bs)

/-- ROT_MEAS0 to ROT_MEAS3: zero at every start. -/
def State.meas (s : State) (n : Nat) : List Byte := NMap.getD s.boot.meas n (List.replicate 48 0)

/-- Extend (R402). -/
def State.extendMeas (s : State) (n : Nat) (d : List Byte) : State :=
  { s with boot := { s.boot with meas := NMap.set s.boot.meas n (sha384 (s.meas n ++ d)) } }

/-! ### The table's bytes (R159 to R161) -/

/-- Numbers of the root of trust's keys (R401). -/
def topologyKey : Nat := 1

/-- Value of `n` bytes at an offset. -/
def fieldAt (bs : List Byte) (ofs n : Nat) : Nat := valueOf ((bs.drop ofs).take n)

/-- A site record's value (R161). -/
def Site.value (x : Site) : Nat :=
  (x.cores.foldl (fun v c => v + c.2 % 4 * 2 ^ (2 * c.1)) 0) + (if x.live then 2 ^ 320 else 0) +
    (x.ports.foldl (fun v p => v + p.2 % 16 * 2 ^ (328 + 4 * p.1)) 0) + x.clkpar % 16 * 2 ^ 376

/-- Reads a site record. -/
def Site.ofValue (v : Nat) : Site where
  live := bit v 320
  cores := (List.range 160).filterMap fun k => if bits v (2 * k + 1) (2 * k) = 0 then none else some (k, bits v (2 * k + 1) (2 * k))
  ports := (List.range 12).map fun p => (p, bits v (331 + 4 * p) (328 + 4 * p))
  clkpar := bits v 379 376

/-- Sites that a table lists as live. -/
def Topology.nlive (t : Topology) : Nat := (t.sites.filter fun x => x.live).length

/-- Bytes 0 to 1,663 of a table. -/
def Topology.body (t : Topology) : List Byte :=
  bytesOf 64 (0x1A247B0C + t.tver % 2 ^ 32 * 2 ^ 32 + t.nlive * 2 ^ 64 + 2 ^ 72) ++ t.sites.flatMap (fun x => bytesOf 64 x.value) ++
    bytesOf 64 (t.ctlPorts.foldl (fun v p => v + p.2 % 16 * 2 ^ (4 * p.1)) 0)

/-- The root of trust's signature over a digest (R159). -/
def topoSignature (digest : List Byte) : List Byte := pad 96 (Config.sign topologyKey digest)

/-- A table as the root of trust signs it. -/
def Topology.signed (t : Topology) : List Byte :=
  let d := sha384 t.body
  t.body ++ d ++ topoSignature d

/-- Reads a table. -/
def Topology.ofBytes (bs : List Byte) : Topology where
  tver := fieldAt bs 4 4
  sites := (List.range 24).map fun n => Site.ofValue (fieldAt bs (64 + 64 * n) 64)
  ctlPorts := (List.range 8).map fun p => (p, bits (fieldAt bs 1600 64) (4 * p + 3) (4 * p))
  digest := (bs.drop 1664).take 48

/-! ### The checks of R162 -/

/-- Depth of a site in a table's clock tree (R169): none past depth 7, at a dead parent or at a link of the wrong kind. -/
def Topology.depth (t : Topology) : Nat → Nat → Option Nat
  | 0, _ => none
  | fuel + 1, n =>
    let p := ((t.sites[n]?).elim 0 fun x => x.clkpar)
    if !t.live n then none
    else match t.portCode n p % 4, farEnd n p with
      | 3, some (24, _) => some 0
      | 1, some (m, _) => (t.depth fuel m).map (· + 1)
      | _, _ => none

/-- A valid clock tree (R169). -/
def Topology.treeOk (t : Topology) : Bool := (List.range 24).all fun n => !t.live n || (t.depth 8 n).isSome

/-- Ports of a node. -/
def portsOf (node : Nat) : List Nat := List.range (if node = 24 then 8 else 12)

/-- Port kinds agree with R12 and R13 for the sites that count as live, and the two ends of each link agree. -/
def Topology.portsOk (t : Topology) (live : Nat → Bool) : Bool :=
  (List.range 25).all fun n => (portsOf n).all fun p =>
    let c := t.portCode n p
    if n < 24 && !t.live n then c == 0
    else c % 4 == portKind live n p &&
      match farEnd n p with
      | some (m, q) => c % 4 == 0 || t.portCode m q % 8 == c % 8
      | none => true

/-- Reserved bits of a table, and what a dead site's record holds beside LIVE. -/
def reservedZero (bs : List Byte) : Bool :=
  let h := fieldAt bs 0 64
  let c := fieldAt bs 1600 64
  bits h 71 69 == 0 && bits h 511 76 == 0 && bits c 511 32 == 0 && ((List.range 8).all fun p => !bit c (4 * p + 3)) &&
    (List.range 24).all fun n =>
      let v := fieldAt bs (64 + 64 * n) 64
      if bit v 320 then bits v 327 321 == 0 && bits v 511 380 == 0 && (List.range 12).all fun p => !bit v (331 + 4 * p)
      else v == 0

/-- Sites that count as live for a table's port checks (R162, R175): at a start those that passed stage 2, and of a fencing table those
that it keeps. -/
def State.countsLive (s : State) (t : Topology) (fencing : Bool) (n : Nat) : Bool :=
  if s.boot.starting then (s.boot.results.any fun r => r.site == n && r.pass) && (!fencing || t.live n) else t.live n

/-- What a router answers to a proposed table (R162, R174): 0 accepts; else the cause of its REJECT. -/
def State.tableCause (s : State) (bs : List Byte) (fencing : Bool) : Nat :=
  let t := Topology.ofBytes bs
  let h := fieldAt bs 0 64
  let sig := (bs.drop 1712).take 96
  if sha384 (bs.take 1664) != t.digest || !(sig == topoSignature t.digest || Config.verify topologyKey t.digest sig) then 1
  else if bits h 31 0 != 0x1A247B0C || bits h 75 72 != 1 || !reservedZero bs then 2
  else if t.tver ≤ s.boot.lastTver then 3
  else if bits h 68 64 != t.nlive || t.nlive < 21 || !t.portsOk (s.countsLive t fencing) then 4
  else if !t.treeOk then 5
  else 0

/-! ### Tables that the Lock-keeper builds (R172, R174, R206, R408) -/

/-- A link that a clock tree or a route may use: both its ends present, live and not fenced (R165). -/
def Topology.usable (t : Topology) (n p : Nat) : Bool :=
  let ok (m q : Nat) : Bool := (m == 24 || t.live m) && t.portCode m q % 4 != 0 && !bit (t.portCode m q) 2
  ok n p && match farEnd n p with
    | some (m, q) => ok m q
    | none => false

/-- Takes sites away: their records are zero, and the links to them absent; FENCED bits stay. -/
def Topology.without (t : Topology) (dead : Nat → Bool) : Topology :=
  let live (n : Nat) : Bool := t.live n && !dead n
  let port (n p : Nat) : Nat × Nat :=
    let k := portKind live n p
    (p, if k = 0 then 0 else k + t.portCode n p / 4 % 2 * 4)
  { t with
    sites := (t.sites.zipIdx).map fun (x : Site × Nat) => if live x.2 then { x.1 with ports := (List.range 12).map (port x.2) } else ⟨false, [], [], 0⟩
    ctlPorts := (List.range 8).map (port 24) }

/-- One round of joining sites to a tree, at depth `d`: a site takes the lowest-numbered parent of depth `d - 1` over its own lowest
port. -/
def joinRound (cand : Nat → Nat → Bool) (tree : List (Nat × Nat × Nat)) (d : Nat) : List (Nat × Nat × Nat) :=
  tree ++ (List.range 24).filterMap fun n =>
    if tree.any fun t => t.1 == n then none
    else
      let options := (List.range 12).filterMap fun p =>
        match farEnd n p with
        | some (m, _) =>
          if cand n p && (if d = 0 then m == 24 else tree.any fun t => t.1 == m && t.2.2 == d - 1) then some (m, p) else none
        | none => none
      (options.foldl (fun (b : Option (Nat × Nat)) x =>
        if b.any fun y => decide (y.1 < x.1) || (y.1 == x.1 && decide (y.2 ≤ x.2)) then b else some x) none).map fun x => (n, x.2, d)

/-- A table whose detached sites have new parents (R172): a site that no parent reaches is not live. `bad` names links not to be used. -/
def Topology.reTree (t : Topology) (detached : Nat → Bool) (bad : Nat → Nat → Bool) : Topology :=
  let kept := (List.range 24).filterMap fun n =>
    if t.live n && !detached n then (t.depth 8 n).map fun d => (n, ((t.sites[n]?).elim 0 fun x => x.clkpar), d) else none
  let tree := (List.range 8).foldl (joinRound fun n p => t.usable n p && !bad n p) kept
  let t := { t with sites := (t.sites.zipIdx).map fun (x : Site × Nat) =>
    match tree.find? fun (y : Nat × Nat × Nat) => y.1 == x.2 with
    | some y => { x.1 with clkpar := y.2.1 }
    | none => x.1 }
  t.without fun n => !(tree.any fun y => y.1 == n)

/-- Sites whose path to node 24 is broken by a link that may not be used. -/
def Topology.cutOff (t : Topology) : Nat → Nat → Bool
  | 0, _ => true
  | fuel + 1, n =>
    let p := ((t.sites[n]?).elim 0 fun x => x.clkpar)
    !t.usable n p || match farEnd n p with
      | some (24, _) => false
      | some (m, _) => t.cutOff fuel m
      | none => true

/-- Sets FENCED on both ends of a link. -/
def Topology.fence (t : Topology) (n p : Nat) : Topology :=
  let one (t : Topology) (n p : Nat) : Topology :=
    let c := t.portCode n p % 4 + 4
    if n = 24 then { t with ctlPorts := NMap.set t.ctlPorts p c }
    else { t with sites := (t.sites.zipIdx).map fun (x : Site × Nat) => if x.2 = n then { x.1 with ports := NMap.set x.1.ports p c } else x.1 }
  match farEnd n p with
  | some (m, q) => one (one t n p) m q
  | none => one t n p

/-- Sets a core's code (R161). -/
def Topology.setCore (t : Topology) (n k code : Nat) : Topology :=
  { t with sites := (t.sites.zipIdx).map fun (x : Site × Nat) => if x.2 = n then { x.1 with cores := NMap.set x.1.cores k code } else x.1 }

/-! ### Ports, and the management flits of tables and HOLD reports (R201, R202) -/

/-- A port that is not there. -/
def Port.none : Port := Port.trained 0 0 0

def State.port (s : State) (n p : Nat) : Port := NMap.getD s.ports (portIx n p) Port.none
def State.modPort (s : State) (n p : Nat) (f : Port → Port) : State :=
  { s with ports := NMap.modify s.ports (portIx n p) f }

/-- States of a port in which it has light (R205). -/
def Port.lit (x : Port) : Bool := x.st == .up || x.st == .draining || x.st == .drained

/-- Adds sequence-numbered flits to a port's replay buffer (R202); `tag` is the packet's number and one, or 0 for management. -/
def Port.keep (x : Port) (n tag : Nat) : Port :=
  { x with rply := x.rply ++ (List.range n).map (fun k => ((x.seq + k) % 4096, tag)), seq := (x.seq + n) % 4096 }

/-- Management flits are sent as long as the replay buffer and the far end's buffer of 8 have room (R201, R202). -/
def Port.sendMgmt (x : Port) : Port :=
  if x.lit then
    let n := min x.mgmtQ.length (min (128 - x.rply.length) (8 - x.mgmtOn.length))
    { x.keep n 0 with mgmtQ := x.mgmtQ.drop n, mgmtOn := x.mgmtOn ++ x.mgmtQ.take n }
  else x

/-- A management flit is due at a port. -/
def Port.pushMgmt (x : Port) (k : Nat) : Port := { x with mgmtQ := x.mgmtQ ++ [k] }.sendMgmt

/-- A management flit of a table update (4) or a HOLD report (5), one flit over each link of the clock tree that it concerns: a table
goes down to the site, a report goes up from it (DESIGN CHOICE, log 114). Over a link that is FAILED or absent none goes. -/
def State.treeFlit (s : State) (n k : Nat) : State :=
  let p := (s.isl n).parent
  let e := if k = 5 then some (n, p) else farEnd n p
  match e with
  | some (m, q) => s.modPort m q fun x => if x.st == .failed || x.st == .absent || x.st == .train then x else x.pushMgmt k
  | none => s

/-- The fields of LKP_TUPD below TVER. -/
def State.setTupd (s : State) (hi lo v : Nat) : State := s.setReg .lkpTupd 0 (setBits (s.reg .lkpTupd 0) hi lo v)

/-- LKP_TUPD as it reads (R174). -/
def State.tupd (s : State) : Nat := s.reg .lkpTupd 0 % 2 ^ 32 + s.topo.tver % 2 ^ 32 * 2 ^ 32

/-- Routers that verify a table (R174, R175). -/
def State.verifiers (s : State) : List Nat :=
  ((List.range 24).filter fun n => if s.boot.starting then s.boot.results.any fun r => r.site == n && r.pass else s.topo.live n) ++ [24]

/-- Sends the table of an update to the routers that verify it. -/
def State.askRouters (s : State) (u : Update) : State :=
  let nodes := s.verifiers.filter fun n => !u.fencing || n == 24 || u.table.live n
  (nodes.filter fun n => n != 24).foldl (fun s n => s.treeFlit n 4) { s with update := some { u with asked := nodes, answers := [] } }

/-- Sends a table that the Lock-keeper has built to the routers. -/
def State.sendTable (s : State) (t : Topology) (fencing : Bool) : State :=
  let t := { t with tver := s.boot.lastTver + 1 }
  ((s.askRouters ⟨t, t.signed, [], [], none, fencing, false⟩).setTupd 31 0 0).setTupd 2 0 2

/-- Ports that are FAILED and not yet fenced (R206). -/
def State.unfenced (s : State) : List (Nat × Nat) :=
  (List.range 25).flatMap fun n => (portsOf n).filterMap fun p =>
    if (NMap.find? s.ports (portIx n p)).any (fun x => x.st == PortState.failed) && s.topo.portCode n p % 4 != 0 && !bit (s.topo.portCode n p) 2
    then some (n, p) else none

/-- Links that a new clock tree may not use (R172): one over which a reference was lost, and those from a forwarder whose transmit side has
failed. -/
def State.badClock (s : State) (n p : Nat) : Bool :=
  (s.topo.live n && !(s.isl n).reference && (s.isl n).parent == p) || (farEnd n p).any fun m => m.1 != 24 && (s.isl m.1).txFailed

/-- Stages the table that stands due, once no update is in progress (R206, R408): sites and ports to be fenced first, then retired cores;
`tried` names ports that a table given up has fenced. What a table does is due until it is in force. -/
def State.stageAfter (s : State) (tried : Nat → Nat → Bool) : State :=
  if s.update.isSome || s.boot.starting then s
  else
    let sites := s.fenceSites.filter s.topo.live
    let ports := s.unfenced.filter fun x => !tried x.1 x.2
    let cores := s.retireCores.filter fun x => s.topo.live x.1
    if !sites.isEmpty || !ports.isEmpty then
      let t := ports.foldl (fun (t : Topology) (x : Nat × Nat) => t.fence x.1 x.2) (s.topo.without fun n => sites.contains n)
      s.sendTable (t.reTree (t.cutOff 8) s.badClock) true
    else if !cores.isEmpty then
      s.sendTable (cores.foldl (fun (t : Topology) (x : Nat × Nat) => t.setCore x.1 x.2 3) s.topo) false
    else s

/-- Stages whatever table stands due. -/
def State.stageOwn (s : State) : State := s.stageAfter fun _ _ => false

/-- Fencings and retirements that a table does not make. -/
def State.leftBy (s : State) (t : Topology) : State :=
  { s with
    fenceSites := s.fenceSites.filter t.live
    retireCores := s.retireCores.filter fun x => ((t.sites[x.1]?).elim 0 fun y => NMap.getD y.cores x.2 0) != 3 }

/-! ### Routes (R165) -/

/-- A port's key in the rule of least key sequence. -/
def hopKey (node port : Nat) : Nat := if node = 24 || port < 8 then port / 2 * 2 else port

/-- Distances to a destination after k rounds, by node: nodes not reached are none. Node 24 forwards nothing. -/
def Topology.distances (t : Topology) (dst : Nat) : Nat → List (Option Nat)
  | 0 => (List.range 25).map fun n => if n = dst then some 0 else none
  | k + 1 =>
    let ds := t.distances dst k
    (List.range 25).map fun n =>
      match ds.getD n none with
      | some d => some d
      | none =>
        if (portsOf n).any fun p => t.usable n p && (farEnd n p).any fun m => (m.1 != 24 || dst == 24) && ds.getD m.1 none == some k
        then some (k + 1) else none

/-- Hops of a route from a node at distance `d`, each the least key that leads nearer. -/
def Topology.hops (t : Topology) (ds : List (Option Nat)) (parity : Nat) : Nat → Nat → List Nat
  | 0, _ => []
  | d + 1, node =>
    let nearer (p : Nat) : Bool :=
      t.usable node p && (farEnd node p).any fun m => (m.1 != 24 || d == 0) && ds.getD m.1 none == some d
    match (((portsOf node).filter nearer).map fun p => hopKey node p).min? with
    | none => []
    | some k =>
      let p :=
        if node = 24 || k < 8 then (if nearer (k + parity) then k + parity else k + (1 - parity)) else k
      p :: t.hops ds parity d ((farEnd node p).elim node Prod.fst)

/-- The route word from a node to another, if there is one (R165). -/
def Topology.route (t : Topology) (src dst : Nat) : Option Nat :=
  let ds := t.distances dst 8
  match ds.getD src none with
  | some d => some (backRoute (t.hops ds ((src + dst) % 2) d src))
  | none => none

/-! ### The rank table (R166 to R168) -/

/-- Island of a rank entry's copy. -/
def rankIsland (k : Nat) : Nat := k / 65536 % 32

/-- Writes an entry and removes it from its island's rank cache (R166). -/
def State.setRank (s : State) (job island rank v : Nat) : State :=
  { s with ranks := NMap.set s.ranks (rankKey job island rank) (v % 2 ^ 64)
           rankCache := s.rankCache.filter fun x => x != (job, island, rank) }

/-- Whether an island's copy has acknowledged HELD of a rank (R168 step 2): every operation that read the entry before has seen all its
packets reach their target counter. Step 4 is the hypervisor's to make after it (log 116). -/
def State.heldAcked (s : State) (job island rank : Nat) : Bool :=
  bit (NMap.getD s.ranks (rankKey job island rank) 0) 6 &&
    !(s.packets.any fun p => p.src == island && p.job == job && p.rank == rank && !p.kind.isResponse) &&
    !s.warps.any fun p =>
      (s.block p.2.block).island == island && recJob (s.grid (s.block p.2.block).grid).record == job &&
        p.2.xq.any fun c => c.running && (c.op == 0xE0 || c.op == 0xE1 || c.op == 0xE2) && c.sv.getD 0 0 % 65536 == rank

/-- `RANK_ENTRY_WRITE` (R166): NRANKS of a job covers every entry written (log 33). -/
def execRankEntryWrite (job island rank value : Nat) (s : State) : Out :=
  let s := s.setRank job island (rank % 65536) value
  .next { s with nranks := NMap.set s.nranks job (max (s.nranksOf job) (rank % 65536 + 1)) }

/-- Ranks of this panel whose NODE is live now and not in a new table are set HELD in every copy (R174 step 4); NODE of a rank on another
panel is no node of this one (R208). -/
def State.holdRanks (s : State) (t : Topology) : State :=
  s.ranks.foldl (fun s e =>
    let n := bits e.2 4 0
    if n < 24 && s.topo.live n && !t.live n && bit e.2 5 && !crosses (bits e.2 39 8) 8 (rankIsland e.1) then
      s.setRank (e.1 / 65536 / 32) (rankIsland e.1) (e.1 % 65536) (setBits e.2 6 6 1)
    else s) s

/-- New routes for the ranks of the panel's live nodes whose ROUTE no longer stands (R174 step 4, R165); without a route the entry is
not valid. The no-route word of a rank on another panel stands (R208). -/
def State.rerouteRanks (s : State) : State :=
  s.ranks.foldl (fun s e =>
    let n := bits e.2 4 0
    let i := rankIsland e.1
    let put (v : Nat) : State := s.setRank (e.1 / 65536 / 32) i (e.1 % 65536) v
    if rankOk e.2 && (n == 24 || s.topo.live n) && (i == 24 || s.topo.live i) && !crosses (bits e.2 39 8) 8 i &&
        !s.topo.routeOk (bits e.2 39 8) 8 i then
      match s.topo.route i n with
      | some r => put (setBits e.2 39 8 r)
      | none => put (setBits e.2 5 5 0)
    else s) s

/-! ### HOLD and relock (R171, R141) -/

/-- An island enters HOLD (R171): ITIME counts on, and PTIME stands (R219, R220). -/
def State.enterHold (s : State) (n : Nat) : State :=
  if (s.isl n).inHold then s
  else
    let s := s.modIsl n fun x => { x with inHold := true, lock := false, fast := false, holds := min 0xFFFF (x.holds + 1) }
    ((s.treeFlit n 5).islCount n 0x0A 1).gaugeSee n 0x30 0 none 1

/-- Whether an island takes its reference through another, over the parents in force. -/
def State.descends (s : State) (top : Nat) : Nat → Nat → Bool
  | 0, _ => false
  | fuel + 1, n =>
    n == top || match farEnd n (s.isl n).parent with
      | some (24, _) => false
      | some (m, _) => s.descends top fuel m
      | none => false

/-- An island loses its parent's reference: it and every descendant enter HOLD, orphaned until a commit (R171). -/
def State.loseReference (s : State) (island : Nat) : State :=
  let under := (List.range 24).filter fun n => s.topo.live n && s.descends island 9 n
  let s := under.foldl (fun s n => (s.enterHold n).modIsl n fun x => { x with orphan := true }) s
  s.modIsl island fun x => { x with reference := false }

/-- Islands that take their reference from an island. -/
def State.clockChildren (s : State) (island : Nat) : List Nat :=
  (List.range 24).filter fun n => s.topo.live n && (farEnd n (s.isl n).parent).any fun m => m.1 == island

/-- `REFERENCE_LOSS` (R171, R172): 0, the island sees no reference over its parent's link; 1, the transmit side of its forwarder has
failed, and its children see none; 2, the receive side has failed. Of node 24 it is the reference itself that fails, and every island
enters HOLD until it returns. -/
def execReferenceLoss (loss : ClockLoss) (s : State) : Out :=
  if loss.island = 24 then
    .next { (List.range 24).foldl (fun s n => if s.topo.live n then (s.enterHold n).modIsl n fun x => { x with orphan := true } else s) s with
      rootLost := true }
  else if !s.topo.live loss.island then .next s
  else if loss.side = 1 then
    .next ((s.clockChildren loss.island).foldl State.loseReference (s.modIsl loss.island fun x => { x with txFailed := true }))
  else .next ((s.loseReference loss.island).modIsl loss.island fun x => { x with rxFailed := x.rxFailed || loss.side == 2 })

/-- `REROOT` (R172): a tree that changes the parents of orphaned islands only, over links other than those lost and from no forwarder whose
transmit side has failed; an orphan that no link reaches, or whose receive side has failed, is not live in the new table. -/
def execReroot (s : State) : Out :=
  let tops := (List.range 24).filter fun n => s.topo.live n && !(s.isl n).reference
  if s.update.isSome || s.boot.starting || s.rootLost || tops.isEmpty then .next s
  else
    let t := s.topo.without fun n => (s.isl n).rxFailed
    .next (s.sendTable (t.reTree (fun n => tops.any fun m => s.descends m 9 n) s.badClock) false)

/-- An island whose parent's reference is there: not lost since the parent was committed, and node 24's, or that of an island that is locked
and forwards. -/
def State.hasReference (s : State) (n : Nat) : Bool :=
  (s.isl n).reference && !(s.isl n).rxFailed &&
    match farEnd n (s.isl n).parent with
    | some (24, _) => !s.rootLost
    | some (m, _) => s.topo.live m && !(s.isl m).inHold && !(s.isl m).txFailed
    | none => false

/-- One boundary of an island's budget periods (R394, R395): a new ALLOT takes effect. -/
def State.budgetBoundary (s : State) (island : Nat) : State :=
  (List.range 128).foldl (fun s p =>
    let u := s.part p island
    let v := s.reg .partBud (partIx p island)
    let allot := bits v 31 0
    let u' := { u with allot := allot, cur := allot, bank := min (min (u.bank + u.cur) (bits v 35 32 * allot)) 0xFFFFFFFF }
    if u = u' then s else s.setPart p island u') s

/-- Applies `n` boundaries, in order (R396). -/
def State.boundaries (s : State) (island : Nat) : Nat → State
  | 0 => s
  | n + 1 => (s.budgetBoundary island).boundaries island n

/-- Leaves HOLD (R141, R171, R220, R396): PTIME moves to panel time; ITIME is set forwards, or holds until PTIME reaches it. -/
def State.leaveHold (s : State) (n : Nat) : State :=
  let s := s.boundaries n (s.cdItime / 1000000 - s.itime n / 1000000)
  let s := if s.itime n / 1000000 < s.cdItime / 1000000 then s.gaugePeriod n else s
  let s := s.modIsl n fun x =>
    { x with
      inHold := false, lock := true, orphan := false, reference := true, ptime := s.cdItime, half := false
      itime := max x.itime s.cdItime, fast := decide (s.cdItime < x.itime) }
  s.gaugeSee n 0x30 0 none 0

/-- `ISLAND_RELOCK` (R141): in this core clock its L1s and slices refuse requests; of node 24, its reference has returned (R172). -/
def execIslandRelock (island : Nat) (s : State) : Out :=
  .next (if island = 24 then { s with rootLost := false }
    else if (s.isl island).inHold && s.topo.live island && !s.boot.starting && s.hasReference island then
      let s := s.leaveHold island
      { s with now := { s.now with relocked := island :: s.now.relocked } }
    else s)

/-- `ITIME_CATCH_UP` (R141). -/
def execItimeCatchUp (island : Nat) (s : State) : Out :=
  let x := s.isl island
  .next (if x.fast && decide (x.itime ≤ x.ptime) then s.setIsl island { x with fast := false } else s)

/-! ### Updates (R174, R175) -/

/-- `LKP_TSTAGE` (R174): ADDR is taken; GO starts an update unless one is in progress. During a start, before its first table, GO does nothing
either (DESIGN CHOICE, log 127). -/
def execLkpTstageGo (value : Nat) (s : State) : Out :=
  let s := s.setReg .lkpTstage 0 (bits value 47 6 * 2 ^ 6)
  let s := if bit value 0 then s.command .lkpTstage 0 0 else s
  if !bit value 0 || s.update.isSome || s.boot.starting then .next s
  else
    let bs := Memory.readN s.mem (lpddrAddr (bits value 47 6 * 2 ^ 6)) 1808
    .next (((s.askRouters ⟨Topology.ofBytes bs, bs, [], [], none, false, true⟩).setTupd 31 0 0).setTupd 2 0 1)

/-- `TABLE_VERIFY` (R162, R174): one router answers; an internal fault of its own rejects with cause 0x06, where no lower one applies. -/
def execTableVerify (check : RouterCheck) (s : State) : Out :=
  match s.update with
  | some u =>
    if u.asked.contains check.node then
      let cause := if s.boot.keyed.contains check.node then s.tableCause u.bytes u.fencing else 1
      .next ({ s with update := some { u with
        asked := u.asked.filter (· != check.node)
        answers := u.answers ++ [(check.node, if cause = 0 && check.fault then 6 else cause)] } }.setTupd 2 0 2)
    else .next s
  | none => .next s

/-- The table sent after a fourth rejection (R174): the table in force, or at a start the proposed one, without the rejecting site. -/
def State.fencingFor (s : State) (u : Update) (node : Nat) : Option Topology :=
  let base := if s.boot.starting then u.table else s.topo
  let t := base.without fun n => n == node || (u.fencing && !u.table.live n)
  let t := t.reTree (t.cutOff 8) s.badClock
  if node = 24 || t.nlive < 21 then none else some t

/-- An update that no fencing table can follow is given up (log 133); what waits for it is staged. -/
def State.giveUp (s : State) (u : Update) : State :=
  let s := { s with update := none }
  if u.host then s.stageOwn else (s.leftBy u.table).stageAfter fun n p => bit (u.table.portCode n p) 2

/-- After an attempt that was aborted (R174): the same table is sent again, at most three times; then the fencing table. -/
def State.nextTry (s : State) (u : Update) : State :=
  let tries := bits (s.reg .lkpTupd 0) 4 3
  if tries < 3 then ((s.askRouters u).setTupd 2 0 2).setTupd 4 3 (tries + 1)
  else match s.fencingFor u (bits (s.reg .lkpTupd 0) 12 8) with
    | some t => s.sendTable t true
    | none => s.giveUp u

/-- `TABLE_ANSWER` (R174, R176): a REJECT aborts the attempt; an aborted attempt is made again or fenced; when all accept, the commit
instant is named 2 µs ahead and the ranks of sites that leave are HELD. -/
def execTableAnswer (s : State) : Out :=
  match s.update with
  | none => .next s
  | some u =>
    match u.answers.find? fun a => a.2 != 0 with
    | some (node, cause) =>
      .next ((({ s with update := some { u with asked := [], answers := [] } }.setTupd 2 0 4).setTupd 12 8 node).setTupd 23 16 cause)
    | none =>
      if !u.asked.isEmpty || u.commitAt.isSome then .next s
      else if u.answers.isEmpty then .next (s.nextTry u)
      else .next (({ s with update := some { u with commitAt := some (s.cdItime + 2000) } }.setTupd 2 0 3).holdRanks u.table)

/-- Whether a commit changes the parent of a site or of one of its ancestors in the new table (R171). -/
def parentMoves (old new : Topology) : Nat → Nat → Bool
  | 0, _ => false
  | fuel + 1, n =>
    let p (t : Topology) : Nat := (t.sites[n]?).elim 0 fun x => x.clkpar
    p old != p new || match farEnd n (p new) with
      | some (24, _) => false
      | some (m, _) => parentMoves old new fuel m
      | none => false

/-! ### Clusters and cores that leave (R189, R390) -/

/-- Whether a cooperative grid can be held by the clusters its partition has on the island (R182, R189). -/
def State.coopPossible (s : State) (g : Grid) : Bool :=
  decide (recMinres g.record ≤ ((List.range 20).filter fun k => s.ownsCluster g.part g.island k).length) &&
    coopFits g.record (s.clusterCaps g.record g.part g.island)

/-- Cooperative grids of an island that their partition's clusters can hold. -/
def State.coopAble (s : State) (island : Nat) : List Nat :=
  (s.grids.filter fun g => g.2.island == island && recCoop g.2.record && s.coopPossible g.2).map Prod.fst

/-- Ends a cooperative grid that a permanent shrink has left without its clusters (R189): END 0x05 and a report-only record. -/
def State.coopEnds (s : State) (gid : Nat) : State :=
  let g := s.grid gid
  if !recCoop g.record || !(g.endCode == 0 || g.endCode == 3) || g.status == .released || g.status == .ended || s.coopPossible g then s
  else
    let s := s.post g.island (bareRecord 0x61 3 gid g.part 0 0)
    (s.modGrid gid fun g => { g with endCode := 5, endClass := 0x61, preempting := true }).haltGrid gid

/-- Pre-empts blocks (R189, R390): cluster groups as units at their halt; a cooperative grid whole. -/
def State.preemptBlocks (s : State) (bs : List (Nat × Block)) : State :=
  bs.foldl (fun s b =>
    if recCoop (s.grid b.2.grid).record then s.haltGrid b.2.grid else s.modBlock b.1 fun x => { x with halting := true }) s

/-- What follows when clusters or cores have left (R189, R390): the blocks there are pre-empted, and so is a cooperative grid that held one
of the clusters or can no longer be held whole. A permanent loss ends the cooperative grids among `ends`, those that could be held before
it, which it leaves without their clusters. -/
def State.afterShrink (s : State) (island : Nat) (lost : List (Nat × Block)) (ends : List Nat) : State :=
  let s := s.preemptBlocks lost
  let hit := s.grids.filter fun g => g.2.island == island && !g.2.clusters.isEmpty &&
    (g.2.clusters.any (fun k => !s.ownsCluster g.2.part island k) || !s.coopPossible g.2)
  let s := (hit.map Prod.fst).foldl State.haltGrid s
  ends.foldl State.coopEnds s

/-- Ends what a site that leaves the live set held (R176): a held grid's last report carries the class of its stop (DESIGN CHOICE, log
131). -/
def State.loseSite (s : State) (n : Nat) : State :=
  let gids := (s.grids.filter fun p => p.2.island == n && p.2.status != .ended).map Prod.fst
  let s := gids.foldl (fun s g => s.endGrid g 4) s
  { s with packets := s.packets.filter fun (p : Packet) =>
      match p.place with
      | .atRouter m | .outPort m _ | .onLink m _ | .atTarget m | .stored m => m != n
      | .retryWait _ => p.src != n
      | .offPanel _ _ => true }

/-- Changes the ports, with an event of the panel gauge for each whose state changes (R226). -/
def State.mapPorts (s : State) (f : Nat → Nat → Port → Port) : State :=
  let next := s.ports.map fun (e : Nat × Port) => (e.1, f (e.1 / 16) (e.1 % 16) e.2)
  (next.filter fun (e : Nat × Port) => (NMap.find? s.ports e.1).any fun x => x.st != e.2.st).foldl
    (fun s e => s.gaugeSee 24 0x43 (e.1 % 16) none (e.1 / 16 + e.2.st.code * 2 ^ 8)) { s with ports := next }

/-- The repair-map code of a core in a table (R161); 3, retired, at a site that is not live. -/
def Topology.code (t : Topology) (n k : Nat) : Nat := if t.live n then (t.sites[n]?).elim 0 fun y => NMap.getD y.cores k 0 else 3

/-- The WARPW code that a core has had while the panel runs, if it has had one: that of the table in force, or the one it had when it left
(R25). -/
def State.widthOf (s : State) (n k : Nat) : Option Nat :=
  if s.topo.code n k = 3 then NMap.find? s.widths (coreIx n k) else some (s.topo.code n k)

/-- The repair map in force after a commit: a core that is not retired keeps the WARPW it has had while the panel runs (R25, R161; log 106). -/
def State.keepWidths (s : State) (new : Topology) : Topology :=
  { new with sites := (new.sites.zipIdx).map fun (x : Site × Nat) =>
      if x.1.live then
        { x.1 with cores := (List.range 160).filterMap fun k =>
            let c := NMap.getD x.1.cores k 0
            let c := if c = 3 then c else (s.widthOf x.2 k).getD c
            if c = 0 then none else some (k, c) }
      else x.1 }

/-- Notes the widths of the cores that a table takes away (R25). -/
def State.noteWidths (s : State) (new : Topology) : State :=
  { s with widths := (List.range 24).foldl (fun m n =>
      if !s.topo.live n then m
      else (List.range 160).foldl (fun m k =>
        if s.topo.code n k != 3 && new.code n k == 3 then NMap.set m (coreIx n k) (s.topo.code n k) else m) m) s.widths }

/-- Whether the reference of an island, or of one above it in the tree, is lost and no new parent has been committed (R170, R171). -/
def State.lostAbove (s : State) : Nat → Nat → Bool
  | 0, _ => true
  | fuel + 1, n =>
    !(s.isl n).reference || match farEnd n (s.isl n).parent with
      | some (24, _) => s.rootLost
      | some (m, _) => s.lostAbove fuel m
      | none => true

/-- Puts a table in force (R174 to R176): the clock tree, the ports' presence, the rank routes; the blocks of a core that it retires are
pre-empted (R189). A site that leaves and a port that fails set REPLACE_REQUEST (R408, R409). -/
def State.commitTable (s : State) (u : Update) : State :=
  let old := s.topo
  let t := s.keepWidths u.table
  let gone := (List.range 24).filter fun n => old.live n && !t.live n
  let passed (n : Nat) : Bool := s.boot.starting && s.boot.results.any fun r => r.site == n && r.pass
  let leaving := (List.range 24).any fun n => (old.live n || passed n) && !t.live n
  let able (n : Nat) : List Nat := s.coopAble n
  let s := gone.foldl State.loseSite (s.noteWidths t)
  let s := { s with
    update := none, topo := { t with digest := (u.bytes.drop 1664).take 48 }
    boot := { s.boot with lastTver := t.tver } }
  let failing := s.ports.any fun e => e.2.st == .absent && t.portCode (e.1 / 16) (e.1 % 16) % 4 != 0
  let s := if leaving || failing then s.requestReplace else s
  let s := s.extendMeas 2 ((u.bytes.drop 1664).take 48)
  let s := (List.range 24).foldl (fun s n =>
    if !t.live n then s
    else
      let p := (t.sites[n]?).elim 0 fun x => x.clkpar
      let s := if !s.boot.starting && old.live n && parentMoves old t 9 n then s.enterHold n else s
      let moved := p != (s.isl n).parent
      s.modIsl n fun x =>
        { x with parent := p, cls := (t.depth 8 n).getD 0, tver := t.tver, reference := x.reference || moved }) s
  let s := (List.range 24).foldl (fun s n => s.modIsl n fun x => { x with orphan := x.orphan && s.lostAbove 9 n }) s
  let s := s.mapPorts fun n p x =>
    if t.portCode n p % 4 = 0 then { x with st := .absent } else if x.st == .absent then { x with st := .failed } else x
  let gone (n k : Nat) : Bool := t.code n k == 3 && old.code n k != 3
  let retired := (List.range 24).filter fun n => old.live n && t.live n && (List.range 160).any (gone n)
  let s := retired.foldl (fun s n => s.afterShrink n
    (s.blocks.filter fun b => b.2.island == n && !b.2.saved && !b.2.retired && gone n b.2.core) (able n)) s
  (((s.leftBy t).setTupd 2 0 (if u.fencing then 5 else 3)).rerouteRanks.gaugeSee 24 0x42 24 none t.tver).evalHeads

/-- `TABLE_COMMIT` (R174). -/
def execTableCommit (s : State) : Out :=
  match s.update with
  | some u =>
    .next (match u.commitAt with
      | some at' => if at' ≤ s.cdItime then (s.commitTable u).stageOwn else s
      | none => s)
  | none => .next s

end Sys2Proof.Machine
end

