-- ==== Sys2Proof/Machine/Fabric.lean ====
section
/-!
DEFINITION. The optical fabric (R198 to R211): ports, wavelengths, send allowances and replay; routers (R163, R206 to R208); and packets
at their targets and back at their sources (R87, R214, R218, R365 to R367, R381).
-/
namespace Sys2Proof.Machine

/-! ### Ports as they read (R204, R211) -/

/-- Sources of a mask. -/
def maskCount (m : Nat) : Nat := ((List.range 9).filter fun w => bit m w).length

/-- OPT_PSTAT (R204). -/
def State.optPstat (s : State) (n p : Nat) : Nat :=
  let x := s.port n p
  if x.st = .absent then 7
  else x.st.code + x.wlmask * 2 ^ 4 + (if x.st = .up then maskCount x.wlmask else 0) * 2 ^ 16 + (if x.spare then 2 ^ 20 else 0) +
    x.allowq * 2 ^ 24 + x.allowr * 2 ^ 32 + x.rply.length * 2 ^ 40

/-- OPT_PCTL (R204): DARKMAX, and the command bits while they read 1 (R5; log 118). -/
def State.optPctl (s : State) (n p : Nat) : Nat :=
  if (s.port n p).st = .absent then 0 else (s.port n p).darkmax * 2 ^ 4 + s.commanded .optPctl (portIx n p)

/-- OPT_PERR (R204). -/
def State.optPerr (s : State) (n p : Nat) : Nat :=
  let x := s.port n p
  if x.st = .absent then 0 else x.corr + x.uncorr * 2 ^ 24 + x.replays * 2 ^ 40 + x.fover * 2 ^ 56

/-- OPT_PFAR (R204). -/
def State.optPfar (s : State) (n p : Nat) : Nat :=
  let x := s.port n p
  if x.st = .absent then 0 else x.farNode + x.farPort * 2 ^ 8 + x.farPanel * 2 ^ 16

/-- OPT_LASA as it reads (R211): ROLE follows the port. -/
def State.optLasa (s : State) (n p k : Nat) : Nat :=
  let x := s.port n p
  if x.st = .absent then 3 * 2 ^ 40
  else s.reg .optLasa (laserIx n p k) % 2 ^ 40 +
    (if x.failedSources.contains k then 2 else if k = 8 && !bit x.wlmask 8 then 1 else 0) * 2 ^ 40

/-- OPT_LASB as it reads (R211). -/
def State.optLasb (s : State) (n p k : Nat) : Nat :=
  if (s.port n p).st = .absent then 0 else s.reg .optLasb (laserIx n p k)

/-! ### Packets and flits (R201, R202) -/

/-- Flits of a packet: its header and its payload flits (log 32). -/
def Packet.flits (p : Packet) : Nat :=
  1 + match p.kind with
    | .putData | .getData => (p.payload.length + 63) / 64
    | .launchRec => 2
    | .ratomReq => 1
    | .ratomResult => if p.ret then 1 else 0
    | _ => 0

/-- Payload bytes that a port event reports: of a `ratom` its access size (R214). -/
def Packet.bytes (p : Packet) : Nat :=
  match p.kind with
  | .putData | .getData => p.payload.length
  | .launchRec => 128
  | .ratomReq => p.len
  | .ratomResult => if p.ret then p.len else 0
  | _ => 0

/-- Flits of a class that a port's far receiver still holds or that are on their way to it: its buffer is left when the packet's next
hop, or its delivery, takes it. -/
def State.farFlits (s : State) (n p : Nat) (resp : Bool) : Nat :=
  let far := farEnd n p
  sum ((s.packets.filter fun k => k.kind.isResponse == resp && match k.place with
    | .onLink a b => a == n && b == p
    | .outPort a _ => far.any fun m => m.1 == a && k.back.head? == some m.2
    | _ => false).map Packet.flits)

/-- Node where a packet's route ends: past a fibre hop, the node of its rank, or the one that another panel's packet names. -/
def State.routeEnd (s : State) (p : Packet) : Nat → Nat → Nat
  | 0, node => node
  | left + 1, node =>
    let h := routeHop p.route (8 - (left + 1))
    if h = 15 then node
    else match farEnd node h with
      | some (m, _) => s.routeEnd p left m
      | none => if p.origin = 1 then p.rank % 32 else bits (NMap.getD s.ranks (rankKey p.job p.src p.rank) 0) 4 0

/-- Drops a packet at a node with an error notice to its source (R207); the source of a response is the node that answered (log 35). -/
def State.dropWith (s : State) (node cls : Nat) (p : Packet) : State :=
  s.replyTo p node .errorNotice fun q => { q with cls := cls, ofResp := p.kind.isResponse, record := p.record }

/-- A port changes state (R205, event 0x43 of the panel gauge). -/
def State.portTo (s : State) (n p : Nat) (st : PortState) : State :=
  (s.modPort n p fun x => { x with st := st, since := s.gaugeTime n }).gaugeSee 24 0x43 p none (n + st.code * 2 ^ 8)

/-- The reverse path of a packet at a node it has left by a port, from its reverse path at a later node. -/
def backAt (n p : Nat) : List Nat → Nat → List Nat
  | [], _ => []
  | b :: bs, m =>
    match farEnd m b with
    | some (k, q) => if k = n && q = p then bs else backAt n p bs k
    | none => []

/-- A packet as the router of a port that fails drops it: one that waits there, or whose flits its replay buffer still holds, wherever it
stands (R206). Of one that its target has answered nothing is left (log 55). -/
def Port.drops (x : Port) (n p : Nat) (k : Packet) : Option Packet :=
  let kept := x.rply.any fun f => f.2 == k.id + 1
  match k.place with
  | .outPort a b => if a = n && b = p then some k else if kept then some { k with back := backAt n p k.back a } else Option.none
  | .onLink a b | .offPanel a b =>
    if !kept then Option.none else if a = n && b = p then some k else some { k with back := backAt n p k.back a }
  | .atRouter a | .atTarget a | .stored a => if kept then some { k with back := backAt n p k.back a } else Option.none
  | .retryWait _ => Option.none

/-- A port enters FAILED (R206): the packets its replay buffer holds and those that wait to leave by it are dropped with error notices,
and a fencing table is due. -/
def State.portFails (s : State) (n p : Nat) : State :=
  let x := s.port n p
  if x.st = .failed || x.st = .absent then s
  else
    let s := (s.packets.filterMap fun k => x.drops n p k).foldl (fun s k => s.dropWith n 0x30 k) s
    let s := s.modPort n p fun x =>
      { x with rply := [], change := Option.none, changeQueue := [], dataHeld := false, markerSent := false, stuck := 0
               mgmtQ := [], mgmtOn := [] }
    (s.portTo n p .failed).requestReplace.stageOwn

/-! ### Routers (R163, R206, R208) -/

/-- A packet at a router: its next hop, its delivery, or its drop. One that came over a fibre has its remaining hops checked (R208). -/
def State.routeFrom (s : State) (p : Packet) (node : Nat) : State :=
  let h := routeHop p.route p.hop
  if 8 ≤ p.hop || h = 15 || (node == 24 && 0 < p.hop) then s.setPacket { p with place := .atTarget node }
  else if p.crossed && !s.topo.routeOk p.route (8 - p.hop) node then s.dropWith node 0x30 p
  else
    let c := s.topo.portCode node h
    if c % 4 = 0 || bit c 2 || (s.port node h).st = .failed || (s.port node h).st = .absent then s.dropWith node 0x30 p
    else s.setPacket { p with place := .outPort node h, hop := p.hop + 1 }

/-- Flits of a port's replay buffer that the far receiver has discarded and asked for again (R202). -/
def State.resent (s : State) (n p : Nat) : List (Nat × Nat) :=
  match (farEnd n p).bind fun m => (s.port m.1 m.2).asked with
  | some k => (s.port n p).rply.dropWhile fun f => f.1 != k
  | none => []

/-- A packet that enters the panel, as its own kind of packet: another panel's, or a transfer of the control die's software. -/
def outRequest (o : OutPacket) (id : Nat) (kind : PacketKind) : Packet :=
  { Packet.blank id kind o.node with
    src := if o.port.isSome then o.answers % 32 else o.node
    route := o.route, hop := o.hop, back := o.back, cmd := o.answers, job := o.job, part := o.part, rank := o.dest % 65536, win := o.win
    ofs := o.ofs, payload := if kind == .putData || kind == .getData then o.payload else [], len := o.len
    tcen := o.tcen, tcwin := o.tcwin, tcofs := o.tcofs, op := ⟨0, 0, o.aop, o.ty, o.rnd, 0, o.d, o.cmp⟩
    ret := (kind == .ratomReq || kind == .ratomResult) && o.ret, cls := o.cls, origin := if o.port.isSome then 1 else 2
    crossed := o.port.isSome, ofResp := kind == .errorNotice }

/-- Kinds of the requests and of the answers that an arriving packet names. -/
def outRequests : List PacketKind := [.putData, .getRequest, .ratomReq, .notify]
def outAnswers : List PacketKind := [.completion, .getData, .ratomResult, .errorNotice, .retryNotice]

/-- Software of the control-die cores has its answer: a class, or 0, and the bytes (R16, R207). -/
def State.toSoftware (s : State) (p : Packet) (cls : Nat) : State :=
  { s.dropPacket p.id with returned := s.returned ++ [(p.cmd, cls, p.payload)] }

/-- A transfer of the control die's software starts (R16): node 24's copy of its rank's entry, read once, its route and its windows are
checked as any source checks them (R164, R167, R365); while the rank is HELD it waits. -/
def State.softStart (s : State) (p : Packet) : State :=
  let e := NMap.getD s.ranks (rankKey p.job 24 p.rank) 0
  let room (w ofs n : Nat) : Bool := winOk (s.window p.job 24 w) && decide (ofs + n ≤ winSize (s.window p.job 24 w))
  if s.nranksOf p.job ≤ p.rank || !rankOk e then s.toSoftware p 0x31
  else if bit e 6 then s.setPacket { p with place := .retryWait 0, res := 2 ^ 32 }
  else if !s.topo.routeOk (bits e 39 8) 8 24 then s.toSoftware p 0x30
  else if !room p.win p.ofs p.len || (p.tcen && !room p.tcwin p.tcofs 16) then s.toSoftware p 0x32
  else s.routeFrom { p with route := bits e 39 8, res := bits e 39 8 } 24

/-- A packet that comes in over fibre port q of a node. -/
def State.overFibre (s : State) (node q : Nat) (p : Packet) : State :=
  let s := (s.islCount node 0x07 1).gaugeSee node 0x20 q Option.none (p.bytes + p.src * 2 ^ 9)
  let s := s.modPort node q fun x => { x with asked := Option.none }
  (s.addPacket p).routeFrom { p with back := q :: p.back } node

/-- A packet enters the panel, of at most 256 payload bytes (R14; log 117): over a fibre port with light (R208), where it answers a packet
that has left the panel, or is another panel's, for this panel or on its way through it; or at node 24, a `put` or `get` of software of
the control-die cores (R16). -/
def State.arrive (s : State) (o : OutPacket) : State :=
  if 256 < o.payload.length || (o.kind != 3 && 256 < o.len) then s
  else
    let (id, s1) := s.newId
    match o.port with
    | none =>
      match outRequests[o.kind]? with
      | some kind =>
        if o.node != 24 || 2 ≤ o.kind then s
        else
          let p := { outRequest o id kind with hop := 0, back := [] }
          (s1.addPacket p).softStart p
      | none => s
    | some q =>
      if !(o.node < 24 && (farEnd o.node q).isNone && (s.port o.node q).lit) then s
      else match (outRequests ++ outAnswers)[o.kind]? with
        | none => s
        | some kind =>
          match (if 4 ≤ o.kind then s.packet? o.answers else Option.none) with
          | some p =>
            if !(match p.place with | .offPanel _ _ => true | _ => false) || p.kind.isResponse then s1.overFibre o.node q (outRequest o id kind)
            else (s1.dropPacket p.id).overFibre o.node q { p with
              id := id, kind := kind, place := .atRouter o.node, route := o.route, hop := o.hop, back := o.back, cls := o.cls
              payload := if kind = .retryNotice then p.payload else o.payload, crossed := true
              src := if p.origin = 1 then p.rank % 32 else bits (NMap.getD s.ranks (rankKey p.job p.src p.rank) 0) 4 0 }
          | none => s1.overFibre o.node q (outRequest o id kind)

/-- `ROUTER_FORWARD` (R163): a packet at its source's router, one that a link brings to the next, or one that enters the panel; the hop used
takes the number of the port of arrival (R201). A packet whose flits the receiver has discarded waits for the replay (R202). -/
def execRouterForward (what : Forwarded) (s : State) : Out :=
  match what with
  | .entering o => .next (s.arrive o)
  | .packet id =>
  match s.packet? id with
  | some p =>
    match p.place with
    | .atRouter n => .next (s.routeFrom p n)
    | .onLink n q =>
      match farEnd n q with
      | some (m, far) =>
        if (s.resent n q).any fun f => f.2 == p.id + 1 then .next s
        else if m != 24 && !s.topo.live m then .next (s.dropWith n 0x30 p)
        else
          let s := (s.islCount m 0x07 1).gaugeSee m 0x20 far Option.none (p.bytes + p.src * 2 ^ 9)
          .next (s.routeFrom { p with back := far :: p.back } m)
      | none => .next s
    | _ => .next s
  | none => .next s

/-- Whether the far end of a port has received a management flit of a kind. -/
def State.mgmtArrived (s : State) (n p k : Nat) : Bool :=
  (s.port n p).mgmtOn.contains k && !(s.resent n p).any fun f => f.2 == 0

/-- The far end has dealt with a management flit: its buffer has room again. -/
def Port.mgmtDone (x : Port) (k : Nat) : Port := { x with mgmtOn := x.mgmtOn.erase k }.sendMgmt

/-- Whether a port may start a packet (R202, R205, R171). -/
def State.maySend (s : State) (n q : Nat) (p : Packet) : Bool :=
  let x := s.port n q
  x.st == .up && !x.dataHeld && !(s.isl n).inHold && x.rply.length + p.flits ≤ 128 &&
    decide (p.flits ≤ if p.kind.isResponse then x.allowr else x.allowq)

/-- `PACKET_SEND` (R202). -/
def execPacketSend (id : Nat) (s : State) : Out :=
  match s.packet? id with
  | some p =>
    match p.place with
    | .outPort n q =>
      if (s.port n q).st = .absent then .next (s.dropWith n 0x30 p)
      else if !s.maySend n q p then .next s
      else
        let s := s.modPort n q fun x =>
          let x := x.keep p.flits (p.id + 1)
          if p.kind.isResponse then { x with allowr := x.allowr - p.flits } else { x with allowq := x.allowq - p.flits }
        let s := (s.islCount n 0x08 1).gaugeSee n 0x21 q Option.none (p.bytes + s.routeEnd p (8 - (p.hop - 1)) n * 2 ^ 9)
        .next (s.setPacket { p with place := if (farEnd n q).isSome then .onLink n q else .offPanel n q })
    | _ => .next s
  | none => .next s

/-- `ALLOWANCE_RETURN` (R202): the far receiver gives back what has left its buffer; without light the allowances are held (R205). -/
def execAllowanceReturn (node port cls flits : Nat) (s : State) : Out :=
  .next (s.modPort node port fun x =>
    if !x.lit then x
    else if cls = 0 then { x with allowq := max x.allowq (min (x.allowq + flits) (128 - s.farFlits node port false)) }
    else { x with allowr := max x.allowr (min (x.allowr + flits) (64 - s.farFlits node port true)) })

/-- A response to another panel is that panel's own once its flits are acknowledged. -/
def State.gone (s : State) (n p : Nat) : State :=
  let x := s.port n p
  { s with packets := s.packets.filter fun k =>
      !(k.place == .offPanel n p && k.origin == 1 && !x.rply.any fun f => f.2 == k.id + 1) }

/-- Flits have been acknowledged: once no management flit is left to acknowledge, those of tables and HOLD reports have left the far end's
buffer. -/
def Port.acked (x : Port) (n : Nat) : Port :=
  let rply := x.rply.drop n
  Port.sendMgmt { x with
    rply := rply, stuck := 0, mgmtOn := if rply.any fun f => f.2 == 0 then x.mgmtOn else x.mgmtOn.filter fun k => k < 4 }

/-- `FLIT_ACKNOWLEDGE` (R202): flits that the far end has received; none without light (R205). -/
def execFlitAcknowledge (node port flits : Nat) (s : State) : Out :=
  let x := s.port node port
  let n := min flits (x.rply.length - (s.resent node port).length)
  .next (if n = 0 || !x.lit then s
    else (s.modPort node port fun x => x.acked n).gone node port)

/-- `CODEWORD_ERROR` (R202, R204): the receiver counts an uncorrectable codeword (kind 0), or finds a gap in the sequence numbers (kind 1):
it discards everything from flit `seq` on and asks for it again; a corrected codeword (kind 2) counts in CORR. -/
def execCodewordError (node : Nat) (fault : CodewordFault) (s : State) : Out :=
  .next (s.modPort node fault.port fun x =>
    if fault.kind = 2 then { x with corr := min 0xFFFFFF (x.corr + 1) }
    else { x with
      uncorr := if fault.kind = 0 then min 0xFFFF (x.uncorr + 1) else x.uncorr
      asked := some (x.asked.getD (fault.seq % 4096)) })

/-- `REPLAY_REQUEST` (R202): the flits from the named one on are sent again, in order. -/
def execReplayRequest (node port seq : Nat) (s : State) : Out :=
  let again := ((s.port node port).rply.dropWhile fun f => f.1 != seq % 4096).length
  let s := (s.modPort node port fun x => { x with replays := min 0xFFFF (x.replays + 1), stuck := x.stuck + 1 }).gaugeSee
    node 0x22 port Option.none again
  .next (match farEnd node port with
    | some m => s.modPort m.1 m.2 fun x => { x with asked := Option.none }
    | none => s)

/-- UP to RELOCK, flits staying in the replay buffer (R205). -/
def State.portRetrain (s : State) (n p : Nat) : State :=
  if (s.port n p).st = .up then
    (s.modPort n p fun x => { x with heldFar := some (x.farNode, x.farPort, x.farPanel), stuck := 0 }).portTo n p .relock
  else s

/-- `REPLAY_LIMIT` (R202, R205): sixteen replays in a row without progress. -/
def execReplayLimit (node port : Nat) (s : State) : Out :=
  .next (if 16 ≤ (s.port node port).stuck then s.portRetrain node port else s)

/-- `LIGHT_LOSS` (R205). -/
def execLightLoss (node port : Nat) (s : State) : Out := .next (s.portRetrain node port)

/-! ### Wavelengths and lasers (R198 to R200, R211) -/

/-- Sources that can carry traffic: those that carry it, and an unused healthy spare. -/
def Port.usable (x : Port) : Nat := maskCount x.wlmask + if x.spare then 1 else 0

/-- The mask after a source leaves: the spare takes its place, or the port narrows (R199). -/
def Port.without (x : Port) (source : Nat) : Port :=
  if !bit x.wlmask source then x
  else { x with
    wlmask := setBits (setBits x.wlmask source source 0) 8 8 (if x.spare || (bit x.wlmask 8 && source != 8) then 1 else 0)
    spare := false }

/-- Treats a failed source (R199): the move or the narrowing begins (R200), or only SPARE falls, or the port fails. -/
def State.treatSource (s : State) (n p source : Nat) : State :=
  let x := s.port n p
  if !bit x.wlmask source then s.modPort n p fun x => { x with spare := x.spare && source != 8 }
  else if x.usable ≤ 4 then (s.modPort n p fun x => { x with wlmask := setBits x.wlmask source source 0 }).portFails n p
  else s.modPort n p fun x => Port.pushMgmt { x with change := some (source, 0) } 2

/-- A field of OPT_FOCFG, or the value it acts as (R204). -/
def focfgField (v lo hi other : Nat) : Nat := if lo ≤ v && v ≤ hi then v else other

/-- Whether a source's pre-FEC bit error ratio over the window exceeds 10⁻ⁿ (R199): an active source has carried its share of 2^WIN
codewords of 2,720 bits, or 5,440 on a fibre port (R203); one that carries nothing has no ratio (DEDUCED, log 110). -/
def State.errorsHigh (s : State) (n p source errors : Nat) : Bool :=
  let x := s.port n p
  let v := s.reg .optFocfg n
  let fibre := (farEnd n p).isNone
  let e := if fibre then focfgField (bits v 7 4) 3 12 4 else focfgField (bits v 3 0) 3 12 5
  let sent := 2 ^ focfgField (bits v 12 8) 12 24 20 * if fibre then 5440 else 2720
  bit x.wlmask source && decide (sent < errors * maskCount x.wlmask * 10 ^ e)

/-- Whether a source's monitor photocurrent is below LASMIN per cent of the value recorded at its training (R199). -/
def State.lightLow (s : State) (n p source : Nat) : Bool :=
  match NMap.find? (s.port n p).photo source with
  | some at' => decide (100 * bits (s.reg .optLasa (laserIx n p source)) 31 16 < focfgField (bits (s.reg .optFocfg n) 23 16) 10 90 50 * at')
  | none => false

/-- A source has failed (R199): a failure during a move waits until the move ends (R200). -/
def State.failSource (s : State) (node port source : Nat) : State :=
  let x := s.port node port
  if x.st = .absent || x.failedSources.contains source || 9 ≤ source then s
  else
    let s := s.requestReplace.modPort node port fun x => { x with failedSources := x.failedSources ++ [source] }
    if x.change.isSome then s.modPort node port fun x => { x with changeQueue := x.changeQueue ++ [source] }
    else s.treatSource node port source

/-- `SOURCE_FAILURE` (R199): a measuring window of a source has ended with so many bit errors; it fails by its errors or by its light. -/
def execSourceFailure (node port : Nat) (window : SourceWindow) (s : State) : Out :=
  .next (if s.errorsHigh node port window.source window.errors || s.lightLow node port window.source then s.failSource node port window.source
    else s)

/-- e to the power x / 2⁶⁴, times 2⁶⁴: the power series of x / 16, then four squarings. -/
def expFixed (x : Nat) : Nat :=
  let y := x / 16
  let e := ((List.range 40).foldl (fun (t : Nat × Nat) k => (t.1 + t.2, t.2 * y / (2 ^ 64 * (k + 1)))) (0, 2 ^ 64)).1
  [0, 1, 2, 3].foldl (fun v _ => v * v / 2 ^ 64) e

/-- Weight of one lit second at a temperature in °C, in units of 2⁻³² seconds at 85 °C: Arrhenius's law with 0.7 eV (R211). Boltzmann's
constant, 8.617333262 × 10⁻⁵ eV/K, 0 °C = 273.15 K and the rounding down are PRESUMED (log 135). -/
def laserWeight (t : Nat) : Nat :=
  let x := 7 * 10 ^ 17 * (max t 85 - min t 85) * 2 ^ 64 / (8617333262 * 35815 * (100 * t + 27315))
  if 85 ≤ t then expFixed x / 2 ^ 32 else 2 ^ 96 / expFixed x

/-- Seconds of light of a source, and their weighted sum (R211), with one more second at a temperature. -/
def State.ageLaser (s : State) (ix temp : Nat) : State :=
  { s with boot := { s.boot with
      lit := NMap.set s.boot.lit ix (NMap.getD s.boot.lit ix 0 + 1)
      aged := NMap.set s.boot.aged ix (NMap.getD s.boot.aged ix 0 + laserWeight temp) } }

/-- HOURS of a source: its weighted hours, saturating; EOL as predicted once 1,000 hours of data exist (R211). -/
def State.lasb (s : State) (ix eol : Nat) : Nat :=
  min 0xFFFFFFFF (NMap.getD s.boot.aged ix 0 / (3600 * 2 ^ 32)) +
    (if NMap.getD s.boot.lit ix 0 < 3600000 then 0xFFFFFFFF else eol % 2 ^ 32) * 2 ^ 32

/-- `LASER_AGEING_REFRESH` (R211): a second's figures. A lit source ages by it (log 115); a failed one keeps HOURS and EOL. The first MON after the
training is the value recorded at it, and one below the floor fails its source (R199). -/
def execLaserAgeingRefresh (node port source lasa lasb : Nat) (s : State) : Out :=
  let ix := laserIx node port source
  let x := s.port node port
  if x.st = .absent then .next s
  else
    let s := s.setReg .optLasa ix (lasa % 2 ^ 40)
    if x.failedSources.contains source then .next s
    else
      let s := if x.st != .dark && x.st != .failed && bit x.wlmask source then s.ageLaser ix (bits lasa 39 32) else s
      let s := s.setReg .optLasb ix (s.lasb ix (lasb / 2 ^ 32))
      let s := if (NMap.find? x.photo source).isSome then s
        else s.modPort node port fun x => { x with photo := NMap.set x.photo source (bits lasa 31 16) }
      .next (if s.lightLow node port source then s.failSource node port source else s)

/-- `WAVELENGTH_CHANGE_REQUEST` (R200): the far end of the named port has the request and acknowledges it. -/
def execWavelengthChangeRequest (node port : Nat) (s : State) : Out :=
  .next (match (s.port node port).change with
    | some (k, 0) =>
      if s.mgmtArrived node port 2 then
        let s := s.modPort node port fun x => Port.mgmtDone { x with change := some (k, 1) } 2
        match farEnd node port with
        | some m => s.modPort m.1 m.2 fun x => x.pushMgmt 3
        | none => s
      else s
    | _ => s)

/-- `WAVELENGTH_CHANGE_ACK` (R200): the acknowledgement has come back; data is held at the next codeword boundary. -/
def execWavelengthChangeAck (node port : Nat) (s : State) : Out :=
  .next (match (s.port node port).change with
    | some (k, 1) =>
      let hold (s : State) : State := s.modPort node port fun x => { x with change := some (k, 2), dataHeld := true }
      match farEnd node port with
      | some m => if s.mgmtArrived m.1 m.2 3 then hold (s.modPort m.1 m.2 fun x => x.mgmtDone 3) else s
      | none => hold s
    | _ => s)

/-- The failures that waited for a move: the next one of a source still in use is a move of its own (R200). -/
def State.nextChange (s : State) (n p : Nat) : List Nat → State
  | [] => s.modPort n p fun x => { x with changeQueue := [] }
  | f :: fs =>
    let s := (s.modPort n p fun x => { x with changeQueue := fs }).treatSource n p f
    if (s.port n p).change.isSome || (s.port n p).st = .failed then s else s.nextChange n p fs

/-- A port with fewer than 4 active sources fails (R199, R205). -/
def State.checkSources4 (s : State) (n p : Nat) : State := if maskCount (s.port n p).wlmask < 4 then s.portFails n p else s

/-- The mask of one end of a link as the other end takes it over: a source of its own that has failed stays out of service (R199). -/
def Port.takeMask (z : Port) (mask : Nat) : Port :=
  let m := z.failedSources.foldl (fun m k => setBits m k k 0) mask
  { z with wlmask := m, spare := z.spare && !bit m 8 }

/-- `WAVELENGTH_CHANGE_COMPLETE` (R200): the new mask is in force in both directions, and data resumes; the failures that waited are
treated. -/
def execWavelengthChangeComplete (node port : Nat) (s : State) : Out :=
  let x := s.port node port
  match x.change with
  | some (k, 2) =>
    let y := x.without k
    let s := s.modPort node port fun _ =>
      { y with change := Option.none, dataHeld := false, fover := min 0xFF (y.fover + 1) }
    let s := match farEnd node port with
      | some (m, q) => (s.modPort m q fun z => z.takeMask y.wlmask).checkSources4 m q
      | none => s
    let s := (s.gaugeSee node 0x23 port Option.none k).checkSources4 node port
    .next (if (s.port node port).st = .failed then s else s.nextChange node port x.changeQueue)
  | _ => .next s

/-! ### Port states (R205) -/

/-- `DRAIN` (R205): ignored unless UP; the marker is due behind every data flit already accepted. -/
def execDrain (node port : Nat) (s : State) : Out :=
  let s := s.command .optPctl (portIx node port) 0
  .next (if (s.port node port).st = .up then
      (s.modPort node port fun x => { x with mgmtQ := x.mgmtQ ++ [1], markerSent := true }).portTo node port .draining
    else s)

/-- `DRAIN_MARKER` (R205): the named port sends the marker that is due; then its far end receives it, behind the data flits, and
acknowledges it. -/
def execDrainMarker (node port : Nat) (s : State) : Out :=
  let onWay := s.packets.any fun p => match p.place with
    | .onLink a b => a == node && b == port
    | _ => false
  .next (if (s.port node port).mgmtQ.contains 1 then s.modPort node port Port.sendMgmt
    else if onWay || (s.port node port).st != .draining || !s.mgmtArrived node port 1 then s
    else s.modPort node port fun x => { x.mgmtDone 1 with markerSent := false })

/-- `DRAIN_MARKER_ACK` (R205, R171). -/
def execDrainMarkerAck (node port : Nat) (s : State) : Out :=
  let x := s.port node port
  .next (if x.st = .draining && !x.markerSent && x.rply.isEmpty && !(s.isl node).inHold then s.portTo node port .drained else s)

/-- `DARK` (R205): the allowances and the far end's identity are held. -/
def execDark (node port : Nat) (s : State) : Out :=
  let s := s.command .optPctl (portIx node port) 1
  .next (if (s.port node port).st = .drained then
      (s.modPort node port fun x => { x with heldFar := some (x.farNode, x.farPort, x.farPanel) }).portTo node port .dark
    else s)

/-- `DARKMAX_EXPIRY` (R205). -/
def execDarkmaxExpiry (node port : Nat) (s : State) : Out :=
  let x := s.port node port
  .next (if x.st = .dark && decide (x.since + 1000000 * max 1 x.darkmax ≤ s.gaugeTime node) then s.portFails node port else s)

/-- `RELOCK` (R205): ignored unless DARK or FAILED. -/
def execRelock (node port : Nat) (s : State) : Out :=
  let s := s.command .optPctl (portIx node port) 2
  let st := (s.port node port).st
  .next (if st = .dark || st = .failed then s.portTo node port .relock else s)

/-- OPT_PERR cleared. -/
def Port.clearErrors (x : Port) : Port := { x with corr := 0, uncorr := 0, replays := 0, fover := 0 }

/-- `CLRERR` (R204). -/
def execClrerr (node port : Nat) (s : State) : Out :=
  .next ((s.command .optPctl (portIx node port) 3).modPort node port Port.clearErrors)

/-- `PORT_TRAINED` (R205): the held identity keeps its allowances; a new far end resets them, and an undelivered flit fails the port, as
do fewer than 4 usable sources. -/
def execPortTrained (node port farNode farPort farPanel : Nat) (s : State) : Out :=
  let x := s.port node port
  let far := (farNode % 32, farPort % 16, farPanel % 65536)
  let up (s : State) : State :=
    (s.modPort node port fun x => { x with asked := Option.none }).portTo node port .up |>.modPort node port Port.sendMgmt
  if x.st != .relock then .next s
  else if maskCount x.wlmask < 4 then .next (s.portFails node port)
  else if x.heldFar.getD (x.farNode, x.farPort, x.farPanel) = far then .next (up s)
  else
    let s := s.modPort node port fun x => { x with farNode := far.1, farPort := far.2.1, farPanel := far.2.2, heldFar := some far }
    .next (if x.rply.isEmpty then up (s.modPort node port fun x => { x with allowq := 128, allowr := 64 })
      else s.portFails node port)

/-- `RELOCK_TIMEOUT` (R205). -/
def execRelockTimeout (node port : Nat) (s : State) : Out :=
  let x := s.port node port
  .next (if x.st = .relock && decide (x.since + 1000000 ≤ s.gaugeTime node) then s.portFails node port else s)

/-! ### At the target (R87, R365 to R367, R381) -/

/-- A window of the target, with room for `n` bytes at an offset (R364, R365): its ASID and the address. -/
def State.targetWindow (s : State) (p : Packet) (node win ofs n : Nat) : Option (EngSite × Nat) :=
  let e := s.window p.job node win
  if winOk e && decide (ofs + n ≤ winSize e) then some (⟨node, Option.none, winAsid e, p.warp, some p.id, p.part⟩, (winBase e + ofs) % 2 ^ 48) else Option.none

/-- A packet meets a page fault at its target (R381): it is stored and recorded, or goes back as a retry notice. -/
def State.parkPacket (s : State) (p : Packet) (node asid win cls va : Nat) (write : Bool) : State :=
  let stored := (s.packets.filter fun k => k.place == .stored node).length
  if stored < 256 then
    let part := ((NMap.find? s.asids (node * 4096 + asid)).getD (0, 0)).1
    let info := va / 256 * 256 + asid * 2 ^ 48 + (if write then 2 ^ 60 else 0) + 2 ^ 61
    (s.setPacket { p with place := .stored node, since := Option.none }).post node
      (bareRecord cls 1 0 part info (p.src + win % 4096 * 2 ^ 16))
  else s.replyTo p node .retryNotice fun q =>
    { q with
      payload := p.payload, since := Option.none
      cls := match p.kind with | .putData => 1 | .getRequest => 2 | _ => 3 }

/-- Goes on with what an access of a packet answers: a wait, a stall of TRANSIT (R157), a page fault, a refusal (R207). -/
def packetStep (p : Packet) (node win : Nat) (asid : Nat) (write : Bool) (r : EngOut) (k : State → List (Nat × Nat × Nat) → State) : State :=
  match r with
  | .wait s => s
  | .transit s va =>
    let t := match p.since with
      | some (t, a, v) => if a = asid && v / 65536 = va / 65536 then t else s.gaugeTime node
      | none => s.gaugeTime node
    if t + 65536 ≤ s.gaugeTime node then s.parkPacket p node asid win 0x16 va write else s.setPacket { p with since := some (t, asid, va) }
  | .page s cls va => s.parkPacket p node asid win cls va write
  | .stop s cls _ => s.dropWith node cls p
  | .ok s ps => k s ps

/-- The target addition of a packet, then its answer (R87, R214). -/
def State.targetAdd (s : State) (p : Packet) (node : Nat) (kind : PacketKind) (payload : List Byte) : State :=
  let answer (s : State) : State := s.replyTo p node kind fun q => { q with payload := payload, since := Option.none, ret := p.ret }
  if p.tcen then
    match s.targetWindow p node p.tcwin p.tcofs 16 with
    | none => s.dropWith node 0x32 p
    | some (c, va) => packetStep p node p.tcwin c.asid true (s.ctrUpdate c va (ctrAdd p.len)) fun s _ => answer s
  else answer s

/-- Checks a target counter before anything is done: the packet is refused or held whole. -/
def State.checkTarget (s : State) (p : Packet) (node : Nat) (k : State → State) : State :=
  if p.tcen then
    match s.targetWindow p node p.tcwin p.tcofs 16 with
    | none => s.dropWith node 0x32 p
    | some (c, va) => packetStep p node p.tcwin c.asid true (s.engResolve c .counter [(va, 16)]).1 fun s _ => k s
  else k s

/-- The packet of a kind that stands at its target. -/
def State.atTarget (s : State) (id : Nat) (kind : PacketKind) : Option (Packet × Nat) :=
  match s.packet? id with
  | some p => if p.kind = kind then (match p.place with | .atTarget n => some (p, n) | _ => Option.none) else Option.none
  | none => Option.none

/-- `PUT_PACKET_AT_TARGET` (R87, R365): the payload is written, then the counter gains its bytes; `ret` stands for a payload
already written. -/
def execPutPacketAtTarget (id : Nat) (s : State) : Out :=
  match s.atTarget id .putData with
  | none => .next s
  | some (p, n) =>
    .next (if p.ret then s.targetAdd p n .completion []
      else match s.targetWindow p n p.win p.ofs p.payload.length with
        | none => s.dropWith n 0x32 p
        | some (c, va) =>
          packetStep p n p.win c.asid true (s.engResolve c .write [(va, p.payload.length)]).1 fun s _ =>
          s.checkTarget p n fun s =>
          packetStep p n p.win c.asid true (s.engAccess c .write [(va, p.payload.length)]) fun s ps =>
            let p := { p with ret := true, since := Option.none }
            ((s.engWrite c .write ps p.payload).setPacket p).targetAdd p n .completion [])

/-- `GET_REQUEST_AT_TARGET` (R366): the window's bytes return in the response class. -/
def execGetRequestAtTarget (id : Nat) (s : State) : Out :=
  match s.atTarget id .getRequest with
  | none => .next s
  | some (p, n) =>
    .next (match s.targetWindow p n p.win p.ofs p.len with
      | none => s.dropWith n 0x32 p
      | some (c, va) => packetStep p n p.win c.asid false (s.engAccess c .read [(va, p.len)]) fun s ps =>
          s.replyTo p n .getData fun q => { q with payload := s.engBytes ps, since := Option.none })

/-- `RATOM_AT_TARGET` (R87, R366, R367): one RMW at the home slice, then the addition; the old value returns. -/
def execRatomAtTarget (id : Nat) (s : State) : Out :=
  match s.atTarget id .ratomReq with
  | none => .next s
  | some (p, n) =>
    .next (if !p.payload.isEmpty then s.targetAdd p n .ratomResult p.payload
      else match s.targetWindow p n p.win p.ofs p.len with
        | none => s.dropWith n 0x32 p
        | some (c, va) =>
          packetStep p n p.win c.asid true (s.engResolve c .ratom [(va, p.len)]).1 fun s _ =>
          s.checkTarget p n fun s =>
          packetStep p n p.win c.asid true (s.engAccess c .ratom [(va, p.len)]) fun s ps =>
            let old := s.engBytes ps
            let s := match p.op.new (valueOf old) with
              | some v => s.engWrite c .ratom ps (bytesOf p.len v)
              | none => s
            let s := s.farSeen c ps
            let p := { p with payload := old, since := Option.none }
            (s.setPacket p).targetAdd p n .ratomResult old)

/-- `NOTIFY_ADDITION` (R218): a refusal returns an error notice. -/
def execNotifyAddition (id : Nat) (s : State) : Out :=
  match s.atTarget id .notify with
  | none => .next s
  | some (p, n) =>
    if n = 24 then .next (s.dropWith n 0x32 p)
    else
      let r := s.notifyAdd n p.ofs p.len p.part
      .next (if r.2 then r.1.dropPacket id else r.1.dropWith n 0x32 p)

/-! ### Back at the source (R207, R214, R366, R367, R381) -/

/-- One packet of a command is answered; its command is gone once its grid has ended. -/
def State.answered (s : State) (p : Packet) : State :=
  match s.cmdOf p.cmd with
  | some (wid, _) => (s.modWarp wid fun w => w.modCmd p.cmd fun c => { c with inFlight := c.inFlight - 1 }).dropPacket p.id
  | none => s.dropPacket p.id

/-- The site of a packet's source: its warp's core while the command is there. -/
def State.sourceSite (s : State) (p : Packet) (node : Nat) : EngSite :=
  if (s.cmdOf p.cmd).isSome then s.warpSite p.warp else ⟨node, Option.none, p.asid, p.warp, some p.id, p.part⟩

/-- Goes on with an access at the source; a command meets its faults as any other access of its own does (R347). Where the command is gone,
the packet waits for the page while its grid lives (DESIGN CHOICE, log 134). -/
def State.sourceStep (s : State) (p : Packet) (r : EngOut) (write : Bool) (k : State → List (Nat × Nat × Nat) → State) : State :=
  match s.cmdOf p.cmd with
  | some (wid, c) => if c.lineFault.isSome then s else engineStep wid c write r k
  | none =>
    match r with
    | .ok s ps => k s ps
    | .wait s | .transit s _ => s
    | .page s _ _ => if (NMap.find? s.grids p.grid).isSome then s else s.dropPacket p.id
    | .stop s _ _ => s.dropPacket p.id

/-- Adds a packet's bytes to its source counter, where it names one. -/
def State.sourceAdd (s : State) (p : Packet) (node : Nat) (k : State → State) : State :=
  if p.scen then s.sourceStep p (s.ctrUpdate (s.sourceSite p node) p.scva (ctrAdd p.len)) true fun s _ => k s else k s

/-- An answer at its source: a transfer of this panel's own units goes on with `k`; software has it returned; another panel's is not here. -/
def State.atSource (s : State) (p : Packet) (cls : Nat) (k : State) : State :=
  if p.origin = 0 then k else if p.origin = 2 then s.toSoftware p cls else s.dropPacket p.id

/-- `SOURCE_COUNTER_ADVANCE` (R214): after the target addition the source counter gains the packet's bytes. -/
def execSourceCounterAdvance (id : Nat) (s : State) : Out :=
  match s.atTarget id .completion with
  | none => .next s
  | some (p, n) => .next (s.atSource p 0 (s.sourceAdd p n fun s => s.answered p))

/-- `GET_DATA_RETURN` (R366): the bytes are written locally, then the counter gains them. -/
def execGetDataReturn (id : Nat) (s : State) : Out :=
  match s.atTarget id .getData with
  | none => .next s
  | some (p, n) =>
    .next (s.atSource p 0 (match s.cmdOf p.cmd with
    | none => s.dropPacket id
    | some (wid, c) =>
      if p.ret then s.sourceAdd p n fun s => s.answered p
      else
        let site := s.warpSite wid
        let va := (recVA c.brec.toNat ((c.sv.getD 2 0 : Nat) : Int) + (p.ofs - xferRofs c.sv)) % 2 ^ 48
        s.sourceStep p (s.engAccess site .write (cutAt 256 va p.payload.length 3)) true fun s ps =>
          let p := { p with ret := true }
          ((s.engWrite site .write ps p.payload).setPacket p).sourceAdd p n fun s => s.answered p))

/-- RES of a `ratom` receives the old value, zero-extended; the packet then only has the counter's addition to make. -/
def State.ratomRes (s : State) (wid : Nat) (p : Packet) : State :=
  (s.modWarp wid fun w => w.writeS p.res (BitVec.ofNat 64 (valueOf p.payload))).setPacket { p with ret := false }

/-- `RATOM_RESULT_RETURN` (R367, R99): RES receives the old value, then the counter gains 4 or 8; a result of another GEN writes nothing. -/
def execRatomResultReturn (id : Nat) (s : State) : Out :=
  match s.atTarget id .ratomResult with
  | none => .next s
  | some (p, n) =>
    .next (s.atSource p 0 (match s.cmdOf p.cmd with
    | none => s.sourceAdd p n fun s => s.dropPacket id
    | some (wid, _) =>
      if p.ret && p.gen != (s.warp wid).gen.toNat then s.answered p
      else (if p.ret then s.ratomRes wid p else s).sourceAdd { p with ret := false } n fun s => s.answered p))

/-- Posts a notice's class for the issuing warp, which stops (R207, R347). A warp that has stopped takes no second stop, but its record is
posted (log 61). -/
def State.postNotice (s : State) (p : Packet) : State :=
  let info0 := p.rank + p.win * 2 ^ 16
  let route := match s.cmdOf p.cmd with
    | some (_, c) => bits c.rankEntry 39 8
    | none => p.res
  let at' : PC × Nat := match s.cmdOf p.cmd with
    | some (_, c) => (c.pc, c.ovl)
    | none => (⟨p.scva % 4, p.scva / 4 % 8192⟩, p.asid)
  if (s.warp p.warp).stopped then
    let s := s.post (s.block (s.warp p.warp).block).island (warpRecord s (s.warp p.warp) p.cls 2 0 at'.1 at'.2 info0 route 0)
    s.modWarp p.warp fun w => w.dropCmd p.cmd
  else match s.cmdOf p.cmd with
    | some (wid, c) => s.engineStop wid c p.cls info0 route
    | none => s.stopWarp p.warp p.cls 0 ⟨p.scva % 4, p.scva / 4 % 8192⟩ p.asid p.rank route

/-- Posts the class of a `notify` that is refused once its warp's block has retired (R207, R218): the record names the place of its issue,
and the grid ends or is held as by any warp-stopping fault (R378). -/
def State.lateNotice (s : State) (p : Packet) : State :=
  let g := s.grid p.grid
  let r : List Word :=
    [pack [(p.cls, 0), (2, 8), (p.issuer.1, 16), (p.issuer.2.1, 24), (p.grid, 32), (g.part, 48)],
     pack [(p.scva % 4, 0), (p.scva / 4 % 8192, 2), (p.asid, 16), (p.issuer.2.2.1, 32)],
     pack [(p.issuer.2.2.2, 32), (p.gen, 56)], BitVec.ofNat 64 p.rank, BitVec.ofNat 64 p.res, 0, 0, 0]
  (s.post g.island r).stopGrid p.grid p.cls

/-- `ERROR_NOTICE` (R207): ERR of the source counter, and the class for the issuing warp; discarded once the grid has ended. A page fault of
the counter is the command's own: the notice waits at it (R347). A launch record that was dropped sets out again (log 34); a notice for a
response names no transfer of its receiver's (log 35). -/
def execErrorNotice (id : Nat) (s : State) : Out :=
  match s.atTarget id .errorNotice with
  | none => .next s
  | some (p, n) =>
    if p.ofResp then .next (s.dropPacket id)
    else if p.origin != 0 then .next (s.atSource p p.cls s)
    else if !p.record.isEmpty then
      let q : Packet := { Packet.blank p.id .launchRec 24 with
        route := bits (s.hostRank p.record) 39 8, grid := p.grid, part := p.part, record := p.record, len := 128 }
      .next (if (NMap.find? s.grids p.grid).isSome then s.setPacket q else s.dropPacket id)
    else if (NMap.find? s.grids p.grid).isNone then .next (s.dropPacket id)
    else if (NMap.find? s.warps p.warp).isNone then .next ((s.lateNotice p).dropPacket id)
    else if (s.block (s.warp p.warp).block).saved then .next s
    else
      let stop (s : State) : State := (s.postNotice p).dropPacket id
      if p.scen then
        if (s.cmdOf p.cmd).isSome then
          .next (s.sourceStep p (s.ctrUpdate (s.sourceSite p n) p.scva ctrErr) true fun s _ => stop s)
        else match s.ctrUpdate (s.sourceSite p n) p.scva ctrErr with
          | .wait s | .transit s _ | .page s _ _ => .next s
          | .ok s _ | .stop s _ _ => .next (stop s)
      else .next (stop s)

/-- `RETRY_NOTICE` (R381): the source takes the packet back. -/
def execRetryNotice (id : Nat) (s : State) : Out :=
  match s.atTarget id .retryNotice with
  | none => .next s
  | some (p, n) =>
    let kind : PacketKind := if p.cls = 1 then .putData else if p.cls = 2 then .getRequest else .ratomReq
    if p.origin = 1 then .next (s.dropPacket id)
    else if p.origin = 2 then
      .next (s.setPacket { p with
        kind := kind, src := n, route := p.res, hop := 0, back := [], cls := 0, place := .retryWait (s.gaugeTime n + 16000) })
    else match s.cmdOf p.cmd with
    | some (_, c) =>
      .next (s.setPacket { p with
        kind := kind, src := n, route := bits c.rankEntry 39 8, hop := 0, back := [], cls := 0, place := .retryWait (s.gaugeTime n + 16000) })
    | none => .next (s.dropPacket id)

/-- `RETRY_RESEND` (R381): 16 µs later it is sent again; a transfer of software that has found its rank HELD starts anew (R167). -/
def execRetryResend (id : Nat) (s : State) : Out :=
  match s.packet? id with
  | some p =>
    .next (match p.place with
      | .retryWait t =>
        if p.origin = 2 && p.res = 2 ^ 32 then s.softStart p
        else if t ≤ s.gaugeTime p.src then s.setPacket { p with place := .atRouter p.src } else s
      | _ => s)
  | none => .next s

end Sys2Proof.Machine
end

