-- ==== Sys2Proof/Machine/MapKeeper.lean ====
section
/-!
DEFINITION. The Map Keeper: request rings (R152, R153), request records and their checks (R154, R156), the operations (R155), changes of
type through TRANSIT (R137, R157), aliases (R158), migration through the dual-home window (R139), and address spaces (R148).
-/
namespace Sys2Proof.Machine

/-! ### Rings (R152) -/

/-- Records of a request ring. -/
def State.rqSize (s : State) (p island : Nat) : Nat := 2 ^ (min (bits (s.reg .mapkRqbase (partIx p island)) 63 60) 8 + 4)
/-- Index of the next record that the Map Keeper serves. A record names no island: a partition has a ring for each island, and its
records concern the ring's island (DESIGN CHOICE, log 95). -/
def State.rqHead (s : State) (p island : Nat) : Nat := s.reg .mapkRqhead (partIx p island)
def State.rqTail (s : State) (p island : Nat) : Nat := s.reg .mapkRqtail (partIx p island)

/-- `MAPK_RQTAIL` (R152): a value that would give up a record, or that is no index, is ignored. -/
def execMapkRqtailWrite (part island value : Nat) (s : State) : Out :=
  let n := s.rqSize part island
  let h := s.rqHead part island
  let t := s.rqTail part island
  let v := value % 65536
  .next (if v < n && (t + n - h % n) % n ≤ (v + n - h % n) % n then s.setReg .mapkRqtail (partIx part island) v else s)

/-- `MAPK_RQBASE` (R152): ignored while records wait. HEAD and TAIL keep their value, also where LOG2N falls below it (DESIGN CHOICE, log
96). -/
def execMapkRqbaseWrite (part island value : Nat) (s : State) : Out :=
  .next (if s.rqHead part island = s.rqTail part island then
      s.setReg .mapkRqbase (partIx part island) (bits value 47 6 * 2 ^ 6 + bits value 63 48 * 2 ^ 48)
    else s)

/-! ### Records (R154) -/

def reqOp (r : List Word) : Nat := recBits r 0 7 0
def reqLog (r : List Word) : Nat := [16, 21, 26].getD (recBits r 0 11 8) 16
def reqAsid (r : List Word) : Nat := recBits r 0 27 16
def reqVa (r : List Word) : Nat := recBits r 1 47 0
def reqCount (r : List Word) : Nat := recBits r 2 31 0
def reqCtype (r : List Word) : Nat := recBits r 3 1 0
def reqLcls (r : List Word) : Nat := recBits r 3 3 2
def reqRwx (r : List Word) : Nat := recBits r 3 6 4
def reqAlias (r : List Word) : Bool := recBits r 3 7 7 == 1
def reqOwner (r : List Word) : Nat := recBits r 3 15 8
def reqIsland (r : List Word) : Nat := recBits r 3 20 16
def reqSrcVa (r : List Word) : Nat := recBits r 4 47 0
def reqSrcAsid (r : List Word) : Nat := recBits r 4 59 48

/-- Bytes of the range. -/
def reqBytes (r : List Word) : Nat := reqCount r * 2 ^ reqLog r

/-- Virtual addresses of the pages of a range. -/
def reqPages (r : List Word) (base : Nat) : List Nat := (List.range (reqCount r)).map fun k => base + k * 2 ^ reqLog r

/-! ### What is mapped -/

/-- Mapped pages of an address space that meet a range. -/
def State.mapsIn (s : State) (island asid va n : Nat) : List MapEntry :=
  s.maps.filter fun m => m.island == island && m.asid == asid && m.va < va + n && va < m.va + 2 ^ m.sizeLog

/-- Where a ring's head record stands: translated in RQASID, or in LPDDR6 where RQASID maps nothing at BASE (log 36). -/
def State.rqSite (s : State) (p island : Nat) : EngSite × Nat :=
  let b := s.reg .mapkRqbase (partIx p island)
  let asid := bits b 59 48
  let base := bits b 47 6 * 64
  (⟨if (s.mapsIn island asid base 1).isEmpty then 24 else island, none, asid, 0, none, p⟩, (base + 64 * s.rqHead p island) % 2 ^ 48)

/-- The leaf entry of a mapped page, and its frame's address. -/
def State.leafOf (s : State) (m : MapEntry) : Nat := s.tableEntry m.island m.pa
def State.frameOf (s : State) (m : MapEntry) : Nat := bits (s.leafOf m) 54 32 * 65536

/-- Mapped pages of an island whose frames meet a range of physical addresses: the aliases of R158. -/
def State.mapsOf (s : State) (island pa n : Nat) : List MapEntry :=
  s.maps.filter fun m => m.island == island && s.frameOf m < pa + n && pa < s.frameOf m + 2 ^ m.sizeLog

/-- Frames of the allocator that a range of physical addresses meets. -/
def State.framesIn (s : State) (island pa n : Nat) : List Frame :=
  s.frames.filter fun f => f.island == island && f.pa < pa + n && pa < f.pa + f.size

/-- Distinct frames behind mapped pages. -/
def State.framesBehind (s : State) (ms : List MapEntry) : List Frame :=
  (ms.flatMap fun m => s.framesIn m.island (s.frameOf m) (2 ^ m.sizeLog)).eraseDups

/-- The physical address of a virtual address that is mapped. -/
def State.paOf (s : State) (island asid va : Nat) : Option Nat :=
  (s.mapsIn island asid va 1).head?.map fun m => s.frameOf m + (va - m.va)

/-- The contiguous, aligned frame that an alias page of `k` bits takes from a source range. -/
def State.srcFrame (s : State) (island asid va k : Nat) : Option Nat :=
  match s.paOf island asid va with
  | some pa =>
    if pa % 2 ^ k = 0 && (List.range (2 ^ (k - 16))).all fun i => s.paOf island asid (va + i * 65536) == some (pa + i * 65536)
    then some pa else none
  | none => none

/-- Mapped pages on frames of an island. -/
def State.leavesOn (s : State) (island : Nat) (fs : List Frame) : List MapEntry := (fs.flatMap fun f => s.mapsOf island f.pa f.size).eraseDups

/-- Frames that pages stand on, with those that an alias over several of them ties to them: a CHTYPE or a MIGRATE of one is of all
(R158). -/
def State.tiedFrames (s : State) (island : Nat) (ms : List MapEntry) : List Frame := s.framesBehind (s.leavesOn island (s.framesBehind ms))

/-- The stretch that a frame moves with: the largest page over it, or the frame itself. -/
def State.stretchOf (s : State) (island : Nat) (f : Frame) : Frame :=
  (s.mapsOf island f.pa f.size).foldl (fun (g : Frame) m => if g.size < 2 ^ m.sizeLog then Frame.mk island (s.frameOf m) (2 ^ m.sizeLog) f.part else g) f

/-- The stretches of some frames, each once. -/
def State.stretches (s : State) (island : Nat) (fs : List Frame) : List Frame :=
  fs.foldl (fun l f => let g := s.stretchOf island f; if l.any fun x => x.pa == g.pa then l else l ++ [g]) []

/-- A page in TRANSIT or in a dual-home window. -/
def State.inChange (s : State) (m : MapEntry) : Bool := leafTransit (s.leafOf m) || leafDH (s.leafOf m)

/-! ### The checks (R156) -/

/-- An ASIDPUT of the address space is under way. -/
def State.putting (s : State) (island asid : Nat) : Bool :=
  s.mapJobs.any fun j => j.op == 7 && !j.answer && j.island == island && j.asid == asid

/-- The partition that holds an ASID, within a requester's reach (R152); none once an ASIDPUT of it has begun. -/
def State.reach (s : State) (p island asid : Nat) : Option Nat :=
  if s.putting island asid then none else match NMap.find? s.asids (island * 4096 + asid) with
  | some (q, _) => if (s.lineage q).contains p then some q else none
  | none => none

/-- Bytes of frames that a partition holds on an island. -/
def State.frameBytes (s : State) (p island : Nat) : Nat :=
  sum ((s.frames.filter fun f => f.island == island && f.part == p).map fun f => f.size)

/-- Bytes of a partition's share: partition 0 holds the whole island (R391). Its frames do not lie in the Map Keeper's region, which
bounds them through `freeFrame`. -/
def State.hbmShare (s : State) (p island : Nat) : Nat :=
  if p = 0 then hbmSize else bits (s.reg .partShare (partIx p island)) 29 16 * 2 ^ 26

/-- Bytes left in a partition's share beside its own frames and its children's shares (R393). -/
def State.hbmFree (s : State) (p island : Nat) : Nat :=
  s.hbmShare p island - s.frameBytes p island - sum ((s.childrenOf p).map fun c => s.hbmShare c island)

/-- The lowest free place for a frame of an island, aligned to its size. -/
def State.freeFrame (s : State) (island size : Nat) : Option Nat :=
  let mine := s.frames.filter fun f => f.island == island
  let up (a : Nat) : Nat := (a + size - 1) / size * size
  let fits (a : Nat) : Bool := a + size ≤ hbmSize && mine.all fun f => f.pa + f.size ≤ a || a + size ≤ f.pa
  ((up mapkRegion :: mine.map fun f => up (f.pa + f.size)).filter fits).min?

/-- Counts what the Map Keeper itself reads or writes in HBM4E, in lines of 64 bytes; the L2 may take it (R223, log 20). -/
def State.mapkRead (s : State) (island lines : Nat) : State :=
  let (k, s) := s.free
  s.islCount island 3 (k % 2 * lines)
def State.mapkWrote (s : State) (island lines : Nat) : State :=
  let (k, s) := s.free
  s.islCount island 4 (k % 2 * lines)

/-- Takes frames of one size for a partition, filled with zero; none where no place is left. -/
def State.takeFrames (s : State) (island size p : Nat) : Nat → Option (List Nat × State)
  | 0 => some ([], s)
  | n + 1 =>
    match s.freeFrame island size with
    | some pa =>
      let s := (s.clearMem (hbmAddr island pa) size).setWritten (hbmAddr island pa / 4) (size / 4) false
      let s := ({ s with frames := s.frames ++ [⟨island, pa, size, p⟩] } : State).mapkWrote island (size / 64)
      match s.takeFrames island size p n with
      | some (l, s) => some (pa :: l, s)
      | none => none
    | none => none

/-- Whether an island has places for frames of the sizes given. -/
def State.roomFor (s : State) (island : Nat) : List Frame → Bool
  | [] => true
  | f :: fs =>
    match s.freeFrame island f.size with
    | some pa => ({ s with frames := s.frames ++ [⟨island, pa, f.size, f.part⟩] } : State).roomFor island fs
    | none => false

/-- A core that a PRIV page may name as its OWNER (R156). -/
def State.ownerOk (s : State) (island p core : Nat) : Bool :=
  core ≤ 159 && s.coreCode island core != 3 && bit (s.clmask p island) (core / 8)

/-- Queued or resident grids of an address space on an island. A grid that is parked or held counts until it has ended: it can become
resident again (DESIGN CHOICE, log 125). -/
def State.asidUsed (s : State) (island asid : Nat) : Bool :=
  (s.grids.any fun g => g.2.status != .ended && g.2.island == island && g.2.asid == asid) ||
    s.queueRecs.any fun q => recAsid q.words == asid && bits (s.hostRank q.words) 4 0 == island

/-- Whether an address space may stand on an island for a partition: it does so already, or it is free there (log 37). -/
def State.asidOn (s : State) (island asid p : Nat) : Bool :=
  match NMap.find? s.asids (island * 4096 + asid) with
  | some (q, _) => q == p
  | none => !s.putting island asid

/-- Reserved fields of a record that must be zero, and STATUS. -/
def reqReserved (r : List Word) : Bool :=
  recBits r 0 15 12 == 0 && recBits r 0 31 28 == 0 && recBits r 1 63 48 == 0 && recBits r 2 63 32 == 0 && recBits r 3 63 21 == 0 &&
    recBits r 4 63 60 == 0 && recBits r 5 63 0 == 0 && recBits r 6 7 0 == 0

/-- CAUSE of a rejection, in the order of R156; 0 where the request is carried out. A MIGRATE to a node that is no live island names frames
that the partition cannot hold: 0x01 (DESIGN CHOICE, log 98). Source frames that make no contiguous, aligned page are answered with 0x01
(DESIGN CHOICE, log 122), a source address that is not aligned with 0x05 (DESIGN CHOICE, log 123). VA and COUNT of ASIDGET and ASIDPUT
are not tested (DESIGN CHOICE, log 124). An alias between two partitions of the reach is accepted (DESIGN CHOICE, log 126). A CHTYPE
gives all leaves of the frames it changes one OWNER, so that it never meets 0x04. -/
def State.reqCause (s : State) (p island : Nat) (r : List Word) : Nat :=
  let op := reqOp r
  let n := reqBytes r
  let ranged := 1 ≤ op && op ≤ 5
  let als := op == 1 && reqAlias r
  let size := 2 ^ reqLog r
  let asid := reqAsid r
  let ms := s.mapsIn island asid (reqVa r) n
  let frames := if op == 4 || op == 5 then s.tiedFrames island ms else s.framesBehind ms
  let srcs := if als then s.mapsIn island (reqSrcAsid r) (reqSrcVa r) n else []
  let fit (pa : Nat) : Option Nat := s.srcFrame island (reqSrcAsid r) pa (reqLog r)
  let moved := if op == 4 || op == 5 then s.leavesOn island frames else []
  let away := op == 5 && reqIsland r != island
  let mine (f : Frame) : Bool := (s.lineage f.part).contains p && mapkRegion ≤ f.pa
  if op = 0 || 7 < op || 2 < recBits r 0 11 8 || !reqReserved r then 0x0A
  else if ranged && (reqVa r % size != 0 || reqCount r = 0 || 65536 < reqCount r || 2 ^ 48 < reqVa r + n ||
      (als && (reqSrcVa r % size != 0 || 2 ^ 48 < reqSrcVa r + n))) then 0x05
  else if (op != 6 && (s.reach p island asid).isNone) || (als && (s.reach p island (reqSrcAsid r)).isNone) ||
      (away && !moved.all fun m => s.asidOn (reqIsland r) m.asid ((s.reach 0 island m.asid).getD 0)) then 0x09
  else
    let q := (s.reach p island asid).getD p
    if (2 ≤ op && op ≤ 5 && !frames.all mine) || (op == 5 && !s.topo.live (reqIsland r)) ||
        (als && (!(s.framesBehind srcs).all mine || (reqPages r (reqSrcVa r)).any fun a => (fit a).isNone)) then 0x01
    else if (op == 1 || op == 4) && reqCtype r == 3 && !s.ownerOk island q (reqOwner r) then 0x08
    else if (ranged && (ms.any s.inChange || srcs.any s.inChange || moved.any s.inChange)) ||
        (op == 7 && (s.asidUsed island asid || s.maps.any fun m => m.island == island && m.asid == asid && s.inChange m)) then 0x07
    else if (op == 1 && !ms.isEmpty) || (away && moved.any fun m => !(s.mapsIn (reqIsland r) m.asid m.va (2 ^ m.sizeLog)).isEmpty) then 0x02
    else if 2 ≤ op && op ≤ 5 && (reqPages r (reqVa r)).any fun a => !(ms.any fun m => m.va == a && m.sizeLog == reqLog r) then 0x06
    else if als && srcs.any fun m => leafType (s.leafOf m) != reqCtype r || leafClass (s.leafOf m) != reqLcls r then 0x03
    else if als && reqCtype r == 3 && srcs.any fun m => leafOwner (s.leafOf m) != reqOwner r then 0x04
    else if op == 1 && !reqAlias r && (s.hbmFree q island < n || (s.takeFrames island size q (reqCount r)).isNone) then 0x0B
    else if op == 5 && (s.hbmFree q (reqIsland r) < sum (frames.map fun f => f.size) || !s.roomFor (reqIsland r) (s.stretches island frames)) then 0x0B
    else if op == 6 && !((List.range 4096).any fun a => (NMap.find? s.asids (island * 4096 + a)).isNone) then 0x0B
    else 0

/-! ### Tables and TLBs -/

/-- Word of the Map Keeper's region that holds the end of the tables allocated (log 9). -/
def tableEnd : Nat := 0x8000

/-- Takes room for a table. -/
def State.newTable (s : State) (island size : Nat) : Nat × State :=
  let e := max (2 ^ 20) (s.tableEntry island tableEnd)
  let a := (e + size - 1) / size * size
  (a, s.writeMem (hbmAddr island tableEnd) 8 (a + size))

/-- Finds or makes the tables down to the entry of a page of a level, from a table of level `lv`: the entry's address. -/
def State.entryFor (s : State) (island va target : Nat) : Nat → Nat → Nat → Nat × State
  | 0, lv, table => (table + 8 * levelIndex lv va, s)
  | fuel + 1, lv, table =>
    let pa := table + 8 * levelIndex lv va
    if lv = target then (pa, s)
    else
      let e := s.tableEntry island pa
      if bit e 0 then s.entryFor island va target fuel (lv + 1) (bits e 38 8 * 2 ^ 8)
      else
        let (t, s) := s.newTable island (if lv = 0 then 8192 else 256)
        ((s.writeMem (hbmAddr island pa) 8 (1 + t)).mapkWrote island 1).entryFor island va target fuel (lv + 1) t

/-- The table level of a leaf for pages of `k` bits (R142). -/
def leafLevel (k : Nat) : Nat := if k = 26 then 1 else if k = 21 then 2 else 3

/-- Writes the leaf of a page and lists it. -/
def State.mapPage (s : State) (island asid va k leaf : Nat) : State :=
  let root := bits (s.tableEntry island (rootTable + 8 * asid)) 38 15 * 2 ^ 15
  let (pa, s) := s.entryFor island va (leafLevel k) 4 0 root
  let s := (s.writeMem (hbmAddr island pa) 8 leaf).mapkWrote island 1
  { s with maps := s.maps ++ [⟨island, asid, va, k, pa⟩] }

/-- Rewrites the leaf of a mapped page. -/
def State.setLeaf (s : State) (m : MapEntry) (v : Nat) : State := (s.writeMem (hbmAddr m.island m.pa) 8 v).mapkWrote m.island 1

/-- Removes the TLB and walk-cache entries of a page (R155). -/
def State.tlbDrop (s : State) (m : MapEntry) : State :=
  { s with tlb := s.tlb.filter fun t => !(t.island == m.island && t.asid == m.asid &&
      t.va * 2 ^ t.sizeLog < m.va + 2 ^ m.sizeLog && m.va < (t.va + 1) * 2 ^ t.sizeLog) }

/-- Whether a word lies in some frames of an island. -/
def wordIn (island : Nat) (frames : List (Nat × Nat)) (w : Nat) : Bool :=
  frames.any fun f => hbmAddr island f.1 ≤ 4 * w && 4 * w < hbmAddr island f.1 + f.2

/-- No message names the frames: what has gone out to them is performed at its slice. -/
def State.msgsQuiet (s : State) (island : Nat) (frames : List (Nat × Nat)) : Bool :=
  s.msgs.all fun m => m.island != island || m.kind == .engine || !m.words.any (wordIn island frames)

/-- A reduction entry names the frames. -/
def State.redNames (s : State) (island : Nat) (frames : List (Nat × Nat)) : Bool :=
  s.warps.any fun w => (s.block w.2.block).island == island &&
    (w.2.red ++ w.2.redLate).any fun e => wordIn island frames (e.pa / 4)

/-- Every access to the frames has been performed at its slice (R155): no message and no reduction entry names them. -/
def State.framesQuiet (s : State) (island : Nat) (frames : List (Nat × Nat)) : Bool :=
  s.msgsQuiet island frames && !s.redNames island frames

/-- Each held `waitarr` on the frames translates its counter again: the translation it went by is removed (R155; DEDUCED, log 136). -/
def State.rewait (s : State) (island : Nat) (frames : List (Nat × Nat)) : State :=
  { s with waits := s.waits.map fun (x : WaitArr) => if wordIn island frames (x.pa / 4) then { x with stale := true } else x }

/-- Drops the L1 records of frames; EX and PV records write back first (R137). -/
def State.dropSpans (s : State) (island : Nat) (frames : List (Nat × Nat)) : State :=
  (s.spans.filter fun r => r.island == island && r.words.any (wordIn island frames)).foldl State.discard s

/-- Sends WBACK for the dirty words of EX and PV records in frames; the records stay, clean. -/
def State.cleanSpans (s : State) (island : Nat) (frames : List (Nat × Nat)) : State :=
  (s.spans.filter fun r => r.island == island && !r.dirty.isEmpty && r.words.any (wordIn island frames)).foldl (fun s r =>
    (s.sendWback r false).2.setSpan { r with dirty := [] }) s

/-- Whether an entry drains before another: ascending pipe, WARPID, lane and sequence number (R136). -/
def RedEntry.before (a b : RedEntry) : Bool :=
  if a.pipe != b.pipe then decide (a.pipe < b.pipe)
  else if a.warpNo != b.warpNo then decide (a.warpNo < b.warpNo)
  else if a.lane != b.lane then decide (a.lane < b.lane)
  else decide (a.seq ≤ b.seq)

/-- Sends the reduction entries of an island that name frames to their slices, in the order of R136 over all its warps (R137). Between
entries of equal pipe, WARPID, lane and number, of different blocks, the warp that started first comes first (log 97). -/
def State.drainFrames (s : State) (island : Nat) (frames : List (Nat × Nat)) : State :=
  let names (e : RedEntry) : Bool := wordIn island frames (e.pa / 4)
  let es := (s.warps.filter fun p => (s.block p.2.block).island == island).flatMap fun p =>
    (p.2.red.filter names).map fun e => (p.1, e)
  let s := { s with warps := s.warps.map fun p =>
      if (s.block p.2.block).island = island then (p.1, { p.2 with red := p.2.red.filter fun e => !names e }) else p }
  (es.mergeSort fun a b => a.2.before b.2).foldl (fun s x => s.sendDrain x.1 (fun m => m.island == island) x.2) s

/-- Frames of a list that no leaf names any more go back to their share, and their written bits are discarded (R121, R155). -/
def State.freeFrames (s : State) (island : Nat) (frames : List (Nat × Nat)) : State :=
  frames.foldl (fun s f =>
    if (s.mapsOf island f.1 f.2).isEmpty then
      { s.setWritten (hbmAddr island f.1 / 4) (f.2 / 4) false with
        frames := s.frames.filter fun x => !(x.island == island && x.pa == f.1) }
    else s) s

/-! ### Serving (R153) -/

/-- A new leaf's bits but for its frame (R145). -/
def reqLeaf (r : List Word) : Nat :=
  3 + reqCtype r * 2 ^ 2 + reqLcls r * 2 ^ 4 + reqRwx r * 2 ^ 6 + (if reqCtype r = 3 then reqOwner r * 2 ^ 11 else 0)

/-- A job whose answer is due. -/
def answerOf (p island : Nat) (r : List Word) (d6 d7 : Nat) : MapJob := ⟨p, island, reqOp r, true, reqAsid r, [], [], 0, d6, d7⟩

def State.setJob (s : State) (j : MapJob) : State :=
  { s with mapJobs := (s.mapJobs.filter fun x => !(x.part == j.part && x.island == j.island)) ++ [j] }

/-- Writes the answer of a job, then HEAD advances, and what waited on its ASID tries again (R153, R377). -/
def State.answerJob (s : State) (j : MapJob) : State :=
  let (site, va) := s.rqSite j.part j.island
  match s.engAccess site .write [(va + 48, 16)] with
  | .ok s ps =>
    let s := s.engWrite site .write ps (bytesOf 8 j.dword6 ++ bytesOf 8 j.dword7)
    let s := s.setReg .mapkRqhead (partIx j.part j.island) ((s.rqHead j.part j.island + 1) % s.rqSize j.part j.island)
    let s := { s with mapJobs := s.mapJobs.filter fun x => !(x.part == j.part && x.island == j.island) }
    s.trigger j.island (some j.asid)
  | .wait s => s
  | .transit _ _ | .page _ _ _ | .stop _ _ _ => s

/-- Serves the request at a ring's head if its operation is `op`: the next part of its work, its rejection, or its answer. An unknown
operation is answered as 0x01's. A ring whose record cannot be read or answered (a page fault, a page type, a permission, TRANSIT) is
not served while that lasts (DESIGN CHOICE, log 99). -/
def mapkServe (p island op : Nat) (s : State) (go : State → List Word → State) (more : State → MapJob → State) : Out :=
  if s.boot.starting then .next s
  else match s.mapJobs.find? fun j => j.part == p && j.island == island with
  | some j =>
    if j.op != op && !(op = 1 && (j.op = 0 || 7 < j.op)) then .next s
    else .next (if j.answer then s.answerJob j else more s j)
  | none =>
    if s.rqHead p island = s.rqTail p island then .next s
    else
      let (site, va) := s.rqSite p island
      match s.engAccess site .read [(va, 64)] with
      | .ok s ps =>
        let bs := s.engBytes ps
        let r : List Word := (List.range 8).map fun k => BitVec.ofNat 64 (fieldAt bs (8 * k) 8)
        if reqOp r != op && !(op = 1 && (reqOp r = 0 || 7 < reqOp r)) then .next s
        else
          let cause := s.reqCause p island r
          .next (if cause != 0 then s.setJob (answerOf p island r (0x70 + cause * 2 ^ 8) 0) else go s r)
      | .wait s => .next s
      | .transit _ _ | .page _ _ _ | .stop _ _ _ => .next s

/-- A job's end: its answer is due. -/
def State.jobDone (s : State) (j : MapJob) : State := s.setJob { j with answer := true }

/-- Frames and mapped pages of a request's range. -/
def State.reqMaps (s : State) (island : Nat) (r : List Word) : List MapEntry := s.mapsIn island (reqAsid r) (reqVa r) (reqBytes r)
def framePairs (fs : List Frame) : List (Nat × Nat) := fs.map fun f => (f.pa, f.size)

/-- A job that waits before its answer. -/
def jobOf (p island : Nat) (r : List Word) (frames : List (Nat × Nat)) (leaves : List Nat) : MapJob :=
  ⟨p, island, reqOp r, false, reqAsid r, frames, leaves, reqLeaf r, 1, 0⟩

/-- `MAP` (R155, R158): new frames filled with zero, or the frames of the source. -/
def execMap (part island : Nat) (s : State) : Out :=
  mapkServe part island 1 s (fun s r =>
    let k := reqLog r
    let q := (s.reach part island (reqAsid r)).getD part
    let got : List Nat × State :=
      if reqAlias r then ((reqPages r (reqSrcVa r)).map fun a => (s.srcFrame island (reqSrcAsid r) a k).getD 0, s)
      else (s.takeFrames island (2 ^ k) q (reqCount r)).getD ([], s)
    let s := ((reqPages r (reqVa r)).zip got.1).foldl (fun (s : State) (x : Nat × Nat) =>
      s.mapPage island (reqAsid r) x.1 k (reqLeaf r + x.2 / 65536 * 2 ^ 32)) got.2
    s.setJob (answerOf part island r 1 0)) State.jobDone

/-- Goes on once every access to the frames is performed (R155); spans of the frames are dropped meanwhile. -/
def State.whenQuiet (s : State) (j : MapJob) (k : State → State) : State :=
  let s := s.dropSpans j.island j.frames
  if s.framesQuiet j.island j.frames then k s else s

/-- Clears the leaves of mapped pages. -/
def State.unmapPages (s : State) (ms : List MapEntry) : State :=
  let s := ms.foldl (fun (s : State) m => s.setLeaf m 0) s
  { s with maps := s.maps.filter fun m => !ms.contains m }

/-- `UNMAP` (R155). -/
def execUnmap (part island : Nat) (s : State) : Out :=
  mapkServe part island 2 s (fun s r =>
    let ms := s.reqMaps island r
    let frames := framePairs (s.framesBehind ms)
    ((ms.foldl State.tlbDrop (s.unmapPages ms)).rewait island frames).setJob (jobOf part island r frames [])) fun s j =>
    s.whenQuiet j fun s => (s.freeFrames island j.frames).jobDone j

/-- `PROTECT` (R155): words written in place under the old permission are performed at their slices too. -/
def execProtect (part island : Nat) (s : State) : Out :=
  mapkServe part island 3 s (fun s r =>
    let ms := s.reqMaps island r
    let frames := framePairs (s.framesBehind ms)
    let s := ms.foldl (fun (s : State) m => (s.setLeaf m (setBits (s.leafOf m) 8 6 (reqRwx r))).tlbDrop m) s
    (s.rewait island frames).setJob (jobOf part island r frames [])) fun s j =>
    let s := s.cleanSpans island j.frames
    if s.framesQuiet island j.frames then s.jobDone j else s

/-- ITIME exceeds the rts of every word of the frames, those that take their slice's floor among them (R137 step 3). -/
def State.rtsPassed (s : State) (island : Nat) (frames : List (Nat × Nat)) : Bool :=
  (s.rtsFloor.all fun e => e.1 / 64 != island || decide (e.2 < s.itime island)) &&
    s.dir.all fun d => !wordIn island frames d.1 || decide (d.2.rts < s.itime island)

/-- Whether a page is in TRANSIT. -/
def State.transitAt (s : State) (island asid va : Nat) : Bool := (s.mapsIn island asid va 1).any fun m => leafTransit (s.leafOf m)

/-- Lets go what stalled at pages no longer in TRANSIT (R157): an access once none of its lanes waits at such a page. -/
def State.releaseStalls (s : State) (island : Nat) : State :=
  let free (x : Stall) : Bool := (s.block (s.warp x.warp).block).island == island &&
    !x.vas.any fun va => s.transitAt island (s.warpAsid x.warp) va
  let s := (s.stalls.filter free).foldl State.unstall s
  let gone (x : Option (Nat × Nat × Nat)) : Bool := x.any fun y => !s.transitAt island y.2.1 y.2.2
  { s with packets := s.packets.map fun (p : Packet) => if p.place = .atTarget island && gone p.since then { p with since := none } else p }

/-- Written bits of a frame as a change of type leaves them (R121). -/
def State.onceChange (s : State) (island old new : Nat) (f : Nat × Nat) : State :=
  if old = 2 && new = 2 then s else s.setWritten (hbmAddr island f.1 / 4) (f.2 / 4) (new == 2)

/-- Bits [5:2] and [18:11] of a leaf replaced by a job's. -/
def newType (leaf new : Nat) : Nat := setBits (setBits leaf 5 2 (bits new 5 2)) 18 11 (bits new 18 11)

/-- Type of the leaves that map a frame; aliases agree (R158). -/
def State.frameType (s : State) (island : Nat) (f : Nat × Nat) : Nat :=
  ((s.mapsOf island f.1 f.2).head?.map fun m => leafType (s.leafOf m)).getD 0

/-- Steps 5 and 6 of R137, and R157 steps 4 and 5: bits, the new type in every leaf, the leaves' TLB entries, then the stalled accesses. -/
def State.newTypes (s : State) (island : Nat) (j : MapJob) : State :=
  let ms := s.maps.filter fun m => m.island == island && j.leaves.contains m.pa
  let s := j.frames.foldl (fun s f => s.onceChange island (s.frameType island f) (bits j.leaf 3 2) f) s
  let s := ms.foldl (fun (s : State) m => (s.setLeaf m (setBits (newType (s.leafOf m) j.leaf) 10 10 0)).tlbDrop m) s
  (s.releaseStalls island).jobDone j

/-- `CHTYPE` (R137, R157): TRANSIT in every leaf of the frames; the island's steps in their order; the new type; the stalled accesses go on.
The frame behind a page changes as a whole, with every leaf on it, also where the page covers a part of it (DEDUCED, log 66), and with it
the other frames under an alias that covers several (R158). -/
def execChtype (part island : Nat) (s : State) : Out :=
  mapkServe part island 4 s (fun s r =>
    let fs := s.tiedFrames island (s.reqMaps island r)
    let frames := framePairs fs
    let ms := s.leavesOn island fs
    let s := ms.foldl (fun (s : State) m => (s.setLeaf m (setBits (s.leafOf m) 10 10 1)).tlbDrop m) s
    (s.rewait island frames).setJob (jobOf part island r frames (ms.map fun m => m.pa))) fun s j =>
    let s := s.dropSpans island j.frames
    if !s.msgsQuiet island j.frames || !s.rtsPassed island j.frames then s
    else if s.redNames island j.frames then s.drainFrames island j.frames
    else s.newTypes island j

/-! ### Migration (R139, R155, R158) -/

/-- Makes an address space live on an island with a generation (R148); the L0 table of an earlier use is taken again. -/
def State.makeAsid (s : State) (island asid p : Nat) : Nat × State :=
  let key := island * 4096 + asid
  let gen := match NMap.find? s.asidGen key with
    | some g => (g + 1) % 16
    | none => 0
  let s := if gen = 0 then { s with tlb := s.tlb.filter fun t => !(t.island == island && t.asid == asid) } else s
  let pa := rootTable + 8 * asid
  let old := bits (s.tableEntry island pa) 38 15
  let (root, s) := if old = 0 then s.newTable island 32768 else (old * 2 ^ 15, s)
  let s := s.writeMem (hbmAddr island pa) 8 (1 + gen * 2 + root)
  (gen, { s with asids := NMap.set s.asids key (p, gen), asidGen := NMap.set s.asidGen key gen })

/-- Opens dual-home windows for stretches of frames, each to one place of its size, so that every page over it stays aligned; fewer where
no place is left. -/
def State.openWindows (s : State) (part island new : Nat) (stretches : List Frame) : State :=
  stretches.foldl (fun s g =>
    match s.freeFrame new g.size with
    | some pa =>
      { s.setWritten (hbmAddr new pa / 4) (g.size / 4) false with
        frames := s.frames ++ (s.framesIn island g.pa g.size).map fun f => ⟨new, pa + (f.pa - g.pa), f.size, f.part⟩
        dual := s.dual ++ [⟨island, new, g.pa, pa, g.size, [], 0, part⟩] }
    | none => s) s

/-- `MIGRATE` (R139, R155): the windows open, and EX spans are recalled; the request completes once every window has been switched. -/
def execMigrate (part island : Nat) (s : State) : Out :=
  mapkServe part island 5 s (fun s r =>
    let fs := s.tiedFrames island (s.reqMaps island r)
    let ms := s.leavesOn island fs
    let s := ms.foldl (fun (s : State) m => (s.setLeaf m (setBits (s.leafOf m) 9 9 1)).tlbDrop m) s
    let s := s.openWindows part island (reqIsland r) (s.stretches island fs)
    let frames := framePairs fs
    let s := (s.spans.filter fun x => x.island == island && x.st == .ex && x.words.any (wordIn island frames)).foldl
      (fun s x => s.recallHolders island (x.words.filter (wordIn island frames))) s
    s.setJob (jobOf part island r frames (ms.map fun m => m.pa))) fun s j =>
    if s.dual.any fun d => d.part == part && d.island == island then s else s.jobDone j

/-- `MAPK_COPY` (R139): the next word of a window is copied unless a mirror has written it, in a core clock in which ITIME at the new home
exceeds its wts, and on a SEQ page its rts (R130). -/
def execMapkCopy (window word : Nat) (s : State) : Out :=
  match s.dual[window]? with
  | none => .next s
  | some d =>
    if word != d.copied || d.size ≤ 4 * d.copied then .next s
    else
      let a := hbmAddr d.island d.oldPa + 4 * word
      let b := hbmAddr d.newIsland d.newPa + 4 * word
      let done (s : State) : State := { s with dual := s.dual.set window { d with copied := d.copied + 1 } }
      let lines := if word % 16 = 0 then 1 else 0
      .next (if d.mirrored.contains (a / 4) then done s
        else if !s.tsFree d.newIsland (s.frameType d.island (d.oldPa, d.size)) [b / 4] then s
        else (((done (s.writeMem b 4 (s.readMem a 4))).modDir d.newIsland [b / 4] fun x => { x with wts := s.itime d.newIsland }).mapkRead
          d.island lines).mapkWrote d.newIsland lines)

/-- Written bits of an old frame copied to the new one, in the order in which they were set or cleared (R121). -/
def State.moveWritten (s : State) (d : DualHome) : State :=
  let lo := hbmAddr d.island d.oldPa / 4
  let there := hbmAddr d.newIsland d.newPa / 4
  let n := d.size / 4
  (s.once.reverse.filter fun r => r.1 < lo + n && lo < r.1 + r.2.1).foldl (fun s r =>
    let a := max r.1 lo
    let e := min (r.1 + r.2.1) (lo + n)
    s.setWritten (there + (a - lo)) (e - a) r.2.2) s

/-- Moves one leaf to the new frame: on the same island its FRAME is rewritten; to another island it goes to the same address space
there (log 37). -/
def State.moveLeaf (s : State) (d : DualHome) (m : MapEntry) : State :=
  let e := s.leafOf m
  let pa := d.newPa + (s.frameOf m - d.oldPa)
  let e := setBits (setBits e 54 32 (pa / 65536)) 9 9 0
  let s := s.tlbDrop m
  if d.newIsland = d.island then s.setLeaf m e
  else
    let p := (s.reach 0 d.island m.asid).getD 0
    let s := if (NMap.find? s.asids (d.newIsland * 4096 + m.asid)).isSome then s else (s.makeAsid d.newIsland m.asid p).2
    (s.unmapPages [m]).mapPage d.newIsland m.asid m.va m.sizeLog e

/-- Sets the rts of every word of a frame to at least a value: the floors of its island's slices, and the entries of its words (R129,
R139). -/
def State.raiseRts (s : State) (island : Nat) (frame : Nat × Nat) (t : Nat) : State :=
  { s with
    rtsFloor := (List.range 64).foldl (fun m k => NMap.set m (64 * island + k) (max t (NMap.getD m (64 * island + k) 0))) s.rtsFloor
    dir := s.dir.map fun e => if wordIn island [frame] e.1 then (e.1, { e.2 with rts := max t e.2.rts }) else e }

/-- Directory entries of words leave: their rts go into their slices' floors (R129). -/
def State.foldRts (s : State) (island : Nat) (frames : List (Nat × Nat)) : State :=
  let gone (e : Nat × DirWord) : Bool := wordIn island frames e.1
  { s with
    rtsFloor := (s.dir.filter gone).foldl (fun m e =>
      let k := 64 * island + homeSlice (4 * e.1 - hbmAddr island 0)
      NMap.set m k (max e.2.rts (NMap.getD m k 0))) s.rtsFloor
    dir := s.dir.filter fun e => !gone e }

/-- `SWITCH_MESSAGE` (R139): once every word is copied and no request for the frame is under way, the new home takes over with every
rts at the old home's highest. -/
def execSwitchMessage (window : Nat) (s : State) : Out :=
  match s.dual[window]? with
  | none => .next s
  | some d =>
    let frames := [(d.oldPa, d.size)]
    if 4 * d.copied < d.size || (s.boot.starting) then .next s
    else
      let s := s.dropSpans d.island frames
      if !s.framesQuiet d.island frames then .next s
      else
        let floor := s.rtsFloor.foldl (fun m e => if e.1 / 64 = d.island then max m e.2 else m) 0
        let top := (s.dir.filter fun e => wordIn d.island frames e.1).foldl (fun m e => max m e.2.rts) floor
        let ms := s.mapsOf d.island d.oldPa d.size
        let s := ms.foldl (fun s m => s.moveLeaf d m) (s.moveWritten d)
        let s := s.raiseRts d.newIsland (d.newPa, d.size) top
        let old := framePairs (s.framesIn d.island d.oldPa d.size)
        let s := { (s.foldRts d.island frames).rewait d.island frames with dual := s.dual.eraseIdx window }
        .next (s.freeFrames d.island old)

/-! ### Address spaces (R148, R155) -/

/-- `ASIDGET` (R148, R155). -/
def execAsidget (part island : Nat) (s : State) : Out :=
  mapkServe part island 6 s (fun s r =>
    match (List.range 4096).find? fun a => (NMap.find? s.asids (island * 4096 + a)).isNone with
    | some a =>
      let (gen, s) := s.makeAsid island a part
      s.setJob { answerOf part island r 1 (a + gen * 4096) with asid := a }
    | none => s) State.jobDone

/-- `ASIDPUT` (R148, R155): its TLB entries go stale; requests that name it are refused from its start (`reach`), and the ASID is free at its
end. -/
def execAsidput (part island : Nat) (s : State) : Out :=
  mapkServe part island 7 s (fun s r =>
    let ms := s.maps.filter fun m => m.island == island && m.asid == reqAsid r
    let frames := framePairs (s.framesBehind ms)
    let s := (s.unmapPages ms).rewait island frames
    let pa := rootTable + 8 * reqAsid r
    (s.writeMem (hbmAddr island pa) 8 (setBits (s.tableEntry island pa) 0 0 0)).setJob (jobOf part island r frames [])) fun s j =>
    s.whenQuiet j fun s =>
      ({ s.freeFrames island j.frames with asids := NMap.erase s.asids (island * 4096 + j.asid) }).jobDone j

end Sys2Proof.Machine
end

