-- ==== Sys2Proof/Machine/Partition.lean ====
section
/-!
DEFINITION. Partitions (R388 to R400): their tree, slices, shares, budgets, offsets and presented numbers; and the root of trust's image
keys and reports (R401 to R403).
-/
namespace Sys2Proof.Machine

/-! ### The tree (R388) -/

/-- LEVEL (R388): 0 for the root and for a partition that does not exist. -/
def State.level (s : State) (p : Nat) : Nat := if p = 0 || !s.partValid p then 0 else if s.parent p = 0 then 1 else 2

/-- PART_CFG as it reads. -/
def State.partCfg (s : State) (p : Nat) : Nat := s.reg .partCfg p + s.level p * 2

/-- What still names a partition (R388). -/
def State.partUsed (s : State) (p : Nat) : Bool :=
  !(s.childrenOf p).isEmpty || s.asids.any (fun a => a.2.1 == p) ||
    s.grids.any (fun g => g.2.part == p && g.2.status != .ended) || s.queueRecs.any (fun q => recPart q.words == p) ||
    (List.range 64).any (fun q => bits (s.reg .lkpQctl q) 10 4 == p) ||
    s.regs.any fun e =>
      (e.1 / 2 ^ 40 == regCode .islNctr && bit e.2 47 && bits e.2 46 40 == p) ||
      (e.1 / 2 ^ 40 == regCode .tgpAtt && bit e.2 0 && bits e.2 7 1 == p)

/-- Whether a partition's children keep to its shares on an island: their weights sum to at most 256 (R392), and its own use with their
HBMCAP, or BERM, stays within its own value (R393). -/
def State.sharesFit (s : State) (p island : Nat) : Bool :=
  let total (hi lo : Nat) : Nat := sum ((s.childrenOf p).map fun c => bits (s.reg .partShare (partIx c island)) hi lo)
  total 7 0 ≤ 256 && total 15 8 ≤ 256 && s.frameBytes p island + total 29 16 * 2 ^ 26 ≤ s.hbmShare p island &&
    s.bermUsed p island + total 41 32 ≤ s.bermShare p island

/-- `PART_CFG` (R388): PARTITION 0's is fixed; PARENT is taken while VALID is 0; a write that sets VALID needs a parent that may have
children, and shares that keep the rules among them (R392, R393); one that clears it needs a partition that nothing names. -/
def execPartCfgWrite (part value : Nat) (s : State) : Out :=
  let a := bits value 10 4
  if part = 0 || 128 ≤ part then .next s
  else if s.partValid part then
    .next (if bit value 0 || s.partUsed part then s else s.setReg .partCfg part (setBits (s.reg .partCfg part) 0 0 0))
  else if bit value 0 then
    let t := s.setReg .partCfg part (1 + a * 2 ^ 4)
    if (a = 0 || (a != part && s.partValid a && s.parent a == 0)) && (List.range 24).all fun n => t.sharesFit a n then
      .next { t with boot := { s.boot with pmeas := NMap.set s.boot.pmeas part (List.replicate 48 0) } }
    else .next s
  else .next (s.setReg .partCfg part (a * 2 ^ 4))

/-! ### Slices (R389, R390, R189) -/

/-- PART_SLICE as it reads. -/
def State.partSlice (s : State) (p island : Nat) : Nat :=
  s.clmask p island + bits (s.reg .partSlice (partIx p island)) 20 20 * 2 ^ 20 + if s.sliceBusy p island then 2 ^ 21 else 0

/-- `PART_SLICE` (R389, R390): of partition 0's only PERM is taken. A permanent shrink ends the cooperative grids that could be held before
it and cannot be now: what a shrink that is not permanent has parked stays parked (DEDUCED, log 138). -/
def execPartSliceWrite (part island value : Nat) (s : State) : Out :=
  let a := s.parent part
  let old := bits (s.reg .partSlice (partIx part island)) 19 0
  let new := bits value 19 0
  let added := (List.range 20).filter fun k => bit new k && !bit old k
  let siblings := (s.childrenOf a).filter (· != part)
  let clash := added.any fun k => (siblings.any fun q => bit (s.clmask q island) k) || (a != 0 && !bit (s.clmask a island) k)
  if 128 ≤ part || s.sliceBusy part island then .next s
  else if part = 0 then .next (s.setReg .partSlice (partIx 0 island) (bits value 20 20 * 2 ^ 20))
  else if clash then .next s
  else
    let ends := if bit value 20 then s.coopAble island else []
    let s := s.setReg .partSlice (partIx part island) (bits value 20 0)
    let s := s.setPart part island { s.part part island with gained := added.foldl (fun m k => m + 2 ^ k) 0 }
    let s := (s.childrenOf part).foldl (fun s c =>
      let v := s.reg .partSlice (partIx c island)
      s.setReg .partSlice (partIx c island) (setBits v 19 0 (bits v 19 0 &&& new))) s
    .next (s.afterShrink island (s.displaced island) ends)

/-! ### Shares and budgets (R391 to R396) -/

/-- `PART_SHARE` (R391 to R393): a write after which the partition or its parent would break a rule is ignored; the shares of a partition
that is not valid count once it becomes so (`execPartCfgWrite`). -/
def execPartShareWrite (part island value : Nat) (s : State) : Out :=
  let t := s.setReg .partShare (partIx part island) (bits value 15 0 + bits value 29 16 * 2 ^ 16 + bits value 41 32 * 2 ^ 32)
  .next (if part = 0 || 128 ≤ part || !t.sharesFit part island || !t.sharesFit (s.parent part) island then s else t)

/-- `PART_BUD` (R394): ALLOT at most the parent's, from the next boundary; a lower CAPP clamps BANK at once. -/
def execPartBudWrite (part island value : Nat) (s : State) : Out :=
  if part = 0 || 128 ≤ part then .next s
  else
    let ix := partIx part island
    let a := s.parent part
    let cap := if a = 0 then 0xFFFFFFFF else bits (s.reg .partBud (partIx a island)) 31 0
    let k := bits value 35 32
    let u := s.part part island
    let s1 := if k < bits (s.reg .partBud ix) 35 32 then s.setPart part island { u with bank := min u.bank (k * u.allot) } else s
    .next (s1.setReg .partBud ix (min cap (bits value 31 0) + k * 2 ^ 32))

/-- PART_BUD and PART_TOK as they read (R394). -/
def State.partBud (s : State) (p island : Nat) : Nat :=
  s.reg .partBud (partIx p island) + if s.bucketEmpty p island then 2 ^ 36 else 0
def State.partTok (s : State) (p island : Nat) : Nat := (s.part p island).cur + (s.part p island).bank * 2 ^ 32

/-- `BUDGET_PERIOD_BOUNDARY` (R395). -/
def execBudgetPeriodBoundary (island : Nat) (s : State) : Out := .next (s.budgetBoundary island)

/-! ### Time offsets and presented numbers (R398, R399) -/

/-- `PART_TOFF` (R398). -/
def execPartToffWrite (part value : Nat) (s : State) : Out :=
  .next (if part = 0 || 128 ≤ part then s else s.setReg .partToff part (value % 2 ^ 64))

/-- `PART_PRES`, or PART_IPRES for node 24 (R399, R400): a physical number that is no live core of the slice is ignored; blocks of a core
whose presented number now names another are pre-empted. -/
def execPartPresWrite (part island presented value : Nat) (s : State) : Out :=
  if 128 ≤ part then .next s
  else if island = 24 then .next (if presented < 24 then s.setReg .partIpres (partIx part presented) (bits value 5 0) else s)
  else
    let k := bits value 7 0
    if 160 ≤ presented || !s.topo.live island || s.coreCode island k = 3 || !bit (s.clmask part island) (k / 8) || 160 ≤ k then .next s
    else
      let ix := presIx part island presented
      let old := s.reg .partPres ix
      let moved := if bits old 7 0 = k then [] else s.blocks.filter fun b =>
        b.2.island == island && b.2.core == bits old 7 0 && !b.2.saved && !b.2.retired && b.2.presCore == presented &&
          (s.grid b.2.grid).part == part
      .next ((s.setReg .partPres ix (bits value 8 0)).preemptBlocks moved)

/-! ### The root of trust (R401 to R403) -/

/-- ROT_PMEAS of a partition. -/
def State.pmeas (s : State) (p : Nat) : List Byte := NMap.getD s.boot.pmeas p (List.replicate 48 0)

/-- `ATTESTATION_REQUEST` (R403): GO is ignored while the report is being made, and in the window of a partition that is not valid
(R397). -/
def execAttestationRequest (part : Nat) (s : State) : Out :=
  .next (if 128 ≤ part || !s.partValid part then s
    else
      let s := s.command .rotAtreq part 0
      if s.boot.atReqs.contains part then s else { s with boot := { s.boot with atReqs := s.boot.atReqs ++ [part] } })

/-- Clusters that a partition holds on all islands. -/
def State.clustersAll (s : State) (p : Nat) : Nat := sum ((List.range 24).map fun n => if s.topo.live n then s.clustersHeld p n else 0)

/-- Bytes 0 to 415 of a report (R403): its PTIME is a reading made for the partition (R221, R398; log 108). -/
def State.reportBody (s : State) (p : Nat) : List Byte :=
  let buf := NMap.getD s.boot.atBuf p (List.replicate 512 0)
  let up := if s.level p = 2 then s.pmeas (s.parent p) else List.replicate 48 0
  let live := (List.range 24).foldl (fun v n => if s.topo.live n then v + 2 ^ n else v) 0
  bytesOf 4 0x7A415024 ++ bytesOf 2 1 ++ bytesOf 1 p ++ bytesOf 1 (s.level p) ++ bytesOf 8 (if p = 0 then s.cdItime else s.newView p s.cdItime) ++ (buf.drop 16).take 48 ++
    (s.meas 0 ++ s.meas 1 ++ s.meas 2 ++ s.meas 3) ++ s.pmeas p ++ up ++ bytesOf 4 s.topo.tver ++ bytesOf 4 live ++
    bytesOf 2 (s.clustersAll p) ++ List.replicate 54 0

/-- `ATTESTATION_REPORT` (R403): requests in order of arrival; the buffer is filled and signed, and BUSY falls. -/
def execAttestationReport (s : State) : Out :=
  match s.boot.atReqs with
  | [] => .next s
  | p :: rest =>
    let body := s.reportBody p
    let report := body ++ pad 96 (Config.sign s.boot.attKey (sha384 body))
    .next { s with boot := { s.boot with atReqs := rest, atBuf := NMap.set s.boot.atBuf p report } }

/-- ROT_CERT (R403): the certificates of the device identity key and of the attestation key (R401), one after the other from byte 0 (DESIGN
CHOICE, log 139). -/
def State.rotCert (s : State) : List Byte :=
  pad 4096 (Config.certificate Config.deviceKey Config.rootKey ++ Config.certificate s.boot.attKey Config.deviceKey)

/-- A write of a dword of ROT_ATBUF, ignored while BUSY (R403), and where the partition is not valid (R397). -/
def State.writeAtbuf (s : State) (part dword value : Nat) : State :=
  if s.boot.atReqs.contains part || 128 ≤ part || !s.partValid part then s
  else
    let buf := NMap.getD s.boot.atBuf part (List.replicate 512 0)
    let ofs := 8 * (dword % 64)
    { s with boot := { s.boot with atBuf := NMap.set s.boot.atBuf part (buf.take ofs ++ bytesOf 8 value ++ buf.drop (ofs + 8)) } }

/-- `IMAGE_KEY_ENROL` (R401): before full function, while the keys are not locked. -/
def execImageKeyEnrol (slot key : Nat) (s : State) : Out :=
  .next (if slot < 8 && !s.boot.keyLock then { s with boot := { s.boot with keys := NMap.set s.boot.keys slot key } } else s)

/-- `IMAGE_KEY_LOCK` (R401, R402): locked until the next start; the keys extend ROT_MEAS3. -/
def execImageKeyLock (s : State) : Out :=
  if s.boot.keyLock then .next s
  else
    let s := { s with boot := { s.boot with keyLock := true } }
    .next (s.extendMeas 3 (s.boot.keys.flatMap fun k => bytesOf 1 k.1 ++ bytesOf 96 k.2))

end Sys2Proof.Machine
end

