-- ==== Sys2Proof/Machine/Image.lean ====
section
/-!
DEFINITION. Loading a Belyel image (R262 to R267, R401, R402): its checks, the numbers and addresses the loader chooses, the relocation
records it fills, and what it maps.
-/
namespace Sys2Proof.Machine

/-! ### The checks of an image (R262, R264, R267, R401) -/

/-- A 64-bit and a smaller field of an image. -/
def img (bs : List Byte) (ofs n : Nat) : Nat := fieldAt bs ofs n

/-- Offsets of the records of a table: its place, count and record size. -/
def imgRecords (bs : List Byte) (place count : Nat) (n size : Nat) : List Nat :=
  (List.range (img bs count n)).map fun k => img bs place 8 + k * size

/-- Pieces of an image, as (offset, bytes): header, tables, overlay code and signature. -/
def imgPieces (bs : List Byte) : List (Nat × Nat) :=
  [(0, 64), (img bs 24 8, 16 * img bs 12 2), (img bs 32 8, 32 * img bs 14 2), (img bs 40 8, 16 * img bs 16 4),
    (img bs 48 8, 16 * img bs 20 4)] ++
    (imgRecords bs 24 12 2 16).map (fun o => (img bs (o + 8) 8, 8 * img bs (o + 4) 2)) ++
    (if img bs 6 1 / 2 % 2 = 1 then [(img bs 56 8, 96)] else [])

/-- No two pieces overlap, and none lies past the end. -/
def piecesOk (len : Nat) : List (Nat × Nat) → Bool
  | [] => true
  | x :: xs => decide (x.1 + x.2 ≤ len) && (xs.all fun y => x.2 == 0 || y.2 == 0 || decide (x.1 + x.2 ≤ y.1) || decide (y.1 + y.2 ≤ x.1)) &&
      piecesOk len xs

/-- Reserved fields of the header and of every record are zero. -/
def imgReserved (bs : List Byte) : Bool :=
  img bs 6 1 < 4 && img bs 7 1 == 0 && ((List.range 5).all fun k => img bs (24 + 8 * k) 8 % 8 == 0) &&
    ((imgRecords bs 24 12 2 16).all fun o => img bs (o + 2) 1 < 8 && img bs (o + 3) 1 == 0 && img bs (o + 6) 2 == 0) &&
    ((imgRecords bs 32 14 2 32).all fun o => img bs (o + 13) 1 < 2 && img bs (o + 24) 8 == 0) &&
    (imgRecords bs 48 20 4 16).all fun o => img bs (o + 13) 1 < 16 && img bs (o + 14) 2 == 0 && img bs (o + 13) 1 % 4 < 3 && img bs (o + 12) 1 ≤ 16

/-- Every overlay has 1 to 8,192 words, and every kernel's ENTRY is a header with ENTRY set in its overlay (R264, R267). -/
def imgCodeOk (bs : List Byte) : Bool :=
  let ovls := imgRecords bs 24 12 2 16
  (ovls.all fun o => 1 ≤ img bs (o + 4) 2 && img bs (o + 4) 2 ≤ 8192) &&
    (imgRecords bs 32 14 2 32).all fun k =>
      match ovls.find? fun o => img bs o 2 == img bs k 2 with
      | some o => img bs (k + 2) 2 < img bs (o + 4) 2 && isHeader (img bs (img bs (o + 8) 8 + 8 * img bs (k + 2) 2) 8) true
      | none => false

/-- Relocation records name known kinds and places that go together (R266). -/
def imgRelocsOk (bs : List Byte) : Bool :=
  (imgRecords bs 40 16 4 16).all fun o =>
    let kind := img bs o 1
    let place := img bs (o + 1) 1
    1 ≤ kind && kind ≤ 5 && place ≤ 6 && !(kind == 5 && 5 ≤ place)

/-- The signature verifies under the public half of an enrolled key, whose number is the key's own (R401). -/
def State.imgSigned (s : State) (bs : List Byte) : Bool :=
  let o := img bs 56 8
  o + 96 == bs.length && s.boot.keys.any fun k => Config.verify (16 + k.2) (sha384 (bs.take o)) (bs.drop o)

/-- Whether the loader takes an image for a partition (R267, R401). -/
def State.imgOk (s : State) (part : Nat) (bs : List Byte) : Bool :=
  let flags := img bs 6 1
  let priv := flags % 2 == 1
  let signed := flags / 2 % 2 == 1
  img bs 0 4 == 0x594C4542 && img bs 4 2 == 1 && decide (64 ≤ bs.length) && decide (1 ≤ img bs 12 2) && imgReserved bs &&
    piecesOk bs.length (imgPieces bs) && imgCodeOk bs && imgRelocsOk bs && (!priv || signed) && (!signed || s.imgSigned bs) &&
    !(priv && s.level part == 2) && s.partValid part

/-! ### Numbers and addresses the loader chooses (R263, R265, R266) -/

/-- The lowest `n` numbers from `lo` on that are not taken. -/
def lowestFree (taken : List Nat) (lo n : Nat) : List Nat :=
  ((List.range (n + taken.length)).filterMap fun k => if taken.contains (lo + k) then none else some (lo + k)).take n

/-- Overlay numbers loaded in an address space of an island (R263). -/
def State.ovlsLoaded (s : State) (island asid : Nat) : List Nat :=
  (s.images.filter fun e => e.island == island && e.asid == asid).flatMap fun e => e.ovls.map fun o => o.2.1

/-- The lowest free virtual address of an address space from 64 KiB on, for pages of 64 KiB (DESIGN CHOICE, log 109). -/
def State.freeVa (s : State) (island asid n : Nat) : Option Nat :=
  let up (a : Nat) : Nat := (a + 65535) / 65536 * 65536
  let ends := (s.maps.filter fun m => m.island == island && m.asid == asid).map fun m => up (m.va + 2 ^ m.sizeLog)
  ((65536 :: ends).filter fun a => a + n ≤ 2 ^ 48 && (s.mapsIn island asid a n).isEmpty).min?

/-- A new leaf of the loader's, but for its frame: a type, class 0, and permissions R, W and X (R145, R265; log 109). -/
def loadLeaf (ctype : Nat) (r w x : Bool) : Nat :=
  3 + ctype * 2 ^ 2 + (if r then 2 ^ 6 else 0) + (if w then 2 ^ 7 else 0) + (if x then 2 ^ 8 else 0)

/-- Maps a piece of `n` bytes at pages of its own, zero-filled: its address and frames; none where the share or the address space has no
room, or the partition does not reach the address space (R155, R156, R265). -/
def State.mapPiece (s : State) (part island asid n leaf : Nat) : Option ((Nat × List Nat) × State) :=
  let pages := (n + 65535) / 65536
  match s.reach part island asid, s.freeVa island asid (pages * 65536) with
  | some q, some va =>
    if s.hbmFree q island < pages * 65536 then none
    else match s.takeFrames island 65536 q pages with
      | some (pas, s) =>
        some ((va, pas), (pas.zipIdx).foldl (fun (s : State) (x : Nat × Nat) =>
          s.mapPage island asid (va + x.2 * 65536) 16 (leaf + x.1 / 65536 * 2 ^ 32)) s)
      | none => none
  | _, _ => none

/-- Maps pieces, given as (bytes, leaf), in their order. -/
def State.mapPieces (s : State) (part island asid : Nat) : List (Nat × Nat) → Option (List (Nat × List Nat) × State)
  | [] => some ([], s)
  | p :: ps =>
    match s.mapPiece part island asid p.1 p.2 with
    | some (x, s) =>
      match s.mapPieces part island asid ps with
      | some (xs, s) => some (x :: xs, s)
      | none => none
    | none => none

/-- Writes the bytes of a piece into its frames. -/
def State.fillPiece (s : State) (island : Nat) (frames : List Nat) (bs : List Byte) : State :=
  (frames.zipIdx).foldl (fun (s : State) (x : Nat × Nat) =>
    { s with mem := Memory.writeN s.mem (hbmAddr island x.1) ((bs.drop (65536 * x.2)).take 65536) }) s

/-- A rank's entry in a copy, where it is VALID and below NRANKS (R166). -/
def State.validRank (s : State) (job island rank : Nat) : Option Nat :=
  let e := NMap.getD s.ranks (rankKey job island rank) 0
  if rank < s.nranksOf job && rankOk e then some e else none

/-- Islands of a job on the load panel, with node 24 where a rank names it: the load island, and the nodes of its copy's valid ranks (R266,
R364). -/
def State.jobIslands (s : State) (job island : Nat) : List Nat :=
  (island :: (List.range (s.nranksOf job)).filterMap fun k =>
    (s.validRank job island k).bind fun e =>
      let n := bits e 4 0
      if (n == 24 || s.topo.live n) && !crosses (bits e 39 8) 8 island then some n else none).eraseDups

/-- Windows that an image's relocation records name, ascending: (index, bytes); a window of several records has the largest (log 109). -/
def imgWindows (bs : List Byte) : List (Nat × Nat) :=
  let all := ((imgRecords bs 40 16 4 16).filter fun o => img bs o 1 == 3).map fun o => (img bs (o + 8) 4, img bs (o + 12) 4)
  ((all.map Prod.fst).eraseDups.mergeSort fun a b => decide (a ≤ b)).map fun k =>
    (k, ((all.filter fun x => x.1 == k).map Prod.snd).foldl max 0)

/-- Window numbers free on every island of a job (R266, R364). -/
def State.freeWindows (s : State) (job : Nat) (islands : List Nat) : List Nat :=
  ((List.range 4096).drop 1).filter fun w => islands.all fun n => !bit (s.window job n w) 60

/-- The window numbers that an earlier load of the same image for the same job was given: a window has one number in its job (R266). -/
def State.earlierWindows (s : State) (part job image : Nat) (wants : List (Nat × Nat)) : Option (List Nat) :=
  (s.images.find? fun e => e.part == part && e.job == job && e.image == image && e.wins.map Prod.fst == wants.map Prod.fst &&
    (e.wins.zip wants).all fun x => winSize (s.window job e.island x.1.2) == x.2.2).map fun e => e.wins.map Prod.snd

/-! ### Relocation (R266) -/

/-- The value of a record; none where the record refuses the image. -/
def State.relocValue (s : State) (l : Loaded) (bs : List Byte) (o : Nat) : Option Nat :=
  let place := img bs (o + 1) 1
  let arg := img bs (o + 8) 4
  match img bs o 1 with
  | 1 =>
    if bit arg 31 then
      (s.validRank l.job l.island (arg % 65536)).bind fun e => if bits e 39 8 = 0xFFFFFFFE then none else some (bits e 39 8)
    else if 24 < bits arg 4 0 then none
    else s.topo.route l.island (bits arg 4 0)
  | 2 => (s.validRank l.job l.island (arg % 65536)).map fun _ => arg % 65536
  | 3 => NMap.find? l.wins arg
  | 4 => (l.ovls.find? fun x => x.1 == arg).map fun x => x.2.1
  | 5 =>
    let va := (l.sects.getD (arg % 65536) 0 + img bs (o + 12) 4) % 2 ^ 48
    if bits arg 30 16 != 0 || l.sects.getD (arg % 65536) 0 = 0 then none
    else if place = 1 then some va
    else some (if bit arg 31 then va / 2 ^ 32 else va % 2 ^ 32)
  | _ => none

/-- The field a record writes: the offset in the file of its 4 or 8 bytes, how many, and its bits there; none where the image has no such
place. -/
def relocField (bs : List Byte) (o : Nat) : Option (Nat × Nat × Nat × Nat) :=
  let seg := img bs (o + 2) 2
  let ofs := img bs (o + 4) 4
  let data (n : Nat) : Option (Nat × Nat × Nat × Nat) :=
    match (imgRecords bs 48 20 4 16)[seg]? with
    | some r => if ofs + n ≤ img bs (r + 8) 4 then some (img bs r 8 + ofs, n, 8 * n - 1, 0) else none
    | none => none
  let code (word hi lo : Nat) : Option (Nat × Nat × Nat × Nat) :=
    match (imgRecords bs 24 12 2 16).find? fun r => img bs r 2 == seg with
    | some r =>
      if ofs % 8 = 0 && ofs / 8 + word < img bs (r + 4) 2 then some (img bs (r + 8) 8 + ofs + 8 * word, 8, hi, lo) else none
    | none => none
  match img bs (o + 1) 1 with
  | 0 => data 4
  | 1 => data 8
  | 2 => code 1 31 0
  | 3 => code 0 23 0
  | 4 => code 0 31 0
  | 5 => code 0 31 16
  | 6 => code 1 35 24
  | _ => none

/-- Fills the records in their order; none where one refuses the image. -/
def State.relocate (s : State) (l : Loaded) (bs : List Byte) : List Nat → Option (List Byte)
  | [] => some bs
  | o :: os =>
    match s.relocValue l bs o, relocField bs o with
    | some v, some (at', n, hi, lo) =>
      if 2 ^ (hi + 1 - lo) ≤ v || bs.length < at' + n then none
      else s.relocate l (bs.take at' ++ bytesOf n (setBits (img bs at' n) hi lo v) ++ bs.drop (at' + n)) os
    | _, _ => none

/-! ### The load (R263, R265, R266, R402) -/

/-- Gives a window of node 24 room in LPDDR6, filled with zero, from 64 GiB on (R364; DESIGN CHOICE, log 109). -/
def State.lpddrWindow (s : State) (job w n : Nat) : Option State :=
  let up (a : Nat) : Nat := (a + 65535) / 65536 * 65536
  let base := (s.windows.filter fun e => e.1 / 4096 % 32 == 24).foldl (fun m e => max m (up (winBase e.2 + winSize e.2))) (2 ^ 36)
  if 2 ^ 37 < base + up n then none
  else some { s.clearMem (lpddrAddr base) (up n) with windows := NMap.set s.windows (windowKey job 24 w) (base + 2 ^ 60 + n * 2 ^ 64) }

/-- Gives the windows of an image room on node 24. -/
def State.lpddrWindows (s : State) (job : Nat) : List (Nat × Nat) → Option State
  | [] => some s
  | x :: xs =>
    match s.lpddrWindow job x.1 x.2 with
    | some s => s.lpddrWindows job xs
    | none => none

/-- Maps the windows of an image on one island and writes their table entries (R265, R364). -/
def State.mapWindows (s : State) (part asid job : Nat) (wins : List (Nat × Nat)) (sizes : List Nat) (island : Nat) : Option State :=
  if island = 24 then s.lpddrWindows job ((wins.map Prod.snd).zip sizes) else match s.mapPieces part island asid (sizes.map fun n => (n, loadLeaf 1 true true false)) with
  | some (xs, s) => some { s with
      windows := ((wins.zip sizes).zip xs).foldl (fun m x =>
        NMap.set m (windowKey job island x.1.1.2) (x.2.1 + asid * 2 ^ 48 + 2 ^ 60 + x.1.2 * 2 ^ 64)) s.windows }
  | none => none

/-- Maps the windows on every island of a list that does not have them yet. -/
def State.mapWindowsOn (s : State) (part asid job : Nat) (wins : List (Nat × Nat)) (sizes : List Nat) : List Nat → Option State
  | [] => some s
  | n :: ns =>
    let s' := if wins.all fun x => winOk (s.window job n x.2) then some s else s.mapWindows part asid job wins sizes n
    match s' with
    | some s => s.mapWindowsOn part asid job wins sizes ns
    | none => none

/-- The whole load of an image that its own checks admit; none where it is refused. Overlays take REL pages with R and X, windows REL
pages with R and W, sections their type, R, and W unless RO; a GAUGE section is not mapped (R265). -/
def State.loadImage (s : State) (part island asid job : Nat) (bs : List Byte) : Option State :=
  let ovls := imgRecords bs 24 12 2 16
  let nums := lowestFree (s.ovlsLoaded island asid) 0 ovls.length
  let wants := imgWindows bs
  let sizes := wants.map Prod.snd
  let islands := s.jobIslands job island
  let winNums := (s.earlierWindows part job (img bs 8 4) wants).getD ((s.freeWindows job islands).take wants.length)
  let wins := (wants.map Prod.fst).zip winNums
  let sects := imgRecords bs 48 20 4 16
  let gauge (o : Nat) : Bool := bit (img bs (o + 13) 1) 3
  let mapped := sects.filter fun o => !gauge o
  if nums.any (65536 ≤ ·) || winNums.length < wants.length || sizes.any fun n => n < 64 || 2 ^ 24 < n then none
  else match s.mapPieces part island asid (ovls.map fun o => (8 * img bs (o + 4) 2, loadLeaf 1 true false true)) with
  | none => none
  | some (ox, s1) =>
    match s1.mapPieces part island asid (mapped.map fun o =>
        (img bs (o + 8) 4, loadLeaf (img bs (o + 13) 1 % 4) true (!bit (img bs (o + 13) 1) 2) false)) with
    | none => none
    | some (sx, s2) =>
      match s2.mapWindowsOn part asid job wins sizes islands with
      | none => none
      | some s3 =>
        let l : Loaded :=
          { part := part, island := island, asid := asid, job := job, image := img bs 8 4, priv := img bs 6 1 % 2 == 1
            ovls := (ovls.zip (nums.zip ox)).map fun x => (img bs x.1 2, x.2.1, x.2.2.1, img bs (x.1 + 2) 1)
            wins := wins
            sects := sects.map fun o => (NMap.find? (mapped.zip sx) o).elim 0 Prod.fst }
        match s.relocate l bs (imgRecords bs 40 16 4 16) with
        | none => none
        | some b =>
          let s4 := (ovls.zip ox).foldl (fun (s : State) x => s.fillPiece island x.2.2 ((b.drop (img b (x.1 + 8) 8)).take (8 * img b (x.1 + 4) 2))) s3
          let s5 := (mapped.zip sx).foldl (fun (s : State) x =>
            let n := img b (x.1 + 8) 4
            let s := s.fillPiece island x.2.2 ((b.drop (img b x.1 8)).take n)
            if img b (x.1 + 13) 1 % 4 = 2 then
              (x.2.2.zipIdx).foldl (fun s y =>
                s.setWritten (hbmAddr island y.1 / 4) ((min 65536 (n - 65536 * y.2) + 3) / 4) true) s
            else s) s4
          some { s5 with images := s5.images ++ [l] }

/-- `BELYEL_IMAGE_LOAD` (R263 to R267, R402): a refused image leaves nothing behind; a loaded one extends its partition's measurement. -/
def execBelyelImageLoad (place : LoadPlace) (image : List Byte) (s : State) : Out :=
  if !s.imgOk place.part image || !s.topo.live place.island then .next s
  else match s.loadImage place.part place.island place.asid place.job image with
    | none => .next s
    | some t => .next { t with
        boot := { t.boot with pmeas := NMap.set t.boot.pmeas place.part (sha384 (s.pmeas place.part ++ sha384 image)) } }

end Sys2Proof.Machine
end

