-- ==== Sys2Proof/Machine/Fetch.lean ====
section
/-!
DEFINITION. Fetching: the instruction that stands at a group's PC (R240, R256) or at a gauge run's word (R231), and the
placing of an instruction where the next step fetches it (log 1).
-/
namespace Sys2Proof.Machine

/-- Bytes from a group's PC: the word there and the word after it, as memory holds them (R23, R240). -/
def State.fetchBytes (s : State) (i : Issue) : List Byte :=
  let b := s.block (s.warp i.warp).block
  Memory.readN s.mem (slotAddr b.island b.core i.pc.slot i.pc.ofs) 16

/-- First word past the group's block (R241). -/
def State.blockLimit (s : State) (i : Issue) : Nat := ((s.warp i.warp).thread (i.lanes.headD 0)).blockEnd

/-- The instruction a group issues: none where the word is a header inside a block, or where a second word would lie past
the block (R242, R256). -/
def State.fetchIssue (s : State) (i : Issue) : Option Instr :=
  match decode (s.fetchBytes i) with
  | .ok (ins, rest) =>
    if s.blockLimit i < i.pc.ofs + (if rest.length = 0 then 2 else 1) then none else some ins
  | .error _ => none

/-- The stop of a group at a word that cannot issue (R242, R256). -/
def badFetch (s : State) : Out :=
  issueWith s (fun _ => .stop 0x02 [] 0 0) fun _ => s

/-- The instruction word of a gauge run (R231). -/
def State.fetchGaugeWord (s : State) (g : Nat) (r : GaugeRun) : Option Instr :=
  match decodeGauge (BitVec.ofNat 32 (s.readMem (gaugeProgAddr g r.pc) 4)) with
  | .ok i => some i
  | .error _ => none

/-- A gauge word placed where the next step fetches it: at word 0 of gauge 0, with a run of attachment 0 begun there. -/
def State.placeGauge (s : State) (w : Nat) : State :=
  let s := s.writeMem (gaugeProgAddr 0 0) 4 w
  { s with gauges := NMap.set [] 0 { s.gauge 0 with
      run := some { h := [], pc := 0, entry := 0, att := 0, part := 0, triggers := [], executed := 0, began := s.clk, undo := [] }
      ending := false } }

/-- A Umavi instruction placed where the next step fetches it: at word 1 of slot 0 of core 0 of island 0, with block 0 of
grid 1 resident there, one warp of 32 lanes inside a block of code, and its group chosen for issue. -/
def State.placeUmavi (s : State) (w : Nat) : State :=
  let s := (s.writeMem (slotAddr 0 0 0 1) 16 w)
  let g : Grid := { Grid.absent with record := List.replicate 8 0, status := .inTable, image := 1, blocks := [0] }
  let b : Block := { Block.absent with grid := 1, warps := [0], slots := [0] }
  let t : Thread := { Thread.start ⟨0, 1⟩ with blockEnd := 3 }
  let x : Warp := { Warp.start 0 0 0 32 ⟨0, 1⟩ [] 32 with threads := List.replicate 32 t }
  { s with
    gauges := []
    grids := NMap.set s.grids 1 g
    blocks := NMap.set s.blocks 0 b
    warps := NMap.set s.warps 0 x
    issue := some ⟨0, List.range 32, [], ⟨0, 1⟩, 0⟩ }

end Sys2Proof.Machine
end

