-- ==== Sys2Proof/Machine/Trial.lean ====
section
/-!
DEFINITION. The issue of one Umavi instruction, as the readiness of a group asks for it (R27, R96, R194).
-/
namespace Sys2Proof.Machine

/-- What the issue of a word's instruction leaves; an event is no instruction and leaves nothing changed. -/
def issueOf (ins : Instr) (s : State) : Out :=
  match ins with
  | .iadd w => execIadd w s
  | .isub w => execIsub w s
  | .imul w => execImul w s
  | .imulh w => execImulh w s
  | .imad w => execImad w s
  | .iaddi w => execIaddi w s
  | .imuli w => execImuli w s
  | .idiv w => execIdiv w s
  | .irem w => execIrem w s
  | .imin w => execImin w s
  | .imax w => execImax w s
  | .iabs w => execIabs w s
  | .ineg w => execIneg w s
  | .idot4 w => execIdot4 w s
  | .and w => execAnd w s
  | .or w => execOr w s
  | .xor w => execXor w s
  | .not w => execNot w s
  | .andi w => execAndi w s
  | .ori w => execOri w s
  | .xori w => execXori w s
  | .lut3 w => execLut3 w s
  | .shl w => execShl w s
  | .shr w => execShr w s
  | .sra w => execSra w s
  | .extr w => execExtr w s
  | .bfx w => execBfx w s
  | .bfi w => execBfi w s
  | .brev w => execBrev w s
  | .popc w => execPopc w s
  | .clz w => execClz w s
  | .ctz w => execCtz w s
  | .icmp w => execIcmp w s
  | .icmpi w => execIcmpi w s
  | .sel w => execSel w s
  | .plop w => execPlop w s
  | .mov w => execMov w s
  | .movi w => execMovi w s
  | .movw w => execMovw w s
  | .icvt w => execIcvt w s
  | .lea w => execLea w s
  | .brec w => execBrec w s
  | .bget w => execBget w s
  | .sadd w => execSadd w s
  | .ssub w => execSsub w s
  | .smul w => execSmul w s
  | .sand w => execSand w s
  | .sor w => execSor w s
  | .sxor w => execSxor w s
  | .sshl w => execSshl w s
  | .sshr w => execSshr w s
  | .ssra w => execSsra w s
  | .smin w => execSmin w s
  | .smax w => execSmax w s
  | .scmp w => execScmp w s
  | .smov w => execSmov w s
  | .ssel w => execSsel w s
  | .qlop w => execQlop w s
  | .fadd w => execFadd w s
  | .fsub w => execFsub w s
  | .fmul w => execFmul w s
  | .ffma w => execFfma w s
  | .fmin w => execFmin w s
  | .fmax w => execFmax w s
  | .fabs w => execFabs w s
  | .fneg w => execFneg w s
  | .fdiv w => execFdiv w s
  | .fsqrt w => execFsqrt w s
  | .frsqrt w => execFrsqrt w s
  | .frcp w => execFrcp w s
  | .fcmp w => execFcmp w s
  | .fclass w => execFclass w s
  | .faddi w => execFaddi w s
  | .fmuli w => execFmuli w s
  | .fdot2 w => execFdot2 w s
  | .fdot4 w => execFdot4 w s
  | .fround w => execFround w s
  | .fcvt w => execFcvt w s
  | .f2i w => execF2i w s
  | .i2f w => execI2f w s
  | .fpack w => execFpack w s
  | .funpack w => execFunpack w s
  | .fscale w => execFscale w s
  | .fexp2 w => execFexp2 w s
  | .flog2 w => execFlog2 w s
  | .fsin w => execFsin w s
  | .fcos w => execFcos w s
  | .ftanh w => execFtanh w s
  | .fsigm w => execFsigm w s
  | .fsgn w => execFsgn w s
  | .ffrac w => execFfrac w s
  | .fmxsc w => execFmxsc w s
  | .shfl w => execShfl w s
  | .vote w => execVote w s
  | .ballot w => execBallot w s
  | .matchLanes w => execMatchLanes w s
  | .qswap w => execQswap w s
  | .qbcast w => execQbcast w s
  | .wred w => execWred w s
  | .wscan w => execWscan w s
  | .tilew w => execTilew w s
  | .rdlane w => execRdlane w s
  | .wrlane w => execWrlane w s
  | .grpmask w => execGrpmask w s
  | .ldg w => execLdg w s
  | .ldgWait w => execLdgWait w s
  | .stg w => execStg w s
  | .ldl w => execLdl w s
  | .stl w => execStl w s
  | .lds w => execLds w s
  | .sts w => execSts w s
  | .ldc w => execLdc w s
  | .stc w => execStc w s
  | .ldbm w => execLdbm w s
  | .stbm w => execStbm w s
  | .atom w => execAtom w s
  | .atoms w => execAtoms w s
  | .atomc w => execAtomc w s
  | .sldg w => execSldg w s
  | .red w => execRed w s
  | .redOrd w => execRedOrd w s
  | .redflush w => execRedflush w s
  | .fence w => execFence w s
  | .fenceLanes w => execFenceLanes w s
  | .fenceFetch w => execFenceFetch w s
  | .wb w => execWb w s
  | .inv w => execInv w s
  | .bar w => execBar w s
  | .ldrec w => execLdrec w s
  | .pref w => execPref w s
  | .br w => execBr w s
  | .brm w => execBrm w s
  | .call w => execCall w s
  | .callr w => execCallr w s
  | .fcall w => execFcall w s
  | .ret w => execRet w s
  | .jmpr w => execJmpr w s
  | .exit w => execExit w s
  | .nop w => execNop w s
  | .brq w => execBrq w s
  | .wbload w => execWbload w s
  | .mloop w => execMloop w s
  | .mloopc w => execMloopc w s
  | .accrd w => execAccrd w s
  | .accwr w => execAccwr w s
  | .acczero w => execAcczero w s
  | .wbzero w => execWbzero w s
  | .put w => execPut w s
  | .get w => execGet w s
  | .ratom w => execRatom w s
  | .arm w => execArm w s
  | .waitarr w => execWaitarr w s
  | .notify w => execNotify w s
  | .garm w => execGarm w s
  | .gset w => execGset w s
  | .xfill w => execXfill w s
  | .ovld w => execOvld w s
  | .onceinit w => execOnceinit w s
  | .launch w => execLaunch w s
  | .keymap w => execKeymap w s
  | .srd w => execSrd w s
  | .swr w => execSwr w s
  | .trap w => execTrap w s
  | .sleep w => execSleep w s
  | .sysrd w => execSysrd w s
  | .syswr w => execSyswr w s
  | .gmark w => execGmark w s
  | .unassignedOpcode word => execUnassignedOpcode word s
  | _ => .next s

end Sys2Proof.Machine
end

