-- ==== Sys2Proof/Machine/Issue.lean ====
section
/-!
DEFINITION. The choice of a warp and its group for issue (R27 to R30, R193, R194), the entry of a block through its header (R29, R242),
and the spin detector's events (R42, R43).
-/
namespace Sys2Proof.Machine

/-! ### Groups (R27, R28) -/

/-- A thread that may stand in an issue group: Active and not asleep (R27, R343). -/
def Thread.inGroup (t : Thread) : Bool := t.st == .active && t.wake == none

/-- Lanes of the group that a lane stands in: equal PC and equal call depth (R27, R28). -/
def Warp.groupOfLane (w : Warp) (l : Nat) : List Nat :=
  w.lanesWith fun t => t.inGroup && t.pc == (w.thread l).pc && t.depth == (w.thread l).depth

/-- The groups of a warp, by their lowest lane. -/
def Warp.groups (w : Warp) : List (List Nat) :=
  (w.lanesWith Thread.inGroup).filterMap fun l => if (w.groupOfLane l).head? = some l then some (w.groupOfLane l) else none

/-- Something on which a lane's next issue waits is still in progress. -/
def State.inProgress (s : State) (w : Warp) (id : Nat) : Bool :=
  s.msgs.any (fun m => m.id == id) || s.pend.any (fun p => p.id == id) || s.stalls.any (fun x => x.id == id) ||
    s.waits.any (fun x => x.id == id) || (w.mq ++ w.xq ++ w.fq).any (fun c => c.id == id) ||
    w.log.any fun e => e.num == id && e.replay

/-- A held group (R29): its PC is the RCP of another live thread at its call depth that is not a member. -/
def Warp.isHeld (w : Warp) (ls : List Nat) : Bool :=
  let t := w.thread (ls.headD 0)
  (List.range w.threads.length).any fun k =>
    !ls.contains k && (w.thread k).st.live && (w.thread k).rcp == some t.pc && (w.thread k).depth == t.depth

/-! ### Entering a block (R29, R241, R242) -/

/-- A thread at the end of a block, or at a header it was sent to: its next word must be a header (R240). -/
def Thread.atBoundary (t : Thread) : Bool := t.blockEnd ≤ t.pc.ofs

/-- Whether a header may be entered: LEN from 1, the block inside the slot, reserved bits zero (R242). -/
def headerOk (h ofs : Nat) : Bool :=
  bits h 55 46 != 0 && decide (ofs + bits h 55 46 ≤ 8191) && bits h 11 10 == 0 && bits h 7 0 == 0

/-- One thread enters a header at its PC (R29, R240): its RCP, the block's end and LIVE, and the first instruction. -/
def enterThread (s : State) (b : Block) (h : Nat) (t : Thread) : Thread :=
  let goal : Int := (t.pc.ofs : Int) + sext 20 (bits h 34 15)
  let lands := bits h 34 15 != 0 && decide (0 ≤ goal) && decide (goal ≤ 8191) &&
    isHeader (s.slotWord b.island b.core t.pc.slot goal.toNat) false
  let rcp := if t.rcp = some t.pc then none else t.rcp
  { t with
    rcp := if lands then some ⟨t.pc.slot, goal.toNat⟩ else rcp
    blockEnd := t.pc.ofs + 1 + bits h 55 46, entered := true, live := bits h 45 35, pc := { t.pc with ofs := t.pc.ofs + 1 } }

/-- A group ready to issue: the state with it chosen; or a stop at the header it would enter. -/
inductive Entry where
  | go (s : State)
  | stop (s : State)

/-- A group passes through the header it stands at, if it stands at one (R242). The first header of a launch is one with ENTRY (R241; log
111). -/
def State.enterGroup (s : State) (wid : Nat) (ls : List Nat) : Entry :=
  let w := s.warp wid
  let b := s.block w.block
  let t := w.thread (ls.headD 0)
  if ls.all fun l => !(w.thread l).atBoundary then .go s
  else
    let h := s.slotWord b.island b.core t.pc.slot t.pc.ofs
    let fail (cls : Nat) : Entry := .stop (s.stopWarp wid cls 0 t.pc (s.ovlOf b.island b.core t.pc.slot) 0 0)
    if 8191 < t.pc.ofs || !isHeader h (ls.any fun l => !(w.thread l).entered) then fail 0x03
    else if !headerOk h t.pc.ofs || ls.any fun l => !(w.thread l).atBoundary then fail 0x02
    else .go (s.setWarp wid (w.modThreads ls (enterThread s b h)))

/-- Tries a group: none where it is not ready, else the state in which its instruction issues next (R27, R96, R194). Its
instruction is tried; a group that answers that it waits is not ready. -/
def State.tryGroup (s : State) (wid : Nat) (ls : List Nat) : Option Entry :=
  let w := s.warp wid
  if ls.any fun l => (w.thread l).hold.any (s.inProgress w) then none
  else match s.enterGroup wid ls with
    | .stop s => some (.stop s)
    | .go s =>
      let w := s.warp wid
      let t := w.thread (ls.headD 0)
      let i : Issue := ⟨wid, ls, helpersOf w ls, t.pc, t.depth⟩
      let s := { s.setWarp wid (w.modThreads ls fun t => { t with hold := [] }) with issue := some i, held := false }
      match s.fetchIssue i with
      | none => some (.go s)
      | some ins =>
        match issueOf ins s with
        | .next t => if t.held then none else some (.go s)
        | _ => some (.go s)

/-! ### The group chosen within a warp (R30) -/

/-- A ready group as the pipe compares it: (lanes, passed over by 16 issues, held, depth, PC, what its issue leaves). -/
structure ReadyGroup where
  lanes : List Nat
  starved : Bool
  isHeld : Bool
  depth : Nat
  pc : PC
  entry : Entry

/-- Ready groups of a warp. -/
def State.readyGroups (s : State) (wid : Nat) : List ReadyGroup :=
  let w := s.warp wid
  w.groups.filterMap fun ls => (s.tryGroup wid ls).map fun e =>
    let t := w.thread (ls.headD 0)
    { lanes := ls, starved := decide (16 ≤ NMap.getD w.passed (ls.headD 0) 0), isHeld := w.isHeld ls, depth := t.depth, pc := t.pc, entry := e }

/-- Whether group `a` comes before group `b` (R30). -/
def ReadyGroup.before (a b : ReadyGroup) : Bool :=
  if a.starved != b.starved then a.starved
  else if a.isHeld != b.isHeld then b.isHeld
  else if a.depth != b.depth then decide (b.depth < a.depth)
  else if a.pc.slot != b.pc.slot then decide (a.pc.slot < b.pc.slot)
  else if a.pc.ofs != b.pc.ofs then decide (a.pc.ofs < b.pc.ofs)
  else decide (a.lanes.headD 0 < b.lanes.headD 0)

/-- The group that a warp issues. -/
def chosenGroup (gs : List ReadyGroup) : Option ReadyGroup :=
  gs.foldl (fun b g => match b with
    | some x => if g.before x then some g else some x
    | none => some g) none

/-! ### The warp chosen for a pipe (R193, R194) -/

/-- Whether a warp may issue at all now (R193): no HOLD, no halt or save, no replay of a restore to come, no stop, budget left. -/
def State.mayIssue (s : State) (wid : Nat) : Bool :=
  let w := s.warp wid
  let b := s.block w.block
  !w.retired && !w.stopped && !b.halting && !b.saved && !b.retired && !(s.isl b.island).inHold &&
    !w.replaysFirst && !s.budgetStop (s.grid b.grid).part b.island

/-- An engine opcode (R346). -/
def engineOp (op : Nat) : Bool := [0xD0, 0xD1, 0xD2, 0xD6, 0xE0, 0xE1, 0xE2, 0xE5, 0xE8, 0xE9, 0xEA, 0xEB].contains op

/-- A guard-bound warp (R194): its chosen instruction would enter a queue whose head an undecided guard holds. -/
def State.guardBound (s : State) (wid : Nat) (e : Entry) : Bool :=
  match e with
  | .stop _ => false
  | .go t =>
    match t.issue with
    | none => false
    | some i =>
      let b := t.block (t.warp wid).block
      let op := bits (t.slotWord b.island b.core i.pc.slot i.pc.ofs) 63 56
      engineOp op && (((s.warp wid).headCmd (queueOf op)).map fun c => c.decided == none).getD false

/-- A warp with its chosen group, as the pipe compares it. -/
structure ReadyWarp where
  wid : Nat
  owed : Option Nat
  floor : Bool
  bound : Bool
  placed : Nat
  warpNo : Nat
  group : ReadyGroup
  others : List Nat

/-- Whether warp `a` is served before warp `b` (R194). -/
def ReadyWarp.before (a b : ReadyWarp) : Bool :=
  let rest : Bool :=
    if a.floor != b.floor then b.floor
    else if a.bound != b.bound then b.bound
    else if a.placed != b.placed then decide (a.placed < b.placed)
    else decide (a.warpNo < b.warpNo)
  match a.owed, b.owed with
  | some x, some y => if x = y then rest else decide (x < y)
  | some _, none => true
  | none, some _ => false
  | none, none => rest

/-- Index of a pipe of the panel. -/
def pipeIx (island core pipe : Nat) : Nat := 4 * coreIx island core + pipe

/-- Warps bound to a pipe that may issue. -/
def State.pipeWarps (s : State) (island core pipe : Nat) : List Nat :=
  (s.residents island core).flatMap fun b => b.warps.filter fun w => (s.warp w).pipe == pipe && s.mayIssue w

/-- Eligible warps of a pipe (R193). -/
def State.readyWarps (s : State) (island core pipe : Nat) : List ReadyWarp :=
  (s.pipeWarps island core pipe).filterMap fun wid =>
    let gs := s.readyGroups wid
    (chosenGroup gs).map fun g =>
      let w := s.warp wid
      { wid := wid, owed := w.owed, floor := w.floor, bound := s.guardBound wid g.entry, placed := (s.block w.block).placed
        warpNo := w.warpNo, group := g, others := (gs.map fun x => x.lanes.headD 0).filter fun k => k != g.lanes.headD 0 }

/-- The warp that a pipe serves. -/
def chosenWarp (ws : List ReadyWarp) : Option ReadyWarp :=
  ws.foldl (fun b x => match b with
    | some y => if x.before y then some x else some y
    | none => some x) none

/-- The warp's record of an issue (R30, R194): groups passed over count one more, and nothing is owed. -/
def Warp.issued (w : Warp) (others : List Nat) : Warp :=
  { w with passed := others.map (fun k => (k, min 16 (NMap.getD w.passed k 0 + 1))), waited := 0, owed := none, restored := false }

/-- `WARP_ISSUE_SELECT` (R194): once in a core clock in which issue is allowed, a pipe chooses a warp and its group; the next step
is that instruction. A stop at a header takes no issue. -/
def execWarpIssueSelect (island core pipe : Nat) (s : State) : Out :=
  if s.issue.isSome || !s.gateOpen island || s.issued.any (fun x => x.2.1 == pipeIx island core pipe) then .next s
  else match chosenWarp (s.readyWarps island core pipe) with
    | none => .next s
    | some x =>
      match x.group.entry with
      | .stop t => .next t
      | .go t =>
        let part := (t.grid (t.block (t.warp x.wid).block).grid).part
        let t := (t.modWarp x.wid fun w => w.issued x.others)
        let t := (t.coreCount island core 2 1).coreCount island core 3 x.group.lanes.length
        .next { t with issued := t.issued ++ [(x.wid, pipeIx island core pipe, part)] }

/-- Core clocks without issue after which a warp is owed (R194). -/
def Warp.owedAfter (w : Warp) : Nat := if w.floor then 48 else 256

/-- `WARP_OWED` (R194). -/
def execWarpOwed (warp : Nat) (s : State) : Out :=
  let w := s.warp warp
  .next (if w.owed = none && decide (w.owedAfter ≤ w.waited) then s.setWarp warp { w with owed := some s.clk } else s)

/-! ### The spin floor (R42, R43) -/

/-- `SPIN_FLOOR_FALL` (R42). -/
def execSpinFloorFall (warp : Nat) (s : State) : Out :=
  let w := s.warp warp
  let b := s.block w.block
  .next (if w.spinCount = 64 && !w.floor then
      (s.setWarp warp { w with floor := true, floorAt := s.itime b.island }).gaugeSee b.island 0x03 b.core
        (some (s.grid b.grid).part) w.warpNo
    else s)

/-- `SPIN_FLOOR_TIMEOUT` (R43): 16 µs of ITIME on the floor. -/
def execSpinFloorTimeout (warp : Nat) (s : State) : Out :=
  let w := s.warp warp
  .next (if w.floor && decide (w.floorAt + 16000 ≤ s.itime (s.block w.block).island) then s.setWarp warp w.spinReset else s)

end Sys2Proof.Machine
end

