-- ==== Sys2Proof/Machine/Startup.lean ====
section
/-!
DEFINITION. Starts and their stages (R173, R175, R404 to R407), degraded operation (R408 to R410), power control (R411), and the
registers as software writes and reads them (R5, R6, R397).
-/
namespace Sys2Proof.Machine

/-! ### The beginning of a start (R404, R405) -/

/-- No topology table is in force (R175). -/
def Topology.empty : Topology := ⟨0, [], [], []⟩

/-- A register that every start keeps (R211). -/
def keptReg (key : Nat) : Bool := key / 2 ^ 40 == regCode .optLasb

/-- Clears the gauges' memories (R236, R404). -/
def State.clearGauges (s : State) : State := (List.range 25).foldl (fun s g => s.clearMem (gaugeAddr g 0) (2 ^ 18)) s

/-- Begins a start of a kind (R404, R405): every grid and saved context goes, every register takes its reset value; ISL_COHMODE.PLAIN
stands at 1 until stage 3. Memory is kept, but for gauge memory at a cold start (log 38); HOLDS, PLACED and the fault records' SEQ count
since the cold start (R170, R196, R380). -/
def State.beginStart (s : State) (kind : Nat) : State :=
  let z := State.reset
  let s' : State :=
    { z with
      clk := s.clk, fresh := s.fresh, draw := s.draw, inputs := s.inputs, mem := s.mem
      regs := (List.range 24).foldl (fun m n => NMap.set m (regKey .islCohmode n) 1) (s.regs.filter fun e => keptReg e.1)
      islands := (List.range 24).map fun n =>
        let old := s.isl n
        let x := { Island.start 0 0 0 with lock := false, powered := false }
        (n, if kind = 0 then x else { x with holds := old.holds, placed := old.placed, seqNo := old.seqNo })
      ports := z.ports.map fun (e : Nat × Port) => (e.1, { e.2 with st := PortState.train })
      topo := Topology.empty
      boot := { s.boot with
        stage := 0, kind := kind, fail := false, starting := true, begun := s.clk, redo := 0, meas := [], pmeas := [], keys := [], keyLock := false
        atReqs := [], atBuf := [], results := [], attKey := 0, keyed := [] } }
  if kind = 0 then s'.clearGauges else s'

/-- Whether a start of a kind may begin: one requested during a start is ignored, but a cold start wins over a warm one requested in the
same core clock (R405). -/
def State.mayBegin (s : State) (kind : Nat) : Bool :=
  !s.boot.starting || (kind == 0 && s.boot.kind == 1 && s.boot.stage == 0 && s.boot.begun == s.clk)

/-- `START_COLD` (R405). -/
def execStartCold (s : State) : Out := .next ((if s.mayBegin 0 then s.beginStart 0 else s).command .startCtl 0 1)

/-- `START_WARM` (R405). -/
def execStartWarm (s : State) : Out := .next ((if s.mayBegin 1 then s.beginStart 1 else s).command .startCtl 0 0)

/-- `POWER_ON` (R405): no memory holds anything (log 3). -/
def execPowerOn (s : State) : Out := .next { s.beginStart 0 with mem := [] }

/-- The firmware key's number (R404). -/
def firmwareKey : Nat := 0

/-- A firmware image with its signature in the last 96 bytes (log 40). -/
def firmwareOk (image : List Byte) : Bool :=
  let body := image.take (image.length - 96)
  decide (96 < image.length) && Config.verify firmwareKey (sha384 body) (image.drop (image.length - 96))

/-- `STAGE_0` (R404, R402, R401): the ROM verifies the image that a recovery gave it, else the one it finds; its digest extends ROT_MEAS0, of
which the attestation key is made; an invalid image sets FAIL and KIND 2. The start finds the panel as it is (R10). -/
def execStage0 (found : PanelFound) (s : State) : Out :=
  let image := if s.boot.image.isEmpty then found.image else s.boot.image
  if !s.boot.starting || s.boot.stage != 0 || s.boot.fail then .next s
  else if firmwareOk image then
    let s := { s with boot := { s.boot with stage := 1, imageValid := true, sites := found.sites, dead := found.dead } }.extendMeas 0 (sha384 image)
    .next { s with boot := { s.boot with attKey := Config.attestationKey Config.deviceKey (s.meas 0) } }
  else .next { s with boot := { s.boot with fail := true, kind := 2, imageValid := false, image := [] } }

/-- `FIRMWARE_RECOVERY` (R404): with an invalid image the ROM takes a new one and a cold start begins; stage 0 verifies it. The image accepted
is the one image of later starts too (DEDUCED, log 140). -/
def execFirmwareRecovery (image : List Byte) (s : State) : Out :=
  let t := s.beginStart 0
  .next (if s.boot.starting && s.boot.fail && s.boot.kind = 2 then { t with boot := { t.boot with image := image } } else s)

/-- The start tree over the populated sites and the links that lock (R173): `dead` names ports whose link does not. -/
def stage1Tree (sites : List Nat) (dead : List (Nat × Nat)) : List (Nat × Nat × Nat) :=
  let there (n : Nat) : Bool := sites.contains n
  let locks (n p : Nat) : Bool := !dead.contains (n, p) && (farEnd n p).any fun m => !dead.contains m && (m.1 == 24 || there m.1)
  startTree fun n p => let k := portKind there n p; there n && (k == 1 || k == 3) && locks n p

/-- `STAGE_1` (R173, R219, R404): the start tree; PTIME and the control die's ITIME restart; each site in the tree locks and enters HOLD.
A site without dies, or that the tree does not reach, is not powered. The entry counts in HOLDS but at a cold start (log 107). -/
def execStage1 (s : State) : Out :=
  if !s.boot.starting || s.boot.stage != 1 then .next s
  else
    let tree := stage1Tree s.boot.sites s.boot.dead
    let s := { s with
      cdItime := 0
      samples := []
      boot := { s.boot with stage := 2 }
      islands := (List.range 24).map fun n =>
        let old := s.isl n
        let keep (x : Island) : Island := { x with holds := old.holds, placed := old.placed, seqNo := old.seqNo }
        match tree.find? fun (t : Nat × Nat × Nat) => t.1 == n with
        | some t =>
          let x := { keep (Island.start t.2.1 t.2.2 0) with inHold := true }
          (n, if s.boot.kind = 0 then x else { x with holds := min 0xFFFF (x.holds + 1) })
        | none => (n, { keep (Island.start 0 0 0) with lock := false, powered := false }) }
    .next (tree.foldl (fun (s : State) t => s.gaugeSee t.1 0x30 0 none 1) (s.gaugePeriod 24))

/-! ### Stage 2 (R406, R407) -/

/-- A saved-results record (R406): core codes, the device's own results, ROT_MEAS0, the site, and the digest of all of them. -/
def savedRecord (s : State) (site : Nat) (cores : List Nat) (own : List Byte) : List Byte :=
  let body := ((cores ++ List.replicate 160 0).take 160).map (BitVec.ofNat 8) ++ own ++ s.meas 0 ++ bytesOf 1 site
  body ++ sha384 body

/-- A record verifies: its digest, its ROT_MEAS0 and its site (R406). -/
def recordOk (s : State) (site : Nat) (r : List Byte) : Bool :=
  let body := r.take (r.length - 48)
  decide (257 ≤ r.length) && sha384 body == r.drop (r.length - 48) && (body.drop (body.length - 49)).take 48 == s.meas 0 &&
    fieldAt body (body.length - 1) 1 == site

/-- What one island's stage 2 makes of its record: whether its steps ran in full or in part again (REDO), the result with its core
codes, and the record that is used. An eye search that a port runs again writes the record anew and sets no REDO bit (R406). -/
def stage2Site (s : State) (r : SiteResult) : Bool × SiteResult × List Byte :=
  let saved := (NMap.find? s.boot.saved r.site).getD []
  if s.boot.kind = 1 && recordOk s r.site saved then
    let r' := { r with cores := (saved.take 160).map fun b => b.toNat % 4 }
    if r.readBack && r.eye then (false, r', saved)
    else (!r.readBack, r', savedRecord s r.site r'.cores r.record)
  else (s.boot.kind == 1, r, savedRecord s r.site r.cores r.record)

/-- One island's stage 2 (R406, R402): REDO, HBM_ERR.SAVED, the saved record and ROT_MEAS1. -/
def State.stage2One (s : State) (r : SiteResult) : State :=
  let x := stage2Site s r
  let s := { s with boot := { s.boot with
    redo := if x.1 then setBits s.boot.redo r.site r.site 1 else s.boot.redo
    results := s.boot.results ++ [x.2.1] } }
  let s := (List.range 8).foldl (fun s k => s.setReg .hbmErr (eightIx r.site k) (if x.1 then 0 else 2 ^ 48)) s
  if r.pass then
    { s with boot := { s.boot with saved := NMap.set s.boot.saved r.site x.2.2 } }.extendMeas 1 (x.2.2.drop (x.2.2.length - 48))
  else s.requestReplace

/-- `STAGE_2` (R404, R406, R407): the routers take the topology key (R401), and the islands go in ascending order; a populated site that the
start tree misses fails (R173, R409); with fewer than 21 that pass the panel stays at stage 2. -/
def execStage2 (results : List SiteResult) (s : State) : Out :=
  if !s.boot.starting || s.boot.stage != 2 || s.boot.fail then .next s
  else
    let mine := (List.range 24).filterMap fun n => if (s.isl n).powered then results.find? fun r => r.site == n else none
    let s := { s with boot := { s.boot with keyed := 24 :: (List.range 24).filter fun n => (s.isl n).powered } }
    let s := if s.boot.sites.any fun n => n < 24 && !(s.isl n).powered then s.requestReplace else s
    let s := mine.foldl State.stage2One s
    let pass (n : Nat) : Bool := mine.any fun r => r.site == n && r.pass
    let s := s.mapPorts fun n p _ => Port.trained n p (if n < 24 && !pass n then 0 else portKind pass n p)
    if (mine.filter fun r => r.pass).length < 21 then .next { s with boot := { s.boot with fail := true } }.requestReplace
    else .next { s with boot := { s.boot with stage := 3 } }

/-! ### Stage 3 (R175, R404) -/

/-- The first table of a start (R173, R175): the sites that passed, their ports and cores, and the tree of the same search over the
links that lock. -/
def State.firstTable (s : State) : Topology :=
  let pass (n : Nat) : Bool := !s.fenceSites.contains n && s.boot.results.any fun r => r.site == n && r.pass
  let locks (n p : Nat) : Bool := n == 24 || s.boot.results.any fun r => r.site == n && r.links.contains p
  let tree := startTree fun n p =>
    let k := portKind pass n p
    pass n && (k == 1 || k == 3) && locks n p && (farEnd n p).any fun m => locks m.1 m.2
  { tver := 0
    sites := (List.range 24).map fun n =>
      match s.boot.results.find? fun r => r.site == n && pass n with
      | some r =>
        { live := true
          cores := (List.range 160).filterMap fun k => if r.cores.getD k 0 % 4 = 0 then none else some (k, r.cores.getD k 0 % 4)
          ports := (List.range 12).map fun p => (p, portKind pass n p)
          clkpar := (tree.find? fun t => t.1 == n).elim 0 fun t => t.2.1 }
      | none => ⟨false, [], [], 0⟩
    ctlPorts := (List.range 8).map fun p => (p, portKind pass 24 p)
    digest := [] }

/-- Full function (R404): services start, PLAIN falls, HOLD is left, records that TAIL has passed are read, and what the start has left to
fence or retire is staged (R408). The start's own update and the events its gauges counted leave their registers at the values of R5 (log
107). -/
def State.fullFunction (s : State) : State :=
  let s := { s with boot := { s.boot with starting := false } }
  let s := (List.range 24).foldl (fun s n =>
    let s := s.setReg .islCohmode n 0
    if s.topo.live n then s.leaveHold n else s.modIsl n fun x => { x with powered := false }) s
  let s := { s.setTupd 31 0 0 with regs := (s.setTupd 31 0 0).regs.filter fun e => e.1 / 2 ^ 40 != regCode .tgpScnt }
  ((List.range 64).foldl (fun s q =>
    let n := s.qSize q
    let h := s.qHead q
    (s.enqueueFrom q h ((s.reg .lkpQtail q + n - h % n) % n)).serveQueue q) s).stageOwn

/-- `STAGE_3` (R175): the first table is built and sent; once it is in force the panel reaches full function. -/
def execStage3 (s : State) : Out :=
  if !s.boot.starting || s.boot.stage != 3 then .next s
  else if s.topo.tver != 0 then .next s.fullFunction
  else if s.update.isSome then .next s
  else .next (s.sendTable s.firstTable false)

/-! ### Degraded operation (R408 to R410) -/

/-- START_STAT.DEGRADED (R409), against a manufacture record of a full panel (log 5). -/
def State.degraded (s : State) : Bool :=
  (List.range 24).any (fun n => !s.topo.live n || (List.range 160).any fun k => s.coreCode n k == 3) ||
    s.ports.any fun e => (e.2.st == .up && decide (maskCount e.2.wlmask < 8)) || (e.2.st != .absent && bit e.2.wlmask 8)

/-- START_STAT as it reads (R405): only the hypervisor's window shows DEGRADED and REPLACE_REQUEST (R400). -/
def State.startStat (s : State) (hyper : Bool) : Nat :=
  let b (v : Bool) (k : Nat) : Nat := if v then 2 ^ k else 0
  s.boot.stage + s.boot.kind * 2 ^ 3 + b s.boot.fail 5 + b (hyper && s.degraded) 6 + b (hyper && s.boot.replace) 7 + s.boot.redo * 2 ^ 16

/-- `REPLACE_REQUEST_CLEAR` (R409): an event of the same core clock leaves it set (R5). -/
def execReplaceRequestClear (s : State) : Out :=
  .next (if s.clears .startStat 0 7 (2 ^ 7) then { s with boot := { s.boot with replace := false } } else s)

/-- A site is due to be fenced (R408): a live one by a table of its own, one that a start has powered by the start's first table. -/
def State.fenceSite (s : State) (n : Nat) : State :=
  if !s.topo.live n && !(s.boot.starting && (s.isl n).powered) then s
  else (if s.fenceSites.contains n then s else { s with fenceSites := s.fenceSites ++ [n] }.requestReplace).stageOwn

/-- `CORE_SOFT_ERROR` (R408): a failed self-check drains the core, pre-empts its blocks and has a table mark it retired. -/
def execCoreSoftError (island core : Nat) (fails : Bool) (s : State) : Out :=
  if !fails || 160 ≤ core || s.coreCode island core = 3 || s.retireCores.contains (island, core) then .next s
  else
    let s := s.setReg .coreStat (coreIx island core) 1
    let s := { s with retireCores := s.retireCores ++ [(island, core)] }.requestReplace
    .next ((s.preemptBlocks (s.blocks.filter fun b =>
      b.2.island == island && b.2.core == core && !b.2.saved && !b.2.retired)).stageOwn)

/-- The stack that an address of an island stands in (log 39). -/
def hbmStack (address : Nat) : Nat := address / 2 ^ 36 % 8

/-- Whether a message carries data that a slice has read: its words on their way to the reader. -/
def Msg.carriesRead (m : Msg) : Bool := m.kind == .data || m.kind == .xdata || m.kind == .aack

/-- Lanes of a read that a word serves: those of a load, and those whose atomic's old value it is. -/
def Pend.readers (p : Pend) (m : Msg) (w : Nat) : List Nat :=
  let serves (pa n : Nat) : Bool := pa / 4 ≤ w && w ≤ (pa + n - 1) / 4
  (p.lanes.filter fun l => !l.helper && serves l.pa p.size).map (fun l => l.lane) ++ (m.ops.filter fun o => serves o.pa p.size).map fun o => o.lane

/-- The reads on their way to a core that have met an uncorrectable error in a word: their lanes receive poison in each word and set
LSTAT.POISON (R98, R410); a copy that the L1 keeps holds the poison. -/
def State.poisonReads (s : State) (island w : Nat) : State :=
  let hit (m : Msg) : Bool := m.carriesRead && m.island == island && m.words.contains w
  let ms := s.msgs.filter hit
  { s with
    msgs := s.msgs.map fun (m : Msg) => if hit m then { m with cells := Memory.writeN m.cells (4 * w) (bytesOf 4 0xFFC00001) } else m
    pend := s.pend.map fun (p : Pend) =>
      let ls := ((ms.filter fun m => m.asker == some p.id).flatMap fun m => p.readers m w).eraseDups
      if ls.isEmpty then p else { p with bad := p.bad ++ ls, flags := p.flags ++ ls.map fun l => (l, flagPoison) } }

/-- `HBM_UNCORRECTABLE` (R410, R98): a corrected error counts in CORR; one that is not counts in UNCORR, and at 16 the island is fenced; the
reads that meet it return poison. -/
def execHbmUncorrectable (island : Nat) (error : HbmError) (s : State) : Out :=
  let ix := eightIx island (hbmStack error.address)
  let v := s.reg .hbmErr ix
  if error.corrected then .next (s.setReg .hbmErr ix (setBits v 31 0 (min 0xFFFFFFFF (bits v 31 0 + 1))))
  else
    let n := min 0xFFFF (bits v 47 32 + 1)
    let s := (s.setReg .hbmErr ix (setBits v 47 32 n)).poisonReads island (hbmAddr island (error.address % hbmSize) / 4)
    .next (if 16 ≤ n then s.fenceSite island else s)

/-! ### Power control (R411) -/

/-- A limit in its range, or the value it acts as. -/
def limitIn (v lo hi : Nat) : Nat := if lo ≤ v && v ≤ hi then v else hi

/-- CAP of an island, in W. -/
def State.islCap (s : State) (n : Nat) : Nat := limitIn (bits (s.reg .pwrIsl n) 10 0) 300 1100

/-- Steps of 62.5 MHz above 1,000 MHz that a CLK field stands for, and the field of a number of steps, rounded down. -/
def clkSteps (f : Nat) : Nat := (2 * (f - 1000) + 124) / 125
def clkField (k : Nat) : Nat := 1000 + 125 * k / 2

/-- `POWER_CONTROL_ACTION` (R411): one step of clock or gate, from the mean power and the hottest sensor. -/
def execPowerControlAction (island power temp : Nat) (s : State) : Out :=
  let v := s.reg .pwrIsl island
  let cap := s.islCap island
  let all := sum ((List.range 24).map fun n => if s.topo.live n then s.islCap n else 0)
  let panel := limitIn (bits (s.reg .pwrPanel 0) 15 0) 500 2800
  let hot := cap < power || panel * 10 * cap < power * all || 105 < temp
  let cool := power * 100 < 95 * cap && power * all * 100 < 95 * (panel * 10 * cap) && temp ≤ 100
  let k := clkSteps (bits v 33 22)
  let gate := bits v 45 43
  let next : Nat × Nat :=
    if hot then (if 0 < k then (k - 1, gate) else (0, min 4 (gate + 1)))
    else if cool then (if 0 < gate then (k, gate - 1) else (min 16 (k + 1), 0))
    else (k, gate)
  let thr := if next.1 < 16 || next.2 != 0 then 2 ^ 42 else 0
  let s := s.setReg .pwrIsl island
    (bits v 10 0 + power % 2048 * 2 ^ 11 + clkField next.1 * 2 ^ 22 + temp % 256 * 2 ^ 34 + thr + next.2 * 2 ^ 43)
  .next (if 115 < temp then s.fenceSite island else s)

/-! ### Registers as software writes and reads them (R5, R6, R106, R397) -/

/-- OPT_FOCFG's fields (R204). -/
def focfgBits (v : Nat) : Nat := bits v 12 0 + bits v 23 16 * 2 ^ 16

/-- A write of OPT_PCTL (R204): DARKMAX is taken; each W1S bit acts on the state in which the write finds the port, and reads 1 in this core
clock whether it acts or not (log 118). -/
def State.writePctl (s : State) (n p value : Nat) : Out :=
  let st := (s.port n p).st
  let s := (List.range 4).foldl (fun s b => if bit value b then s.command .optPctl (portIx n p) b else s) s
  let s := s.modPort n p fun x => { x with darkmax := bits value 15 4 }
  let s := if bit value 3 then s.modPort n p Port.clearErrors else s
  if bit value 0 && st == .up then execDrain n p s
  else if bit value 1 && st == .drained then execDark n p s
  else if bit value 2 then execRelock n p s
  else .next s

/-- A write of LKP_GRIDCTL (R186): GID and OP are taken; GO performs OP. -/
def State.writeGridctl (s : State) (value : Nat) : Out :=
  let gid := bits value 15 0
  let op := bits value 17 16
  if !bit value 18 || op = 0 then .next (s.gridctlOp gid op)
  else if op = 1 then execGridPreempt gid s
  else if op = 2 then execGridResume gid s
  else execGridEndRequest gid s

/-- A write of ISL_REPLAY (R377, R379): ASID is taken; ALL, or else GO, replays. -/
def State.writeReplay (s : State) (island value : Nat) : State :=
  let s := s.setReg .islReplay island (bits value 11 0)
  let s := [12, 13].foldl (fun s b => if bit value b then s.command .islReplay island b else s) s
  if bit value 13 then s.trigger island none
  else if bit value 12 then s.trigger island (some (bits value 11 0))
  else s

/-- `REGISTER_WRITE` (R5, R6): RW fields take their bits; RO and reserved bits stand. Registers that have events of their own take their
part here. Port, island, core and partition indices are those of each register's rule. -/
def execRegisterWrite (reg : RegName) (index value : Nat) (s : State) : Out :=
  let set (v : Nat) : Out := .next (s.setReg reg index v)
  match reg with
  | .corePmc | .islPmc => .next (s.writeCounter reg index value)
  | .corePmsel | .islPmsel => set (bits value 7 0)
  | .optFocfg => set (focfgBits value)
  | .optPctl => s.writePctl (index / 16) (index % 16) value
  | .pwrIsl => set (setBits (s.reg .pwrIsl index) 10 0 (bits value 10 0))
  | .pwrPanel => set (bits value 15 0)
  | .islReplay => .next (s.writeReplay index value)
  | .lkpTstage => execLkpTstageGo value s
  | .lkpGridctl => s.writeGridctl value
  | .rotAtbuf => .next (s.writeAtbuf (index / 64) (index % 64) value)
  | .startStat => if bit value 7 then execReplaceRequestClear s else .next s
  | .coreStat => execCoreDrainWrite (index / 160) (index % 160) value s
  | .lkpQbase => execLkpQbaseWrite index value s
  | .lkpQtail => execLkpQtailWrite index value s
  | .lkpQctl => execLkpQctlWrite index value s
  | .mapkRqbase => execMapkRqbaseWrite (index / 32) (index % 32) value s
  | .mapkRqtail => execMapkRqtailWrite (index / 32) (index % 32) value s
  | .islLease => execIslLeaseWrite index value s
  | .islCohmode => execCohmodePlainWrite index value (if bit value 1 then s.predclr index else s)
  | .islNctr => execIslNctrWrite (index / 4096) (index % 4096) value s
  | .tgpAtt =>
    if bit value 0 then execTgpAttEnable (index / 128) (index % 128) value s
    else execTgpAttDisable (index / 128) (index % 128) value s
  | .tgpGwin => execTgpGwinWrite (index / 128) (index % 128) value s
  | .tgpBud => execTgpBudWrite (index / 128) (index % 128) value s
  | .islFqbase => execIslFqbaseWrite index value s
  | .islFqhead => execIslFqheadWrite index value s
  | .partCfg => execPartCfgWrite index value s
  | .partSlice => execPartSliceWrite (index / 32) (index % 32) value s
  | .partShare => execPartShareWrite (index / 32) (index % 32) value s
  | .partBud => execPartBudWrite (index / 32) (index % 32) value s
  | .partToff => execPartToffWrite index value s
  | .partPres => execPartPresWrite (index / 256 / 32) (index / 256 % 32) (index % 256) value s
  | .partIpres => execPartPresWrite (index / 32) 24 (index % 32) value s
  | .rotAtreq => if bit value 0 then execAttestationRequest index s else .next s
  | .startCtl => if bit value 1 then execStartCold s else if bit value 0 then execStartWarm s else .next s
  | .rotCert | .corePipe | .islDstat | .lkpQhead | .mapkRqhead | .clkStat | .lkpTupd | .optPstat | .optPerr | .optPfar | .optLasa | .optLasb
  | .tgpAdrop | .tgpScnt | .islFqtail | .islFqstat | .partTok | .rotMeas | .rotPmeas | .hbmErr => .next s

/-- A register as the host or the hypervisor reads it. -/
def State.readReg (s : State) (reg : RegName) (index : Nat) : Nat :=
  match reg with
  | .coreStat => s.coreStat (index / 160) (index % 160)
  | .corePipe => s.corePipe (index / 160) (index % 160)
  | .islDstat => s.dstat index
  | .islCohmode => s.cohmode index
  | .clkStat => s.clkStat index
  | .lkpTupd => s.tupd
  | .optPstat => s.optPstat (index / 16) (index % 16)
  | .optPctl => s.optPctl (index / 16) (index % 16)
  | .optPerr => s.optPerr (index / 16) (index % 16)
  | .optPfar => s.optPfar (index / 16) (index % 16)
  | .optLasa => s.optLasa (index / 256) (index % 256 / 9) (index % 256 % 9)
  | .optLasb => s.optLasb (index / 256) (index % 256 / 9) (index % 256 % 9)
  | .islFqstat => s.fqStat index
  | .partCfg => s.partCfg index
  | .partSlice => s.partSlice (index / 32) (index % 32)
  | .partBud => s.partBud (index / 32) (index % 32)
  | .partTok => s.partTok (index / 32) (index % 32)
  | .rotMeas => valueOf (s.meas index)
  | .rotPmeas => valueOf (s.pmeas index)
  | .rotAtreq => (if s.boot.atReqs.contains index then 2 else 0) + s.commanded .rotAtreq index
  | .rotCert => fieldAt s.rotCert (8 * (index % 512)) 8
  | .lkpGridctl | .lkpTstage | .islReplay | .startCtl => s.reg reg index ||| s.commanded reg index
  | .rotAtbuf => fieldAt (NMap.getD s.boot.atBuf (index / 64) (List.replicate 512 0)) (8 * (index % 64)) 8
  | .startStat => s.startStat true
  | .tgpBud => if index % 128 = 0 then 0xFFFFFFFFFFFF else s.reg .tgpBud index
  | r => s.reg r index

/-- Whether a virtual function p reaches a register to read it (R397). -/
def State.reachable (s : State) (p : Nat) (reg : RegName) (index : Nat) : Bool :=
  let own (q : Nat) : Bool := q == p || (s.childrenOf p).contains q
  match reg with
  | .mapkRqbase | .mapkRqtail | .mapkRqhead => index / 32 == p
  | .lkpQbase | .lkpQtail | .lkpQhead | .lkpQctl => bits (s.reg .lkpQctl index) 10 4 == p
  | .partCfg => index == p
  | .partSlice | .partShare | .partBud | .partTok => own (index / 32)
  | .partToff => own index
  | .corePmc | .islPmc | .optPerr | .tgpScnt => true
  | .rotMeas => true
  | .rotPmeas | .rotAtreq => index == p
  | .rotAtbuf => index / 64 == p
  | .rotCert => index / 512 == p
  | .startStat => false
  | _ => false

/-- Each field of a sampled counter register, rounded down to the quantum of R224. -/
def quantised (reg : RegName) (v : Nat) : Nat :=
  let q (hi lo : Nat) : Nat := bits v hi lo / 4096 * 4096 * 2 ^ lo
  if reg = .optPerr then q 23 0 + q 39 24 + q 55 40 + q 63 56 else q 47 0

/-- A register as virtual function p reads it (R397, R224): function 0 reads as the hypervisor; a partition that does not exist reads
zero, as does what it does not reach; shared counters are quantised and delayed. -/
def State.readThrough (s : State) (p : Nat) (reg : RegName) (index : Nat) : Nat :=
  if p = 0 then s.readReg reg index
  else if !s.partValid p || !s.reachable p reg index then 0
  else
    let shared (island : Nat) : Nat :=
      let n := s.cdItime / 100000
      if n = 0 then 0 else quantised reg (NMap.getD s.samples (sampleKey island reg index (n - 1)) 0)
    match reg with
    | .corePmc => if s.servesOnly p (index / 8 / 160) (index / 8 % 160) then s.readReg reg index else shared (index / 8 / 160)
    | .islPmc => shared (index / 8)
    | .optPerr => shared (index / 16)
    | .tgpScnt => shared (index / 256)
    | _ => s.readReg reg index

/-! ### What comes from outside (log 1) -/

/-- The register that a write instruction names, where a virtual function may reach it at all. -/
def writtenRegister : Instr → Option (RegName × Nat)
  | .registerWrite r k _ => some (r, k)
  | .mapkRqtailWrite p n _ => some (.mapkRqtail, partIx p n)
  | .mapkRqbaseWrite p n _ => some (.mapkRqbase, partIx p n)
  | .lkpQtailWrite q _ => some (.lkpQtail, q)
  | .lkpQbaseWrite q _ => some (.lkpQbase, q)
  | .partSliceWrite p n _ => some (.partSlice, partIx p n)
  | .partShareWrite p n _ => some (.partShare, partIx p n)
  | .partBudWrite p n _ => some (.partBud, partIx p n)
  | .partToffWrite p _ => some (.partToff, p)
  | .attestationRequest p => some (.rotAtreq, p)
  | _ => none

/-- Whether a write through virtual function p's window reaches a register (R397): its rings, its queues but for their control, the
partition registers of its children, the counters of cores that serve it alone, and its own attestation registers. The views of shared
counters are read only (DESIGN CHOICE, log 70). -/
def State.writable (s : State) (p : Nat) (reg : RegName) (index : Nat) : Bool :=
  match reg with
  | .mapkRqbase | .mapkRqtail => index / 32 == p
  | .lkpQbase | .lkpQtail => bits (s.reg .lkpQctl index) 10 4 == p
  | .partSlice | .partShare | .partBud => (s.childrenOf p).contains (index / 32)
  | .partToff => (s.childrenOf p).contains index
  | .corePmc => s.servesOnly p (index / 8 / 160) (index / 8 % 160)
  | .rotAtreq => index == p
  | .rotAtbuf => index / 64 == p
  | _ => false

/-- What a write through virtual function p's window does (R397): function 0, the hypervisor's, reaches everything; the window of a partition
that is not valid ignores writes, as does any register that it does not reach. -/
def State.throughWindow (s : State) (p : Nat) (i : Instr) : Option Instr :=
  if p = 0 then some i
  else if !s.partValid p then none
  else match i with
    | .gaugeMemoryWrite reach _ _ => if reach.part = p then some i else none
    | _ => if (writtenRegister i).any fun r => s.writable p r.1 r.2 then some i else none

/-- Bytes that the host or the control die's software stores into LPDDR6 (R15, R417). -/
def State.storeLpddr (s : State) (address : Nat) (bytes : List Byte) : State :=
  { s with mem := Memory.writeN s.mem (lpddrAddr address) (bytes.take (2 ^ 37 - address)) }

end Sys2Proof.Machine
end

