-- ==== Sys2Proof/Machine/Dispatch.lean ====
section
/-!
DEFINITION. Which meaning each instruction and event has: one arm per constructor of `Instr`.
-/
namespace Sys2Proof.Machine

/-- The effect of one instruction of a group or gauge run in progress, or of one event. -/
def exec (i : Instr) (s : State) : Host.Outcome State Fault Refusal :=
  match i with
  | .iadd w => Sys2Proof.Machine.execIadd w s
  | .isub w => Sys2Proof.Machine.execIsub w s
  | .imul w => Sys2Proof.Machine.execImul w s
  | .imulh w => Sys2Proof.Machine.execImulh w s
  | .imad w => Sys2Proof.Machine.execImad w s
  | .iaddi w => Sys2Proof.Machine.execIaddi w s
  | .imuli w => Sys2Proof.Machine.execImuli w s
  | .idiv w => Sys2Proof.Machine.execIdiv w s
  | .irem w => Sys2Proof.Machine.execIrem w s
  | .imin w => Sys2Proof.Machine.execImin w s
  | .imax w => Sys2Proof.Machine.execImax w s
  | .iabs w => Sys2Proof.Machine.execIabs w s
  | .ineg w => Sys2Proof.Machine.execIneg w s
  | .idot4 w => Sys2Proof.Machine.execIdot4 w s
  | .and w => Sys2Proof.Machine.execAnd w s
  | .or w => Sys2Proof.Machine.execOr w s
  | .xor w => Sys2Proof.Machine.execXor w s
  | .not w => Sys2Proof.Machine.execNot w s
  | .andi w => Sys2Proof.Machine.execAndi w s
  | .ori w => Sys2Proof.Machine.execOri w s
  | .xori w => Sys2Proof.Machine.execXori w s
  | .lut3 w => Sys2Proof.Machine.execLut3 w s
  | .shl w => Sys2Proof.Machine.execShl w s
  | .shr w => Sys2Proof.Machine.execShr w s
  | .sra w => Sys2Proof.Machine.execSra w s
  | .extr w => Sys2Proof.Machine.execExtr w s
  | .bfx w => Sys2Proof.Machine.execBfx w s
  | .bfi w => Sys2Proof.Machine.execBfi w s
  | .brev w => Sys2Proof.Machine.execBrev w s
  | .popc w => Sys2Proof.Machine.execPopc w s
  | .clz w => Sys2Proof.Machine.execClz w s
  | .ctz w => Sys2Proof.Machine.execCtz w s
  | .icmp w => Sys2Proof.Machine.execIcmp w s
  | .icmpi w => Sys2Proof.Machine.execIcmpi w s
  | .sel w => Sys2Proof.Machine.execSel w s
  | .plop w => Sys2Proof.Machine.execPlop w s
  | .mov w => Sys2Proof.Machine.execMov w s
  | .movi w => Sys2Proof.Machine.execMovi w s
  | .movw w => Sys2Proof.Machine.execMovw w s
  | .icvt w => Sys2Proof.Machine.execIcvt w s
  | .lea w => Sys2Proof.Machine.execLea w s
  | .brec w => Sys2Proof.Machine.execBrec w s
  | .bget w => Sys2Proof.Machine.execBget w s
  | .sadd w => Sys2Proof.Machine.execSadd w s
  | .ssub w => Sys2Proof.Machine.execSsub w s
  | .smul w => Sys2Proof.Machine.execSmul w s
  | .sand w => Sys2Proof.Machine.execSand w s
  | .sor w => Sys2Proof.Machine.execSor w s
  | .sxor w => Sys2Proof.Machine.execSxor w s
  | .sshl w => Sys2Proof.Machine.execSshl w s
  | .sshr w => Sys2Proof.Machine.execSshr w s
  | .ssra w => Sys2Proof.Machine.execSsra w s
  | .smin w => Sys2Proof.Machine.execSmin w s
  | .smax w => Sys2Proof.Machine.execSmax w s
  | .scmp w => Sys2Proof.Machine.execScmp w s
  | .smov w => Sys2Proof.Machine.execSmov w s
  | .ssel w => Sys2Proof.Machine.execSsel w s
  | .qlop w => Sys2Proof.Machine.execQlop w s
  | .fadd w => Sys2Proof.Machine.execFadd w s
  | .fsub w => Sys2Proof.Machine.execFsub w s
  | .fmul w => Sys2Proof.Machine.execFmul w s
  | .ffma w => Sys2Proof.Machine.execFfma w s
  | .fmin w => Sys2Proof.Machine.execFmin w s
  | .fmax w => Sys2Proof.Machine.execFmax w s
  | .fabs w => Sys2Proof.Machine.execFabs w s
  | .fneg w => Sys2Proof.Machine.execFneg w s
  | .fdiv w => Sys2Proof.Machine.execFdiv w s
  | .fsqrt w => Sys2Proof.Machine.execFsqrt w s
  | .frsqrt w => Sys2Proof.Machine.execFrsqrt w s
  | .frcp w => Sys2Proof.Machine.execFrcp w s
  | .fcmp w => Sys2Proof.Machine.execFcmp w s
  | .fclass w => Sys2Proof.Machine.execFclass w s
  | .faddi w => Sys2Proof.Machine.execFaddi w s
  | .fmuli w => Sys2Proof.Machine.execFmuli w s
  | .fdot2 w => Sys2Proof.Machine.execFdot2 w s
  | .fdot4 w => Sys2Proof.Machine.execFdot4 w s
  | .fround w => Sys2Proof.Machine.execFround w s
  | .fcvt w => Sys2Proof.Machine.execFcvt w s
  | .f2i w => Sys2Proof.Machine.execF2i w s
  | .i2f w => Sys2Proof.Machine.execI2f w s
  | .fpack w => Sys2Proof.Machine.execFpack w s
  | .funpack w => Sys2Proof.Machine.execFunpack w s
  | .fscale w => Sys2Proof.Machine.execFscale w s
  | .fexp2 w => Sys2Proof.Machine.execFexp2 w s
  | .flog2 w => Sys2Proof.Machine.execFlog2 w s
  | .fsin w => Sys2Proof.Machine.execFsin w s
  | .fcos w => Sys2Proof.Machine.execFcos w s
  | .ftanh w => Sys2Proof.Machine.execFtanh w s
  | .fsigm w => Sys2Proof.Machine.execFsigm w s
  | .fsgn w => Sys2Proof.Machine.execFsgn w s
  | .ffrac w => Sys2Proof.Machine.execFfrac w s
  | .fmxsc w => Sys2Proof.Machine.execFmxsc w s
  | .shfl w => Sys2Proof.Machine.execShfl w s
  | .vote w => Sys2Proof.Machine.execVote w s
  | .ballot w => Sys2Proof.Machine.execBallot w s
  | .matchLanes w => Sys2Proof.Machine.execMatchLanes w s
  | .qswap w => Sys2Proof.Machine.execQswap w s
  | .qbcast w => Sys2Proof.Machine.execQbcast w s
  | .wred w => Sys2Proof.Machine.execWred w s
  | .wscan w => Sys2Proof.Machine.execWscan w s
  | .tilew w => Sys2Proof.Machine.execTilew w s
  | .rdlane w => Sys2Proof.Machine.execRdlane w s
  | .wrlane w => Sys2Proof.Machine.execWrlane w s
  | .grpmask w => Sys2Proof.Machine.execGrpmask w s
  | .ldg w => Sys2Proof.Machine.execLdg w s
  | .ldgWait w => Sys2Proof.Machine.execLdgWait w s
  | .stg w => Sys2Proof.Machine.execStg w s
  | .ldl w => Sys2Proof.Machine.execLdl w s
  | .stl w => Sys2Proof.Machine.execStl w s
  | .lds w => Sys2Proof.Machine.execLds w s
  | .sts w => Sys2Proof.Machine.execSts w s
  | .ldc w => Sys2Proof.Machine.execLdc w s
  | .stc w => Sys2Proof.Machine.execStc w s
  | .ldbm w => Sys2Proof.Machine.execLdbm w s
  | .stbm w => Sys2Proof.Machine.execStbm w s
  | .atom w => Sys2Proof.Machine.execAtom w s
  | .atoms w => Sys2Proof.Machine.execAtoms w s
  | .atomc w => Sys2Proof.Machine.execAtomc w s
  | .sldg w => Sys2Proof.Machine.execSldg w s
  | .red w => Sys2Proof.Machine.execRed w s
  | .redOrd w => Sys2Proof.Machine.execRedOrd w s
  | .redflush w => Sys2Proof.Machine.execRedflush w s
  | .fence w => Sys2Proof.Machine.execFence w s
  | .fenceLanes w => Sys2Proof.Machine.execFenceLanes w s
  | .fenceFetch w => Sys2Proof.Machine.execFenceFetch w s
  | .wb w => Sys2Proof.Machine.execWb w s
  | .inv w => Sys2Proof.Machine.execInv w s
  | .bar w => Sys2Proof.Machine.execBar w s
  | .ldrec w => Sys2Proof.Machine.execLdrec w s
  | .pref w => Sys2Proof.Machine.execPref w s
  | .br w => Sys2Proof.Machine.execBr w s
  | .brm w => Sys2Proof.Machine.execBrm w s
  | .call w => Sys2Proof.Machine.execCall w s
  | .callr w => Sys2Proof.Machine.execCallr w s
  | .fcall w => Sys2Proof.Machine.execFcall w s
  | .ret w => Sys2Proof.Machine.execRet w s
  | .jmpr w => Sys2Proof.Machine.execJmpr w s
  | .exit w => Sys2Proof.Machine.execExit w s
  | .nop w => Sys2Proof.Machine.execNop w s
  | .brq w => Sys2Proof.Machine.execBrq w s
  | .wbload w => Sys2Proof.Machine.execWbload w s
  | .mloop w => Sys2Proof.Machine.execMloop w s
  | .mloopc w => Sys2Proof.Machine.execMloopc w s
  | .accrd w => Sys2Proof.Machine.execAccrd w s
  | .accwr w => Sys2Proof.Machine.execAccwr w s
  | .acczero w => Sys2Proof.Machine.execAcczero w s
  | .wbzero w => Sys2Proof.Machine.execWbzero w s
  | .put w => Sys2Proof.Machine.execPut w s
  | .get w => Sys2Proof.Machine.execGet w s
  | .ratom w => Sys2Proof.Machine.execRatom w s
  | .arm w => Sys2Proof.Machine.execArm w s
  | .waitarr w => Sys2Proof.Machine.execWaitarr w s
  | .notify w => Sys2Proof.Machine.execNotify w s
  | .garm w => Sys2Proof.Machine.execGarm w s
  | .gset w => Sys2Proof.Machine.execGset w s
  | .xfill w => Sys2Proof.Machine.execXfill w s
  | .ovld w => Sys2Proof.Machine.execOvld w s
  | .onceinit w => Sys2Proof.Machine.execOnceinit w s
  | .launch w => Sys2Proof.Machine.execLaunch w s
  | .keymap w => Sys2Proof.Machine.execKeymap w s
  | .srd w => Sys2Proof.Machine.execSrd w s
  | .swr w => Sys2Proof.Machine.execSwr w s
  | .trap w => Sys2Proof.Machine.execTrap w s
  | .sleep w => Sys2Proof.Machine.execSleep w s
  | .sysrd w => Sys2Proof.Machine.execSysrd w s
  | .syswr w => Sys2Proof.Machine.execSyswr w s
  | .gmark w => Sys2Proof.Machine.execGmark w s
  | .unassignedOpcode word => Sys2Proof.Machine.execUnassignedOpcode word s
  | .gaugeDone => Sys2Proof.Machine.execGaugeDone s
  | .gaugeMov d a => Sys2Proof.Machine.execGaugeMov d a s
  | .gaugeLi d imm => Sys2Proof.Machine.execGaugeLi d imm s
  | .gaugeAdd d a b => Sys2Proof.Machine.execGaugeAdd d a b s
  | .gaugeSub d a b => Sys2Proof.Machine.execGaugeSub d a b s
  | .gaugeAnd d a b => Sys2Proof.Machine.execGaugeAnd d a b s
  | .gaugeOr d a b => Sys2Proof.Machine.execGaugeOr d a b s
  | .gaugeXor d a b => Sys2Proof.Machine.execGaugeXor d a b s
  | .gaugeAddi d a imm => Sys2Proof.Machine.execGaugeAddi d a imm s
  | .gaugeShl d a imm => Sys2Proof.Machine.execGaugeShl d a imm s
  | .gaugeShr d a imm => Sys2Proof.Machine.execGaugeShr d a imm s
  | .gaugeMin d a b => Sys2Proof.Machine.execGaugeMin d a b s
  | .gaugeClz d a => Sys2Proof.Machine.execGaugeClz d a s
  | .gaugeHash d a imm => Sys2Proof.Machine.execGaugeHash d a imm s
  | .gaugeLd d a imm => Sys2Proof.Machine.execGaugeLd d a imm s
  | .gaugeSt a b imm => Sys2Proof.Machine.execGaugeSt a b imm s
  | .gaugeAcc a b imm => Sys2Proof.Machine.execGaugeAcc a b imm s
  | .histLin a b sh n => Sys2Proof.Machine.execHistLin a b sh n s
  | .histLog a b sh n => Sys2Proof.Machine.execHistLog a b sh n s
  | .gaugeCms a b w => Sys2Proof.Machine.execGaugeCms a b w s
  | .gaugeCmq d a b w => Sys2Proof.Machine.execGaugeCmq d a b w s
  | .gaugeBz a imm => Sys2Proof.Machine.execGaugeBz a imm s
  | .gaugeBnz a imm => Sys2Proof.Machine.execGaugeBnz a imm s
  | .gaugeBltu a b imm => Sys2Proof.Machine.execGaugeBltu a b imm s
  | .gaugeNtfy a imm => Sys2Proof.Machine.execGaugeNtfy a imm s
  | .gaugeIrq v => Sys2Proof.Machine.execGaugeIrq v s
  | .gaugeTrc a b => Sys2Proof.Machine.execGaugeTrc a b s
  | .gaugeFrz => Sys2Proof.Machine.execGaugeFrz s
  | .warpIssueSelect island core pipe => Sys2Proof.Machine.execWarpIssueSelect island core pipe s
  | .warpOwed warp => Sys2Proof.Machine.execWarpOwed warp s
  | .spinFloorFall warp => Sys2Proof.Machine.execSpinFloorFall warp s
  | .spinFloorTimeout warp => Sys2Proof.Machine.execSpinFloorTimeout warp s
  | .loadReturn id => Sys2Proof.Machine.execLoadReturn id s
  | .divideReturn id => Sys2Proof.Machine.execDivideReturn id s
  | .specialFunctionReturn id => Sys2Proof.Machine.execSpecialFunctionReturn id s
  | .accrdReturn id => Sys2Proof.Machine.execAccrdReturn id s
  | .keymapReturn id => Sys2Proof.Machine.execKeymapReturn id s
  | .ldrecComplete id => Sys2Proof.Machine.execLdrecComplete id s
  | .onceWaitTimeout id => Sys2Proof.Machine.execOnceWaitTimeout id s
  | .sleepWake warp lane => Sys2Proof.Machine.execSleepWake warp lane s
  | .waitarrRelease id => Sys2Proof.Machine.execWaitarrRelease id s
  | .engineCommandStart warp queue => Sys2Proof.Machine.execEngineCommandStart warp queue s
  | .matrixKStep warp => Sys2Proof.Machine.execMatrixKStep warp s
  | .engineCommandEnd id => Sys2Proof.Machine.execEngineCommandEnd id s
  | .engineLineRetry id => Sys2Proof.Machine.execEngineLineRetry id s
  | .warpRetire warp => Sys2Proof.Machine.execWarpRetire warp s
  | .blockRetire block => Sys2Proof.Machine.execBlockRetire block s
  | .gridEnd grid => Sys2Proof.Machine.execGridEnd grid s
  | .blockPlacement island => Sys2Proof.Machine.execBlockPlacement island s
  | .reservationTimeout island => Sys2Proof.Machine.execReservationTimeout island s
  | .lkpQtailWrite queue value => Sys2Proof.Machine.execLkpQtailWrite queue value s
  | .lkpQbaseWrite queue value => Sys2Proof.Machine.execLkpQbaseWrite queue value s
  | .lkpQctlWrite queue value => Sys2Proof.Machine.execLkpQctlWrite queue value s
  | .recordRelease => Sys2Proof.Machine.execRecordRelease s
  | .launchRecordArrival grid => Sys2Proof.Machine.execLaunchRecordArrival grid s
  | .gridPreempt grid => Sys2Proof.Machine.execGridPreempt grid s
  | .gridResume grid => Sys2Proof.Machine.execGridResume grid s
  | .gridEndRequest grid => Sys2Proof.Machine.execGridEndRequest grid s
  | .blockHalt block => Sys2Proof.Machine.execBlockHalt block s
  | .contextRestore block => Sys2Proof.Machine.execContextRestore block s
  | .accessReplay warp entry => Sys2Proof.Machine.execAccessReplay warp entry s
  | .replayAsid island asid => Sys2Proof.Machine.execReplayAsid island asid s
  | .replayAll island => Sys2Proof.Machine.execReplayAll island s
  | .faultRecordPost island => Sys2Proof.Machine.execFaultRecordPost island s
  | .islFqheadWrite island value => Sys2Proof.Machine.execIslFqheadWrite island value s
  | .islFqbaseWrite island value => Sys2Proof.Machine.execIslFqbaseWrite island value s
  | .gets id => Sys2Proof.Machine.execGets id s
  | .getx id => Sys2Proof.Machine.execGetx id s
  | .sliceWrite id => Sys2Proof.Machine.execSliceWrite id s
  | .farAtom id => Sys2Proof.Machine.execFarAtom id s
  | .wback id => Sys2Proof.Machine.execWback id s
  | .queuedWritePerform id => Sys2Proof.Machine.execQueuedWritePerform id s
  | .drainEntry id => Sys2Proof.Machine.execDrainEntry id s
  | .recall id => Sys2Proof.Machine.execRecall id s
  | .dataMsg id => Sys2Proof.Machine.execDataMsg id s
  | .xdata id => Sys2Proof.Machine.execXdata id s
  | .wack id => Sys2Proof.Machine.execWack id s
  | .aack id => Sys2Proof.Machine.execAack id s
  | .leaseLapse id => Sys2Proof.Machine.execLeaseLapse id s
  | .mirrorWrite id => Sys2Proof.Machine.execMirrorWrite id s
  | .mapkCopy window word => Sys2Proof.Machine.execMapkCopy window word s
  | .switchMessage window => Sys2Proof.Machine.execSwitchMessage window s
  | .cohmodePlainWrite island value => Sys2Proof.Machine.execCohmodePlainWrite island value s
  | .predclr island => Sys2Proof.Machine.execPredclr island s
  | .islLeaseWrite island value => Sys2Proof.Machine.execIslLeaseWrite island value s
  | .coreDrainWrite island core value => Sys2Proof.Machine.execCoreDrainWrite island core value s
  | .mapkRqtailWrite part island value => Sys2Proof.Machine.execMapkRqtailWrite part island value s
  | .mapkRqbaseWrite part island value => Sys2Proof.Machine.execMapkRqbaseWrite part island value s
  | .map part island => Sys2Proof.Machine.execMap part island s
  | .unmap part island => Sys2Proof.Machine.execUnmap part island s
  | .protect part island => Sys2Proof.Machine.execProtect part island s
  | .chtype part island => Sys2Proof.Machine.execChtype part island s
  | .migrate part island => Sys2Proof.Machine.execMigrate part island s
  | .asidget part island => Sys2Proof.Machine.execAsidget part island s
  | .asidput part island => Sys2Proof.Machine.execAsidput part island s
  | .transitTimeout id => Sys2Proof.Machine.execTransitTimeout id s
  | .routerForward what => Sys2Proof.Machine.execRouterForward what s
  | .packetSend id => Sys2Proof.Machine.execPacketSend id s
  | .allowanceReturn node port cls flits => Sys2Proof.Machine.execAllowanceReturn node port cls flits s
  | .flitAcknowledge node port flits => Sys2Proof.Machine.execFlitAcknowledge node port flits s
  | .codewordError node fault => Sys2Proof.Machine.execCodewordError node fault s
  | .replayRequest node port seq => Sys2Proof.Machine.execReplayRequest node port seq s
  | .replayLimit node port => Sys2Proof.Machine.execReplayLimit node port s
  | .sourceFailure node port window => Sys2Proof.Machine.execSourceFailure node port window s
  | .wavelengthChangeRequest node port => Sys2Proof.Machine.execWavelengthChangeRequest node port s
  | .wavelengthChangeAck node port => Sys2Proof.Machine.execWavelengthChangeAck node port s
  | .wavelengthChangeComplete node port => Sys2Proof.Machine.execWavelengthChangeComplete node port s
  | .drain node port => Sys2Proof.Machine.execDrain node port s
  | .dark node port => Sys2Proof.Machine.execDark node port s
  | .relock node port => Sys2Proof.Machine.execRelock node port s
  | .clrerr node port => Sys2Proof.Machine.execClrerr node port s
  | .drainMarkerAck node port => Sys2Proof.Machine.execDrainMarkerAck node port s
  | .darkmaxExpiry node port => Sys2Proof.Machine.execDarkmaxExpiry node port s
  | .lightLoss node port => Sys2Proof.Machine.execLightLoss node port s
  | .portTrained node port farNode farPort farPanel => Sys2Proof.Machine.execPortTrained node port farNode farPort farPanel s
  | .relockTimeout node port => Sys2Proof.Machine.execRelockTimeout node port s
  | .putPacketAtTarget id => Sys2Proof.Machine.execPutPacketAtTarget id s
  | .getRequestAtTarget id => Sys2Proof.Machine.execGetRequestAtTarget id s
  | .ratomAtTarget id => Sys2Proof.Machine.execRatomAtTarget id s
  | .sourceCounterAdvance id => Sys2Proof.Machine.execSourceCounterAdvance id s
  | .getDataReturn id => Sys2Proof.Machine.execGetDataReturn id s
  | .ratomResultReturn id => Sys2Proof.Machine.execRatomResultReturn id s
  | .errorNotice id => Sys2Proof.Machine.execErrorNotice id s
  | .retryNotice id => Sys2Proof.Machine.execRetryNotice id s
  | .retryResend id => Sys2Proof.Machine.execRetryResend id s
  | .notifyAddition id => Sys2Proof.Machine.execNotifyAddition id s
  | .islNctrWrite island counter value => Sys2Proof.Machine.execIslNctrWrite island counter value s
  | .rankEntryWrite job island rank value => Sys2Proof.Machine.execRankEntryWrite job island rank value s
  | .referenceLoss loss => Sys2Proof.Machine.execReferenceLoss loss s
  | .reroot => Sys2Proof.Machine.execReroot s
  | .islandRelock island => Sys2Proof.Machine.execIslandRelock island s
  | .itimeCatchUp island => Sys2Proof.Machine.execItimeCatchUp island s
  | .lkpTstageGo value => Sys2Proof.Machine.execLkpTstageGo value s
  | .tableVerify check => Sys2Proof.Machine.execTableVerify check s
  | .tableAnswer => Sys2Proof.Machine.execTableAnswer s
  | .tableCommit => Sys2Proof.Machine.execTableCommit s
  | .budgetPeriodBoundary island => Sys2Proof.Machine.execBudgetPeriodBoundary island s
  | .partBudWrite part island value => Sys2Proof.Machine.execPartBudWrite part island value s
  | .partCfgWrite part value => Sys2Proof.Machine.execPartCfgWrite part value s
  | .partSliceWrite part island value => Sys2Proof.Machine.execPartSliceWrite part island value s
  | .partShareWrite part island value => Sys2Proof.Machine.execPartShareWrite part island value s
  | .partToffWrite part value => Sys2Proof.Machine.execPartToffWrite part value s
  | .partPresWrite part island presented value => Sys2Proof.Machine.execPartPresWrite part island presented value s
  | .attestationRequest part => Sys2Proof.Machine.execAttestationRequest part s
  | .attestationReport => Sys2Proof.Machine.execAttestationReport s
  | .imageKeyEnrol slot key => Sys2Proof.Machine.execImageKeyEnrol slot key s
  | .imageKeyLock => Sys2Proof.Machine.execImageKeyLock s
  | .gaugeEvent gauge code unit part payload => Sys2Proof.Machine.execGaugeEvent gauge code unit part payload s
  | .gaugeRunStart gauge => Sys2Proof.Machine.execGaugeRunStart gauge s
  | .gaugeRunEnd gauge => Sys2Proof.Machine.execGaugeRunEnd gauge s
  | .tgpAttEnable gauge att value => Sys2Proof.Machine.execTgpAttEnable gauge att value s
  | .tgpAttVerifyEnd gauge att => Sys2Proof.Machine.execTgpAttVerifyEnd gauge att s
  | .tgpAttDisable gauge att value => Sys2Proof.Machine.execTgpAttDisable gauge att value s
  | .ipendClear gauge att => Sys2Proof.Machine.execIpendClear gauge att s
  | .tgpGwinWrite gauge part value => Sys2Proof.Machine.execTgpGwinWrite gauge part value s
  | .tgpBudWrite gauge part value => Sys2Proof.Machine.execTgpBudWrite gauge part value s
  | .gaugeBudgetPeriod gauge => Sys2Proof.Machine.execGaugeBudgetPeriod gauge s
  | .powerOn => Sys2Proof.Machine.execPowerOn s
  | .startWarm => Sys2Proof.Machine.execStartWarm s
  | .startCold => Sys2Proof.Machine.execStartCold s
  | .stage0 found => Sys2Proof.Machine.execStage0 found s
  | .stage1 => Sys2Proof.Machine.execStage1 s
  | .stage2 results => Sys2Proof.Machine.execStage2 results s
  | .stage3 => Sys2Proof.Machine.execStage3 s
  | .firmwareRecovery image => Sys2Proof.Machine.execFirmwareRecovery image s
  | .powerControlAction island power temp => Sys2Proof.Machine.execPowerControlAction island power temp s
  | .hbmUncorrectable island error => Sys2Proof.Machine.execHbmUncorrectable island error s
  | .coreSoftError island core fails => Sys2Proof.Machine.execCoreSoftError island core fails s
  | .laserAgeingRefresh node port source lasa lasb => Sys2Proof.Machine.execLaserAgeingRefresh node port source lasa lasb s
  | .replaceRequestClear => Sys2Proof.Machine.execReplaceRequestClear s
  | .registerWrite reg index value => Sys2Proof.Machine.execRegisterWrite reg index value s
  | .belyelImageLoad place image => Sys2Proof.Machine.execBelyelImageLoad place image s
  | .gaugeMemoryWrite reach address bytes => Sys2Proof.Machine.execGaugeMemoryWrite reach address bytes s
  | .drainMarker node port => Sys2Proof.Machine.execDrainMarker node port s
  | .queuedGetxGrant id => Sys2Proof.Machine.execQueuedGetxGrant id s

end Sys2Proof.Machine
end

