-- ==== Sys2Proof/Machine/Schedule.lean ====
section
/-!
DEFINITION. Which event comes next (log 12): the events that are due now come before all others; the issue of the pipes and the
events whose moment the spec leaves open are a free choice; a core clock passes once no pipe can issue.
-/
namespace Sys2Proof.Machine

/-! ### Offering an event -/

/-- Whether a step leaves something changed beside the model's own counters. -/
def changes (s : State) (f : State → Out) : Bool :=
  match f s with
  | .next t => decide ({ t with draw := s.draw, fresh := s.fresh, held := s.held } ≠ s)
  | _ => true

/-- The events of a list that would change something. -/
def offered (s : State) (fs : List (State → Out)) : List (State → Out) := fs.filter (changes s)

/-! ### Warps and their commands -/

/-- Events of a warp that happen as soon as they may. -/
def warpDue (s : State) (wid : Nat) (w : Warp) : List (State → Out) :=
  (if w.owed.isNone && decide (w.owedAfter ≤ w.waited) then [execWarpOwed wid] else []) ++
  (if w.spinCount = 64 && !w.floor then [execSpinFloorFall wid] else []) ++
  (if w.floor then [execSpinFloorTimeout wid] else []) ++
  ((w.lanesWith fun t => t.wake.isSome).map fun l => execSleepWake wid l) ++
  (if (s.block w.block).saved then []
   else ([0, 1, 2].filterMap fun q => if (w.headCmd q).isSome then some (execEngineCommandStart wid q) else none) ++
    (if w.loop.isSome then [execMatrixKStep wid] else []))

/-- Whether a running command's units stand at fixed core clocks (R352, R360). -/
def Cmd.clocked (c : Cmd) : Bool := c.isLoop || c.op == 0xD6

/-- Events of a warp whose moment is open. -/
def warpOpen (w : Warp) (wid : Nat) : List (State → Out) :=
  ((w.mq ++ w.xq ++ w.fq).filterMap fun c => if c.running then some (execEngineCommandEnd c.id) else none) ++
  ((w.mq ++ w.xq ++ w.fq).filterMap fun c => if c.lineFault.isSome then some (execEngineLineRetry c.id) else none) ++
  ((w.log.filter fun e => e.replay).map fun e => execAccessReplay wid e.num) ++
  (if w.retired then [] else [execWarpRetire wid])

/-- Events of results and waits that are due (R95, R83). -/
def pendDue (p : Pend) : List (State → Out) :=
  match p.kind with
  | .load | .scalarLoad | .atomic | .ratom => [execLoadReturn p.id]
  | .loadWait => [execLoadReturn p.id, execOnceWaitTimeout p.id]
  | .divide => [execDivideReturn p.id]
  | .special => [execSpecialFunctionReturn p.id]
  | .accrd => [execAccrdReturn p.id]
  | .keymap => [execKeymapReturn p.id]
  | .ldrec => [execLdrecComplete p.id]

/-! ### Coherence, translation, migration -/

/-- The deliveries and services of a message. -/
def msgOpen (m : Msg) : List (State → Out) :=
  match m.kind with
  | .gets => [execGets m.id]
  | .getx => if m.arr.isSome then [execQueuedGetxGrant m.id, execGetx m.id] else [execGetx m.id]
  | .write => if m.arr.isSome then [execQueuedWritePerform m.id] else [execSliceWrite m.id]
  | .atom => if m.arr.isSome then [execQueuedWritePerform m.id] else [execFarAtom m.id]
  | .drain => if m.arr.isSome then [execQueuedWritePerform m.id] else [execDrainEntry m.id]
  | .wback => [execWback m.id]
  | .data => [execDataMsg m.id]
  | .xdata => [execXdata m.id]
  | .wack => [execWack m.id]
  | .aack => [execAack m.id]
  | .recall => [execRecall m.id]
  | .mirror => [execMirrorWrite m.id]
  | .engine => []

/-- Request rings with a record or a job (R152), as (partition, island). -/
def State.busyRings (s : State) : List (Nat × Nat) :=
  ((s.regs.filterMap fun e =>
    let i := e.1 % 2 ^ 40
    if e.1 / 2 ^ 40 = regCode .mapkRqtail && s.rqHead (i / 32) (i % 32) != s.rqTail (i / 32) (i % 32) then some (i / 32, i % 32) else none) ++
    s.mapJobs.map fun j => (j.part, j.island)).eraseDups

/-- The services of one ring. -/
def ringOpen (p island : Nat) : List (State → Out) :=
  [execMap p island, execUnmap p island, execProtect p island, execChtype p island, execMigrate p island, execAsidget p island,
    execAsidput p island]

/-- Events of dual-home windows (R139). -/
def State.windowOpen (s : State) : List (State → Out) :=
  (s.dual.zipIdx).flatMap fun x => [execMapkCopy x.2 x.1.copied, execSwitchMessage x.2]

/-! ### The fabric -/

/-- Events of a packet. -/
def packetOpen (p : Packet) : List (State → Out) :=
  match p.place with
  | .atRouter _ | .onLink _ _ => [execRouterForward (.packet p.id)]
  | .outPort _ _ => [execPacketSend p.id]
  | .retryWait _ => [execRetryResend p.id]
  | .stored _ | .offPanel _ _ => []
  | .atTarget _ =>
    match p.kind with
    | .putData => [execPutPacketAtTarget p.id]
    | .getRequest => [execGetRequestAtTarget p.id]
    | .ratomReq => [execRatomAtTarget p.id]
    | .notify => [execNotifyAddition p.id]
    | .launchRec => [execLaunchRecordArrival p.grid]
    | .getData => [execGetDataReturn p.id]
    | .ratomResult => [execRatomResultReturn p.id]
    | .completion => [execSourceCounterAdvance p.id]
    | .errorNotice => [execErrorNotice p.id]
    | .retryNotice => [execRetryNotice p.id]

/-- Whether a port has nothing on its way and nothing in progress. -/
def Port.quiet (x : Port) : Bool :=
  x.rply.isEmpty && x.allowq == 128 && x.allowr == 64 && x.change.isNone && x.mgmtQ.isEmpty && x.mgmtOn.isEmpty && x.asked.isNone &&
    decide (x.stuck < 16) &&
    (x.st == .up || x.st == .absent || x.st == .failed || x.st == .drained)

/-- Events of a port that come of themselves; those of its surroundings are inputs, as is the training of a fibre port, whose far end the
circuit switch gives (R205, R208). -/
def portOpen (n p : Nat) (x : Port) : List (State → Out) :=
  if x.quiet then []
  else
    [execAllowanceReturn n p 0 1, execAllowanceReturn n p 1 1, execFlitAcknowledge n p (min 1 x.rply.length), execWavelengthChangeRequest n p,
      execWavelengthChangeAck n p, execWavelengthChangeComplete n p, execDrainMarker n p, execDrainMarkerAck n p, execReplayLimit n p] ++
    (match x.asked, farEnd n p with
      | some k, some m => [execReplayRequest m.1 m.2 k]
      | _, _ => []) ++
    if x.st = .relock && (farEnd n p).isSome then
      let far := x.heldFar.getD (x.farNode, x.farPort, x.farPanel)
      [execPortTrained n p far.1 far.2.1 far.2.2]
    else []

/-- Time limits of a port (R205). -/
def portDue (n p : Nat) (x : Port) : List (State → Out) :=
  if x.st = .dark then [execDarkmaxExpiry n p] else if x.st = .relock then [execRelockTimeout n p] else []

/-! ### Blocks, grids, tables, gauges, the start -/

/-- Events of blocks and grids. -/
def State.gridOpen (s : State) : List (State → Out) :=
  (s.blocks.flatMap fun p => [execBlockRetire p.1, execBlockHalt p.1, execContextRestore p.1]) ++
  (s.grids.map fun p => execGridEnd p.1) ++ if s.queueRecs.isEmpty then [] else [execRecordRelease]

/-- Islands whose table holds a grid. -/
def State.busyIslands (s : State) : List Nat := (s.grids.map fun p => p.2.island).eraseDups

/-- Placement on an island: saved blocks come back first (R386, R387). -/
def State.placeOpen (s : State) : List (State → Out) :=
  s.busyIslands.flatMap fun n =>
    match s.turn n with | some (_, none) => [execBlockPlacement n] | _ => []

/-- Events of islands: records to post, and clocks to relock. -/
def State.islandOpen (s : State) : List (State → Out) :=
  s.islands.flatMap fun p =>
    (if p.2.onchip.isEmpty then [] else [execFaultRecordPost p.1]) ++ if p.2.inHold then [execIslandRelock p.1] else []

/-- Events of the control die. -/
def State.controlOpen (s : State) : List (State → Out) :=
  (match s.update with | some u => execTableAnswer :: u.asked.map fun n => execTableVerify ⟨n, false⟩ | none => []) ++
  (if s.islands.any fun p => !p.2.reference then [execReroot] else []) ++
  (if s.boot.atReqs.isEmpty then [] else [execAttestationReport]) ++
  (if s.boot.starting then [execStage1, execStage3] else []) ++
  s.gauges.flatMap fun p => (p.2.atts.filter fun a => a.2.verifying).map fun a => execTgpAttVerifyEnd p.1 a.1

/-- `GAUGE_RUN_END` in its clock: a run holds the gauge for its instructions and 4 clocks more (R228). -/
def gaugeDue (s : State) (g : Nat) (x : Gauge) : List (State → Out) :=
  match x.run with
  | some r => if x.ending && decide (r.began + r.executed + 4 ≤ s.clk) then [execGaugeRunEnd g] else []
  | none => if x.queue.isEmpty then [] else [execGaugeRunStart g]

/-- Events that are due, in no order among themselves. -/
def State.dueEvents (s : State) : List (State → Out) :=
  (s.warps.flatMap fun p => warpDue s p.1 p.2 ++
    (p.2.mq.filter fun c => c.running && c.clocked).map fun c => execEngineCommandEnd c.id) ++
  (s.pend.flatMap pendDue) ++ (s.stalls.map fun x => execTransitTimeout x.id) ++
  ((s.spans.filter fun r => !r.usable s).map fun r => execLeaseLapse r.id) ++
  (s.busyIslands.map fun n => execReservationTimeout n) ++
  ((s.islands.filter fun p => p.2.fast).map fun p => execItimeCatchUp p.1) ++
  (if s.update.isSome then [execTableCommit] else []) ++ (s.gauges.flatMap fun p => gaugeDue s p.1 p.2) ++
  (s.ports.flatMap fun e => portDue (e.1 / 16) (e.1 % 16) e.2) ++
  if !s.boot.starting && !s.boot.keyLock then [execImageKeyLock] else []

/-- Pipes with a warp, as (island, core, pipe). -/
def State.busyPipes (s : State) : List (Nat × Nat × Nat) :=
  (s.warps.filterMap fun p =>
    let b := s.block p.2.block
    if p.2.retired || b.saved then none else some (b.island, b.core, p.2.pipe)).eraseDups

/-- Pipes that issue in this core clock. -/
def State.issuing (s : State) : List (State → Out) := offered s (s.busyPipes.map fun x => execWarpIssueSelect x.1 x.2.1 x.2.2)

/-- Events whose moment the spec leaves open. -/
def State.openEvents (s : State) : List (State → Out) :=
  (s.warps.flatMap fun p => if (s.block p.2.block).saved then [] else warpOpen p.2 p.1) ++
  (s.waits.map fun x => execWaitarrRelease x.id) ++ (s.msgs.flatMap msgOpen) ++
  (s.busyRings.flatMap fun x => ringOpen x.1 x.2) ++ s.windowOpen ++ (s.packets.flatMap packetOpen) ++
  (s.ports.flatMap fun e => portOpen (e.1 / 16) (e.1 % 16) e.2) ++ s.gridOpen ++ s.placeOpen ++ s.islandOpen ++ s.controlOpen

/-! ### A core clock (R4, R194, R219) -/

/-- Charges one issue to a partition and its ancestors on an island (R195, R395). -/
def State.chargeIssue (s : State) (part island : Nat) : State :=
  (s.lineage part).foldl (fun s p =>
    let u := s.part p island
    if 0 < u.cur then s.setPart p island { u with cur := u.cur - 1 }
    else if 0 < u.bank then s.setPart p island { u with bank := u.bank - 1 }
    else s) s

/-- Counts a clock for each warp that was eligible and did not issue in it (R194). -/
def State.countWaiting (s : State) : State :=
  s.busyPipes.foldl (fun s' x =>
    if s.gateOpen x.1 then
      ((s.readyWarps x.1 x.2.1 x.2.2).filter fun r => !s.issued.any fun i => i.1 == r.wid).foldl (fun s' r =>
        s'.modWarp r.wid fun w => { w with waited := w.waited + 1 }) s'
    else s') s

/-- Cores with a performance counter at work. -/
def State.countedCores (s : State) : List Nat :=
  ((s.regs.filter fun e => e.1 / 2 ^ 40 == regCode .corePmsel && e.2 != 0).map fun e => e.1 % 2 ^ 40 / 8).eraseDups

/-- Counts a clock on the performance counters (R223): clocks, warps at the floor, pipes that a budget stops. -/
def State.countClock (s : State) : State :=
  s.countedCores.foldl (fun s ix =>
    let island := ix / 160
    let core := ix % 160
    let ws := s.liveWarps (s.residents island core)
    let stopped (p : Nat) : Bool := ws.any (fun w => w.pipe == p && s.budgetStop (s.grid (s.block w.block).grid).part island) &&
      !s.issued.any fun i => i.2.1 == pipeIx island core p
    let s := s.coreCount island core 1 1
    (s.coreCount island core 4 (ws.filter fun w => w.floor).length).coreCount island core 5 ((List.range 4).filter stopped).length) s

/-- The holdover oscillator's drift (R171): in 50,000 ns it gains or loses at most one. -/
def State.holdover (s : State) (n : Nat) : State :=
  let x := s.isl n
  if x.inHold && s.clk / 2 % 50000 = 0 then
    let (k, s) := s.free
    s.modIsl n fun x => { x with itime := (x.itime + k % 3 + (2 ^ 64 - 1)) % 2 ^ 64 }
  else s

/-- What falls on a multiple of a period that ITIME has come to (R239, R395). -/
def State.periods (s : State) (n old : Nat) : State :=
  if old / 1000000 < s.itime n / 1000000 then (s.budgetBoundary n).gaugePeriod n else s

/-- Half a nanosecond passes on an island (R219, R220): in HOLD PTIME stands; while FAST is 1 ITIME stands. -/
def State.passIsland (s : State) (n : Nat) (x : Island) : State :=
  if !x.powered then s
  else if !x.half then s.setIsl n { x with half := true }
  else if x.fast then s.setIsl n { x with half := false, ptime := (x.ptime + 1) % 2 ^ 64 }
  else
    let t := (x.itime + 1) % 2 ^ 64
    let s := s.setIsl n { x with half := false, itime := t, ptime := if x.inHold then x.ptime else t }
    (s.holdover n).periods n x.itime

/-- Half a nanosecond passes on the control die (R219): samples are taken at multiples of 100 µs of panel time (R224). -/
def State.passControl (s : State) : State :=
  if s.clk % 2 = 1 then s
  else
    let t := (s.cdItime + 1) % 2 ^ 64
    let old := s.cdItime
    let s := { s with cdItime := t }
    let s := if old / 100000 < t / 100000 then (List.range 25).foldl (fun s n => s.takeSamples n (t / 100000)) s else s
    if old / 1000000 < t / 1000000 then s.gaugePeriod 24 else s

/-- One core clock passes: what issued is charged, heads and waits are counted, and half a nanosecond goes by (log 12). -/
def tick (s : State) : Out :=
  let s := s.refreshHeads.beginSteps.countWaiting.countClock
  let s := s.issued.foldl (fun s i => s.chargeIssue i.2.2 (i.2.1 / 640)) s
  let s := { s with clk := s.clk + 1, issued := [], now := ClockMarks.none }
  let s := (s.islands.filter fun p => p.1 < 24).foldl (fun (s : State) (p : Nat × Island) => s.passIsland p.1 p.2) s.passControl
  .next ((s.gauges.filter fun p => !p.2.held.isEmpty).foldl (fun (s : State) (p : Nat × Gauge) => s.gaugeBus p.1) s)

/-- What may come next: a due event where there is one; else an issue, an open event, or, once no pipe issues, the next core clock. -/
def options (s : State) : List (State → Out) :=
  let due := offered s s.dueEvents
  if due.isEmpty then
    let go := s.issuing
    go ++ offered s s.openEvents ++ if go.isEmpty then [tick] else []
  else due

end Sys2Proof.Machine
end

