-- ==== Sys2Proof/Machine/Step.lean ====
section
/-!
DEFINITION. One step of the panel: the next word of a gauge run in progress, else the instruction of the group chosen for
issue, else an event or a clock.
-/
namespace Sys2Proof.Machine

/-- Takes one input. -/
def takeInput (i : Input) (s : State) : Host.Outcome State Fault Refusal :=
  match i with
  | .event i => exec i s
  | .window p i =>
    match s.throughWindow p i with
    | some i => exec i s
    | none => .next s
  | .lpddr a bs => .next (s.storeLpddr a bs)

/-- One step where neither a gauge run nor a group is in progress (log 12): a free choice among what the panel may do next and
the event at the head of the inputs. -/
def stepEvent (s : State) : Host.Outcome State Fault Refusal :=
  let own := options s
  let n := own.length + s.inputs.length.min 1
  let (k, s) := if n = 1 then (0, s) else s.free
  match own[k % n]? with
  | some f => f s
  | none =>
    match s.inputs with
    | i :: rest => takeInput i { s with inputs := rest }
    | [] => tick s

/-- One step. -/
def step (s : State) : Host.Outcome State Fault Refusal :=
  match s.activeGauge with
  | some (g, r) =>
    match s.fetchGaugeWord g r with
    | some i => exec i s
    | none => .refused .gaugeWord
  | none =>
    match s.issue with
    | some i =>
      match s.fetchIssue i with
      | some ins => exec ins s
      | none => badFetch s
    | none => stepEvent s

/-- `s` with an instruction of `nbits` bits placed where `step` fetches its next instruction (log 1). -/
def State.withFetchWord (s : State) (nbits w : Nat) : State :=
  if nbits ≤ 32 then s.placeGauge w else s.placeUmavi w

end Sys2Proof.Machine
end

