-- ==== Sys2Proof/Safety.lean ====
section
/-!
DEFINITION. What a safe run is, and the terms in which claims speak of one issue: a group in progress, what a lane's registers,
predicates, flags and PC are after it, and what it leaves as it was.
-/
namespace Sys2Proof

/-- A step from `s` neither faults nor is refused. -/
def Completes (s : Machine.State) : Prop := ∃ t, Machine.step s = .next t

/-- The memory of a state has the canonical form. -/
def MemOk (s : Machine.State) : Prop := Machine.Memory.wf s.mem = true

/-- Every step of `n` completes. -/
def SafeFor : Nat → Machine.State → Prop
  | 0, _ => True
  | n + 1, s => ∃ t, Machine.step s = .next t ∧ SafeFor n t

namespace Machine

/-! ### A group in progress -/

/-- Group `i` is in progress, formed as R27 and R31 form groups: its members are Active lanes of its warp, each once, and no helper that
follows it is a member. -/
structure Group (s : State) (i : Issue) : Prop where
  on : s.issue = some i
  once : i.lanes.Nodup
  onceH : i.helpers.Nodup
  apart : ∀ l ∈ i.helpers, l ∉ i.lanes
  lanes : ∀ l ∈ i.lanes, l < 32 ∧ l < (s.warp i.warp).threads.length ∧ ((s.warp i.warp).thread l).st = .active
  helpers : ∀ l ∈ i.helpers, l < 32 ∧ l < (s.warp i.warp).threads.length

/-! ### What one lane finds -/

/-- A register after a lane's results are written: full, not dead, the value's 32 bits at its place in the operand (R54, R95). -/
def wroteV (vals : List (Nat × Nat × Nat)) (r : Nat) (x : VReg) : VReg :=
  vals.foldl (fun x v => if v.1 ≤ r ∧ r < v.1 + v.2.1 then ⟨BitVec.ofNat 32 (v.2.2 / 2 ^ (32 * (r - v.1))), true, false⟩ else x) x

/-- A register after the last-use marks of an issue (R98): dead where a marked operand names it. -/
def markedV (u : Usage) (r : Nat) (x : VReg) : VReg :=
  if u.srcs.any fun y => 4 ≤ y.2.2 && y.1 ≤ r && r < y.1 + y.2.1 then { x with dead := true } else x

/-- A lane's predicates after its results are written; p7 is never written (R92). -/
def wroteP (preds : List (Nat × Bool)) (p : BitVec 7) : BitVec 7 := preds.foldl (fun p x => writePred p x.1 x.2) p

/-- Register `r` of lane `l` after an issue with usage `u` whose lanes come to `mem` and helpers to `hlp`. -/
def laneReg (s : State) (i : Issue) (g : BitVec 4) (u : Usage) (mem hlp : Nat → LaneOut) (l r : Nat) : VReg :=
  let c := s.ctx i
  let x := (s.warp i.warp).vreg l r
  let y := if i.lanes.contains l || i.helpers.contains l then markedV u r x else x
  if (c.members g).contains l then wroteV (mem l).vals r y
  else if (c.helpers g).contains l then wroteV (hlp l).vals r y
  else y

/-- Predicates of lane `l` after such an issue. -/
def lanePred (s : State) (i : Issue) (g : BitVec 4) (mem hlp : Nat → LaneOut) (l : Nat) : BitVec 7 :=
  let c := s.ctx i
  let p := ((s.warp i.warp).thread l).p
  if (c.members g).contains l then wroteP (mem l).preds p
  else if (c.helpers g).contains l then wroteP (hlp l).preds p
  else p

/-- LSTAT of lane `l` after such an issue: bits are only set, and only in admitted members (R31, R104). -/
def laneFlags (s : State) (i : Issue) (g : BitVec 4) (poisoned : Nat → Bool) (mem : Nat → LaneOut) (l : Nat) : BitVec 32 :=
  let f := ((s.warp i.warp).thread l).lstat
  if ((s.ctx i).members g).contains l then (if poisoned l then f ||| flagPoison else f) ||| (mem l).flags else f

/-- PC of lane `l` after an instruction of `len` words that falls through (R240). -/
def lanePc (s : State) (i : Issue) (len l : Nat) : PC :=
  let t := (s.warp i.warp).thread l
  if i.lanes.contains l then { t.pc with ofs := t.pc.ofs + len } else t.pc

/-! ### What an issue leaves -/

/-- Two warps that agree but for v registers, threads, and the spin detector that a write resets (R41), with the floor's owing (R194). -/
def Warp.sameBut (x w : Warp) : Prop :=
  { x with v := w.v, threads := w.threads, spinCount := w.spinCount, watch := w.watch, floor := w.floor, owed := w.owed } = w

/-- Two threads that agree but for PC, predicates and LSTAT. -/
def Thread.sameBut (x t : Thread) : Prop := { x with pc := t.pc, p := t.p, lstat := t.lstat } = t

/-- Of the whole machine only warp `wid` has changed, and the issue is over. -/
def State.onlyWarp (t s : State) (wid : Nat) : Prop :=
  { t with warps := s.warps, issue := s.issue } = s ∧ t.issue = none ∧ ∀ k, k ≠ wid → t.warp k = s.warp k

/-- A lane instruction has completed (R268): every register, predicate, flag and PC of the warp is as given, its stochastic seed is
`seed`, and nothing else of the machine has changed: no byte of memory, no register of another warp, no s, q, g or b register. -/
structure LaneNext (s t : State) (i : Issue) (g : BitVec 4) (u : Usage) (len : Nat) (poisoned : Nat → Bool) (mem hlp : Nat → LaneOut)
    (seed : BitVec 64) : Prop where
  regs : ∀ l r, l < 32 → (t.warp i.warp).vreg l r = laneReg s i g u mem hlp l r
  preds : ∀ l, l < (s.warp i.warp).threads.length → ((t.warp i.warp).thread l).p = lanePred s i g mem hlp l
  flags : ∀ l, l < (s.warp i.warp).threads.length → ((t.warp i.warp).thread l).lstat = laneFlags s i g poisoned mem l
  pcs : ∀ l, l < (s.warp i.warp).threads.length → ((t.warp i.warp).thread l).pc = lanePc s i len l
  threads : (t.warp i.warp).threads.length = (s.warp i.warp).threads.length ∧
    ∀ l, Thread.sameBut ((t.warp i.warp).thread l) ((s.warp i.warp).thread l)
  warp : Warp.sameBut { t.warp i.warp with srseed := (s.warp i.warp).srseed } (s.warp i.warp) ∧ (t.warp i.warp).srseed = seed
  machine : State.onlyWarp t s i.warp

/-- One result in `n` v registers from `dst`; one predicate; flags. -/
def outV (dst n x : Nat) (fl : BitVec 32 := 0) : LaneOut := { vals := [(dst, n, x)], flags := fl }
def outP (k : Nat) (b : Bool) (fl : BitVec 32 := 0) : LaneOut := { preds := [(k, b)], flags := fl }

/-- The lanes that flag poison: a register they read is dead (R98). -/
def readsDead (s : State) (i : Issue) (u : Usage) (l : Nat) : Bool := u.srcs.any fun x => isDead (s.warp i.warp) l x.1 x.2.1

/-- The operand form of a Umavi instruction (R243 to R256), as its check of R256 reads it. -/
def useOf (ins : Instr) : Usage := (usageOf ins).getD (useTilew ⟨0, 0, 0, 0, 0, 0⟩)

/-- Lane instruction `ins`, with guard `g` and `len` words, completes on every group that passes the checks of R256: each
admitted lane, helpers included, comes to what `f` gives from its operands as they stood. -/
def LaneRuns (s : State) (i : Issue) (ins : Instr) (g : BitVec 4) (len : Nat) (f : Ctx → Nat → List Nat → LaneOut)
    (seed : Warp → BitVec 64 := Warp.srseed) : Prop :=
  let u := useOf ins
  Group s i → laneChecks u g (fun _ => .go) (s.ctx i) = .go →
    ∃ t, exec ins s = .next t ∧
      LaneNext s t i g u len (readsDead s i u) (fun l => f (s.ctx i) l (operands (s.warp i.warp) u l))
        (fun l => helperOut (s.ctx i) u l (f (s.ctx i) l (operands (s.warp i.warp) u l))) (seed (s.warp i.warp))

/-- SRSEED after an instruction that rounds: it steps in stochastic mode (R62). -/
def steppedSeed (md : BitVec 9) (w : Warp) : BitVec 64 :=
  if effRM w md = 5 then BitVec.ofNat 64 (nextSeed w.srseed.toNat) else w.srseed

/-- Exchange `ins`, whose first source is a lane's own where `own0` holds, completes on every group that passes the checks of R256 and R314: each admitted lane comes to `f`, poison is flagged in
the lane that receives it (R313), and a helper that would have trapped writes zero (R31). -/
def ExchangeRuns (s : State) (i : Issue) (ins : Instr) (g : BitVec 4) (own0 : Bool) (waits : Ctx → Bool) (reads : Ctx → Nat → List Nat)
    (f : Ctx → Nat → LaneOut) (seed : Warp → BitVec 64 := Warp.srseed) : Prop :=
  let u := useOf ins
  Group s i → exchangeChecks g u own0 waits reads (s.ctx i) = .go →
    ∃ t, exec ins s = .next t ∧
      LaneNext s t i g u 1 (receivesDead (s.ctx i) u reads false) (f (s.ctx i))
        (fun l => if receivesDead (s.ctx i) u reads true l then zeroOut (f (s.ctx i) l) else f (s.ctx i) l) (seed (s.warp i.warp))

/-- An instruction whose results return later has issued (R95): the destinations of the admitted lanes are empty, the record of its results
is `p` and the cores' units are as `unit` leaves them where any lane is admitted, the group has moved on, and nothing else has changed. -/
structure LateNext (s t : State) (i : Issue) (g : BitVec 4) (u : Usage) (len : Nat) (p : Pend → Prop) (seed : BitVec 64)
    (unit : NMap Core → NMap Core) : Prop where
  regs : ∀ l r, l < 32 → (t.warp i.warp).vreg l r =
    let x := laneReg s i g u (fun _ => {}) (fun _ => {}) l r
    if (((s.ctx i).members g).contains l || ((s.ctx i).helpers g).contains l) && u.dsts.any (fun d => d.1 ≤ r && r < d.1 + d.2) then
      { x with full := false } else x
  flags : ∀ l, l < (s.warp i.warp).threads.length →
    ((t.warp i.warp).thread l).lstat = laneFlags s i g (readsDead s i u) (fun _ => {}) l
  pcs : ∀ l, l < (s.warp i.warp).threads.length → ((t.warp i.warp).thread l).pc = lanePc s i len l
  threads : (t.warp i.warp).threads.length = (s.warp i.warp).threads.length ∧
    ∀ l, { (t.warp i.warp).thread l with pc := ((s.warp i.warp).thread l).pc, lstat := ((s.warp i.warp).thread l).lstat } = (s.warp i.warp).thread l
  warp : Warp.sameBut { t.warp i.warp with srseed := (s.warp i.warp).srseed } (s.warp i.warp) ∧ (t.warp i.warp).srseed = seed
  machine : { t with warps := s.warps, issue := s.issue, pend := s.pend, fresh := s.fresh, cores := s.cores } = s ∧ t.issue = none ∧
    ∀ k, k ≠ i.warp → t.warp k = s.warp k
  record : if (((s.ctx i).members g) ++ ((s.ctx i).helpers g)).isEmpty then t.pend = s.pend ∧ t.cores = s.cores
    else ∃ x, t.pend = s.pend ++ [x] ∧ t.fresh = s.fresh + 1 ∧ t.cores = unit s.cores ∧ p x

/-- Late instruction `ins` issues on every group that passes its checks; its record holds what `f` gives of each admitted lane's operands as
they stood, and is due after `latency`. -/
def LateRuns (s : State) (i : Issue) (ins : Instr) (g : BitVec 4) (len : Nat) (kind : PendKind) (rules : Ctx → Check)
    (latency : Ctx → Nat) (f : Ctx → Nat → List Nat → LaneOut) (seed : Warp → BitVec 64 := Warp.srseed)
    (unit : Ctx → NMap Core → NMap Core := fun _ m => m) : Prop :=
  let u := useOf ins
  Group s i → laneChecks u g rules (s.ctx i) = .go →
    let c := s.ctx i
    let out (l : Nat) := f c l (operands (s.warp i.warp) u l)
    ∃ t, exec ins s = .next t ∧ LateNext s t i g u len (fun x =>
      x.id = s.fresh ∧ x.warp = i.warp ∧ x.kind = kind ∧ x.gen = (s.warp i.warp).gen.toNat ∧ x.due = s.clk + latency c ∧
      x.writes = (c.members g).flatMap (fun l => splitVals l (out l)) ++ (c.helpers g).flatMap (fun l => splitVals l (helperOut c u l (out l))) ∧
      x.flags = (c.members g).map fun l => (l, (out l).flags)) (seed (s.warp i.warp)) (unit c)

/-- What a scalar instruction writes (R251): an s register, a q predicate, a b register. -/
structure ScalarOut where
  s : Option (Nat × Word) := none
  q : Option (Nat × Bool) := none
  b : Option (Nat × BitVec 128) := none

/-- A scalar instruction has completed (R292): what its q guard admits is written, once for the group, and nothing else has changed. -/
structure ScalarNext (s t : State) (i : Issue) (len : Nat) (o : ScalarOut) : Prop where
  sregs : ∀ r, (t.warp i.warp).sreg r = match o.s with
    | some x => if x.1 = r then x.2 else (s.warp i.warp).sreg r
    | none => (s.warp i.warp).sreg r
  qs : (t.warp i.warp).q = match o.q with
    | some x => writePred (s.warp i.warp).q x.1 x.2
    | none => (s.warp i.warp).q
  bs : ∀ r, (t.warp i.warp).bufRec r = match o.b with
    | some x => if x.1 = r then x.2 else (s.warp i.warp).bufRec r
    | none => (s.warp i.warp).bufRec r
  pcs : ∀ l, l < (s.warp i.warp).threads.length →
    (t.warp i.warp).thread l = { (s.warp i.warp).thread l with pc := lanePc s i len l }
  warp : let w := s.warp i.warp
    { t.warp i.warp with s := w.s, q := w.q, b := w.b, sEmpty := w.sEmpty, threads := w.threads, spinCount := w.spinCount,
                         watch := w.watch, floor := w.floor, owed := w.owed } = w
  machine : State.onlyWarp t s i.warp

/-- The checks of a scalar instruction: its s registers count only where the q guard admits it (R96, R292). -/
def scalarChecks (u : Usage) (g : BitVec 4) (c : Ctx) : Check :=
  (checkEncoding c u).andThen (if c.qOn g then checkSources c u [] else .go)

/-- Scalar instruction `ins` completes on every group that passes its checks. -/
def ScalarRuns (s : State) (i : Issue) (ins : Instr) (g : BitVec 4) (f : Warp → ScalarOut) : Prop :=
  Group s i → scalarChecks (useOf ins) g (s.ctx i) = .go →
    ∃ t, exec ins s = .next t ∧ ScalarNext s t i 1 (if (s.ctx i).qOn g then f (s.warp i.warp) else {})

/-! ### Accesses to global memory (R374) -/

/-- An access goes ahead: no page stops the warp, and no lane that makes it waits for a write on its way or for an earlier event of its own
(R31, R75, R83, R131). -/
def MayGo (s : State) (a : Access) : Prop :=
  let rs := s.resolveAll a a.lanes
  stopsOf a rs.1 = [] ∧ ∀ r ∈ rs.1, ((r.1.helper && a.offGrid r.1) = false → r.2 ≠ .busy) ∧
    ∀ e pa, r.2 = .ok e pa → rs.2.helperZero a r = false → rs.2.mustWait a r.1 e pa = false

/-- From `s` to `t` warp `wid` has been stopped by a fault of class `cls` (R378, R380): the latest record of its island has that class and kind
W, and so does the end of its grid, where nothing had ended that before. -/
def Stopped (s t : State) (wid cls : Nat) : Prop :=
  let b := s.block (s.warp wid).block
  (t.warp wid).stopped = true ∧ ((s.grid b.grid).endCode = 0 → (t.grid b.grid).endClass = cls) ∧
    ∃ r, ((t.isl b.island).onchip ++ (t.isl b.island).waitPost).getLast? = some r ∧ recBits r 0 7 0 = cls ∧ recBits r 0 15 8 = 2

/-! ### Threads that move -/

/-- Of warp `i.warp` only the threads have changed, each to what `f` gives, and nothing else of the machine has (but for the spin
detector's count of taken branches, R41). `w0` is the warp as the source side of the issue left it. -/
structure ThreadsNext (s t : State) (i : Issue) (w0 : Warp) (f : Nat → Thread → Thread) : Prop where
  threads : (t.warp i.warp).threads.length = w0.threads.length ∧
    ∀ l, l < w0.threads.length → (t.warp i.warp).thread l = f l (w0.thread l)
  warp : { t.warp i.warp with threads := w0.threads, spinPc := w0.spinPc, spinCount := w0.spinCount } = w0
  machine : State.onlyWarp t s i.warp

/-- A thread after an instruction of `len` words that falls through. -/
def Thread.past (t : Thread) (len : Nat) : Thread := { t with pc := { t.pc with ofs := t.pc.ofs + len } }

/-- A branch of a group: lanes with a target go to that header of their slot, the other members fall through, no other lane moves (R240). -/
def branched (i : Issue) (len : Nat) (target : Nat → Option Nat) (l : Nat) (t : Thread) : Thread :=
  if i.lanes.contains l then
    match target l with
    | some d => { t with pc := ⟨i.pc.slot, d⟩, blockEnd := d }
    | none => t.past len
  else t

/-- A group falls through by `len` words. -/
def passed (i : Issue) (len l : Nat) (t : Thread) : Thread := if i.lanes.contains l then t.past len else t

/-- The group has moved on by `len` words and its issue is over (R240). -/
def MovedOn (s t : State) (i : Issue) (len : Nat) : Prop :=
  t.issue = none ∧ (t.warp i.warp).threads.length = (s.warp i.warp).threads.length ∧
    ∀ l, l < (s.warp i.warp).threads.length → ((t.warp i.warp).thread l).pc = lanePc s i len l

/-! ### Gauge runs (R231 to R239) -/

/-- Gauge `g` has executed an instruction of its run `r`, which comes to `r'`: the instruction is counted, the partition's LEFT and its
ancestors' are charged, the run ends where `stop` says so or past its limit (R229), and no other gauge and no core has changed. -/
structure GaugeNext (s t : State) (g : Nat) (r r' : GaugeRun) (stop : Bool) : Prop where
  run : t.gauge g = { s.gauge g with run := some r', ending := stop || decide (r.entry + 64 ≤ r'.pc) || decide (4096 ≤ r'.pc) }
  kept : { r' with h := r.h, pc := r.pc, executed := r.executed, triggers := r.triggers, undo := r.undo } = r ∧ r'.executed = r.executed + 1
  others : ∀ k, k ≠ g → t.gauge k = s.gauge k
  machine : { t with gauges := s.gauges, regs := s.regs, mem := s.mem } = s

/-- The registers after a run's instruction are those of its charge. -/
def GaugeCharged (s t : State) (g : Nat) (r : GaugeRun) : Prop := t.regs = (s.chargeGauge g r.part).regs

/-- Instruction `ins` of a gauge run writes `x`, modulo 2⁶⁴, to register `d` and goes on at the next word. -/
def GaugeWrites (s : State) (ins : Instr) (d : BitVec 4) (x : GaugeRun → Nat) : Prop :=
  ∀ g r, s.activeGauge = some (g, r) → ∃ t r', exec ins s = .next t ∧ GaugeNext s t g r r' false ∧ GaugeCharged s t g r ∧ t.mem = s.mem ∧
    r'.pc = r.pc + 1 ∧ r'.triggers = r.triggers ∧ ∀ n, r'.get n = if n = d then x r % 2 ^ 64 else r.get n

/-- Instruction `ins` of a gauge run writes no register and no memory: it goes on at word `pc`, adds triggers, and ends the run where
`stop` says so. -/
def GaugeMoves (s : State) (ins : Instr) (pc : GaugeRun → Nat) (fire : GaugeRun → List Trigger) (stop : Bool) : Prop :=
  ∀ g r, s.activeGauge = some (g, r) → ∃ t r', exec ins s = .next t ∧ GaugeNext s t g r r' stop ∧ GaugeCharged s t g r ∧ t.mem = s.mem ∧
    r'.pc = pc r ∧ r'.h = r.h ∧ r'.triggers = r.triggers ++ fire r

/-- The address of `n` bytes at an offset of a partition's window (R233, R236): the offset a multiple of `align`, every byte inside. -/
def windowCell (s : State) (g part ofs n align p : Nat) : Prop :=
  let v := s.reg .tgpGwin (gaugeIx g part)
  ofs % align = 0 ∧ ofs + n ≤ bits v 14 8 * 4096 ∧ p = gaugeAddr g (bits v 5 0 * 4096 + ofs)

/-- A refused access (R233): nothing is written, ABORT counts it and saturates, and the run ends. -/
def GaugeRefused (s : State) (ins : Instr) (g : Nat) (r : GaugeRun) : Prop :=
  ∃ t r', exec ins s = .next t ∧ GaugeNext s t g r r' true ∧ t.mem = s.mem ∧ r'.pc = r.pc + 1 ∧ r'.h = r.h ∧ r'.triggers = r.triggers ∧
    t.regs = ((s.chargeGauge g r.part).dropCount g r.att 48).regs

/-- An access that writes `n` bytes at each listed address and no other byte; `x` gives each one's new value. -/
def GaugeStores (s : State) (ins : Instr) (g : Nat) (r : GaugeRun) (ps : List Nat) (n : Nat) (x : Nat → Nat) : Prop :=
  ∃ t r', exec ins s = .next t ∧ GaugeNext s t g r r' false ∧ GaugeCharged s t g r ∧ r'.pc = r.pc + 1 ∧ r'.h = r.h ∧ r'.triggers = r.triggers ∧
    (∀ p ∈ ps, t.readMem p n = x p) ∧ ∀ a, (∀ p ∈ ps, a < p ∨ p + n ≤ a) → Memory.read t.mem a = Memory.read s.mem a

end Machine
end Sys2Proof
end

