-- ==== Sys2Proof/Certificates/Slice0/Obligations.lean ====
section
/-!
DEFINITION. The statements for the provers: what each family of instructions, each event and the machine as a whole does, in the terms of
Safety.lean. A docstring names the rules of spec/ its statement follows; where a clause rests on a choice of the model it names the entry of the
assumption log.
-/
section
open Sys2Proof Sys2Proof.Machine

/-- Integer arithmetic (R272, R273): each admitted lane's destination takes the exact value of its sources, narrowed once by R47.

Division (R274 to R276): a divide issues with its quotient or remainder and its DIVZ or DIVOVF flag in a record that is due after the
largest latency of its admitted lanes, and holds the pipe's divider until then; the results of a division by zero and of the most negative value by −1 are those of R274.
Under MODE.DIVTRAP a division that raises one of the two flags in an admitted lane stops the warp with DIV_TRAP (0x07), whose LANES are those lanes (R276). -/
def Obligations.IntegerArithmetic : Prop :=
  (∀ (s : State) (i : Issue),
  (∀ w, LaneRuns s i (.iadd w) w.guard 1 fun _ _ x =>
    outV w.dst.toNat (regsOf w.ty.toNat) (intValue w.ty.toNat (mdSat w.md) (mdPk w.md) (fun v => arg v 0 + arg v 1) x)) ∧
  (∀ w, LaneRuns s i (.isub w) w.guard 1 fun _ _ x =>
    outV w.dst.toNat (regsOf w.ty.toNat) (intValue w.ty.toNat (mdSat w.md) (mdPk w.md) (fun v => arg v 0 - arg v 1) x)) ∧
  (∀ w, LaneRuns s i (.imul w) w.guard 1 fun _ _ x =>
    outV w.dst.toNat (regsOf w.ty.toNat) (intValue w.ty.toNat (mdSat w.md) (mdPk w.md) (fun v => arg v 0 * arg v 1) x)) ∧
  (∀ w, LaneRuns s i (.imulh w) w.guard 1 fun _ _ x =>
    outV w.dst.toNat (regsOf w.ty.toNat)
      (intValue w.ty.toNat (mdSat w.md) (mdPk w.md) (fun v => arg v 0 * arg v 1 / ((2 ^ tyW w.ty.toNat : Nat) : Int)) x)) ∧
  (∀ w, LaneRuns s i (.imad w) w.guard 2 fun _ _ x =>
    outV w.dst.toNat (regsOf w.ty.toNat) (intValue w.ty.toNat (mdSat w.md) (mdPk w.md) (fun v => arg v 0 * arg v 1 + arg v 2) x)) ∧
  (∀ w, LaneRuns s i (.imin w) w.guard 1 fun _ _ x =>
    outV w.dst.toNat (regsOf w.ty.toNat) (intValue w.ty.toNat (mdSat w.md) (mdPk w.md) (fun v => min (arg v 0) (arg v 1)) x)) ∧
  (∀ w, LaneRuns s i (.imax w) w.guard 1 fun _ _ x =>
    outV w.dst.toNat (regsOf w.ty.toNat) (intValue w.ty.toNat (mdSat w.md) (mdPk w.md) (fun v => max (arg v 0) (arg v 1)) x)) ∧
  (∀ w, LaneRuns s i (.iabs w) w.guard 1 fun _ _ x =>
    outV w.dst.toNat (regsOf w.ty.toNat) (intValue w.ty.toNat (mdSat w.md) (mdPk w.md) (fun v => ((arg v 0).natAbs : Int)) x)) ∧
  (∀ w, LaneRuns s i (.ineg w) w.guard 1 fun _ _ x =>
    outV w.dst.toNat (regsOf w.ty.toNat) (intValue w.ty.toNat (mdSat w.md) (mdPk w.md) (fun v => -arg v 0) x)) ∧
  (∀ w, LaneRuns s i (.idot4 w) w.guard 2 fun _ _ x =>
    let el (v j : Nat) : Int := readInt w.ty.toNat (v / 2 ^ (8 * j))
    let t := if w.ty.toNat = 12 then 0 else 1
    outV w.dst.toNat 1 (narrowInt t (mdSat w.md) (readInt t (argN x 2) + el (argN x 0) 0 * el (argN x 1) 0 +
      el (argN x 0) 1 * el (argN x 1) 1 + el (argN x 0) 2 * el (argN x 1) 2 + el (argN x 0) 3 * el (argN x 1) 3))) ∧
  (∀ w, LaneRuns s i (.iaddi w) w.guard 1 fun _ _ x =>
    let t := w.type3.toNat
    outV w.dst.toNat (regsOf3 t) (narrowInt t false (readInt t (argN x 0) + if tySigned t then w.imm24.toInt else (w.imm24.toNat : Int)))) ∧
  (∀ w, LaneRuns s i (.imuli w) w.guard 1 fun _ _ x =>
    let t := w.type3.toNat
    outV w.dst.toNat (regsOf3 t) (narrowInt t false (readInt t (argN x 0) * if tySigned t then w.imm24.toInt else (w.imm24.toNat : Int))))) ∧
  (∀ (s : State) (i : Issue) (w : WordV3),
  let t := w.ty.toNat
  let n := tyW t
  let a (x : List Nat) : Int := readInt t (argN x 0)
  let b (x : List Nat) : Int := readInt t (argN x 1)
  let least (x : List Nat) : Prop := tySigned t = true ∧ a x = -(2 ^ (n - 1) : Nat) ∧ b x = -1
  let flag (x : List Nat) : BitVec 32 := (divide t (a x) (b x)).2.2
  let late (ins : Instr) (c : Ctx) : Nat := (c.members w.guard ++ c.helpers w.guard).foldl (fun m l =>
    max m (divLatency t (a (operands c.w (useOf ins) l)) (b (operands c.w (useOf ins) l)))) 0
  let held (ins : Instr) (c : Ctx) (m : NMap Core) : NMap Core :=
    let x := NMap.getD m (coreIx c.b.island c.b.core) Core.start
    NMap.set m (coreIx c.b.island c.b.core) { x with divider := NMap.set x.divider c.w.pipe (s.clk + late ins c) }
  let zeroed (c : Ctx) (l : Nat) (x : List Nat) : Bool := c.w.divtrap && c.i.helpers.contains l && flag x != 0
  LateRuns s i (.idiv w) w.guard 1 .divide (divRules s w (useOf (.idiv w))) (late (.idiv w)) (fun c l x =>
    outV w.dst.toNat (regsOf t) (if zeroed c l x then 0 else wrapN n (divide t (a x) (b x)).1) (flag x)) Warp.srseed (held (.idiv w)) ∧
  LateRuns s i (.irem w) w.guard 1 .divide (divRules s w (useOf (.irem w))) (late (.irem w)) (fun c l x =>
    outV w.dst.toNat (regsOf t) (if zeroed c l x then 0 else wrapN n (divide t (a x) (b x)).2.1) (flag x)) Warp.srseed (held (.irem w)) ∧
  (∀ x, b x = 0 → flag x = flagDivz ∧ (divide t (a x) (b x)).2.1 = a x ∧
    (divide t (a x) (b x)).1 = if tySigned t then (if 0 ≤ a x then ((2 ^ (n - 1) : Nat) : Int) - 1 else -((2 ^ (n - 1) : Nat) : Int)) else ((2 ^ n : Nat) : Int) - 1) ∧
  (∀ x, least x → flag x = flagDivovf ∧ (divide t (a x) (b x)).1 = a x ∧ (divide t (a x) (b x)).2.1 = 0) ∧
  (∀ x, b x ≠ 0 → ¬ least x → flag x = 0 ∧ (divide t (a x) (b x)).1 = Int.tdiv (a x) (b x) ∧ (divide t (a x) (b x)).2.1 = Int.tmod (a x) (b x)) ∧
  (∀ ins, ins = .idiv w ∨ ins = .irem w → Group s i → laneChecks (useOf ins) w.guard (fun _ => .go) (s.ctx i) = .go →
    dividerBusy s (s.ctx i) = false → (s.ctx i).w.divtrap = true →
    let bad := ((s.ctx i).members w.guard).filter fun l =>
      let x := operands (s.ctx i).w (useOf ins) l
      decide (b x = 0) || (tySigned t && decide (a x = -(2 ^ (n - 1) : Nat)) && decide (b x = -1))
    bad ≠ [] → exec ins s = .next (s.stopWarp i.warp 0x07 (laneMask bad) i.pc (s.ctx i).ovl 0 0)))

/-- Logic (R278): bitwise operations over the width of the type; a VI word's immediate is extended to that width, and any other TYPE3 stops the
warp with ILLEGAL_ENCODING (R256), whose report names no lane (log 87); with `lut3` (R279), whose result bit is the bit of its table that its operands'
bits select. -/
def Obligations.LogicLanes : Prop := ∀ (s : State) (i : Issue),
  let imm (w : WordVI) : Nat := if w.type3 = 6 then (w.imm24.signExtend 32).toNat else if w.type3 = 2 then (w.imm24.signExtend 64).toNat else w.imm24.toNat
  (∀ w, LaneRuns s i (.and w) w.guard 1 fun _ _ x => outV w.dst.toNat (regsOf w.ty.toNat) (argN x 0 &&& argN x 1)) ∧
  (∀ w, LaneRuns s i (.or w) w.guard 1 fun _ _ x => outV w.dst.toNat (regsOf w.ty.toNat) (argN x 0 ||| argN x 1)) ∧
  (∀ w, LaneRuns s i (.xor w) w.guard 1 fun _ _ x => outV w.dst.toNat (regsOf w.ty.toNat) (argN x 0 ^^^ argN x 1)) ∧
  (∀ w, LaneRuns s i (.not w) w.guard 1 fun _ _ x =>
    outV w.dst.toNat (regsOf w.ty.toNat) (2 ^ tyW w.ty.toNat - 1 - argN x 0 % 2 ^ tyW w.ty.toNat)) ∧
  (∀ w, LaneRuns s i (.andi w) w.guard 1 fun _ _ x => outV w.dst.toNat (regsOf3 w.type3.toNat) (argN x 0 &&& imm w)) ∧
  (∀ w, LaneRuns s i (.ori w) w.guard 1 fun _ _ x => outV w.dst.toNat (regsOf3 w.type3.toNat) (argN x 0 ||| imm w)) ∧
  (∀ w, LaneRuns s i (.xori w) w.guard 1 fun _ _ x => outV w.dst.toNat (regsOf3 w.type3.toNat) (argN x 0 ^^^ imm w)) ∧
  (∀ w ins, ins = .andi w ∨ ins = .ori w ∨ ins = .xori w → Group s i → w.type3 ≠ 6 → w.type3 ≠ 2 → w.type3 ≠ 3 →
    exec ins s = .next (s.stopWarp i.warp 0x02 0 i.pc (s.ctx i).ovl 0 0)) ∧
  (∀ w, LaneRuns s i (.lut3 w) w.guard 2 fun _ _ x =>
    outV w.dst.toNat (regsOf w.ty.toNat) (lut3 w.imm32.toNat (argN x 0) (argN x 1) (argN x 2) (tyW w.ty.toNat))) ∧
  ∀ tt a b c n k, k < n → (lut3 tt a b c n).testBit k = tt.testBit ((a.testBit k).toNat + 2 * (b.testBit k).toNat + 4 * (c.testBit k).toNat)

/-- Shifts (R280) and single-operand bit instructions (R283), with the field instructions `extr`, `bfx` and `bfi`. -/
def Obligations.ShiftsFieldsCounts : Prop := ∀ (s : State) (i : Issue),
  let n (w : WordV3) : Nat := tyW w.ty.toNat
  (∀ w, LaneRuns s i (.shl w) w.guard 1 fun _ _ x =>
    outV w.dst.toNat (regsOf w.ty.toNat) (if n w ≤ argN x 1 then 0 else argN x 0 * 2 ^ argN x 1 % 2 ^ n w)) ∧
  (∀ w, LaneRuns s i (.shr w) w.guard 1 fun _ _ x =>
    outV w.dst.toNat (regsOf w.ty.toNat) (if n w ≤ argN x 1 then 0 else argN x 0 % 2 ^ n w / 2 ^ argN x 1)) ∧
  (∀ w, LaneRuns s i (.sra w) w.guard 1 fun _ _ x =>
    outV w.dst.toNat (regsOf w.ty.toNat) (wrapN (n w) (sext (n w) (argN x 0) / ((2 ^ min (argN x 1) (n w) : Nat) : Int)))) ∧
  (∀ w, LaneRuns s i (.extr w) w.guard 2 fun _ _ x => outV w.dst.toNat 1 (extr (mdOp w.md) (argN x 0) (argN x 1) (argN x 2))) ∧
  (∀ w, LaneRuns s i (.bfx w) w.guard 1 fun _ _ x =>
    outV w.dst.toNat (regsOf w.ty.toNat) (bfx (n w) (mdOp w.md == 1) (argN x 0) (argN x 1))) ∧
  (∀ w, LaneRuns s i (.bfi w) w.guard 2 fun _ _ x =>
    outV w.dst.toNat (regsOf w.ty.toNat) (bfi (tyW w.ty.toNat) (argN x 0) (argN x 1) (argN x 2))) ∧
  (∀ w, LaneRuns s i (.brev w) w.guard 1 fun _ _ x => outV w.dst.toNat (regsOf w.ty.toNat) (revBits (n w) (argN x 0))) ∧
  (∀ w, LaneRuns s i (.popc w) w.guard 1 fun _ _ x => outV w.dst.toNat 1 (popBits (n w) (argN x 0))) ∧
  (∀ w, LaneRuns s i (.clz w) w.guard 1 fun _ _ x => outV w.dst.toNat 1 (n w - bitLen (argN x 0 % 2 ^ n w))) ∧
  (∀ w, LaneRuns s i (.ctz w) w.guard 1 fun _ _ x => outV w.dst.toNat 1 (ctzBits (n w) (argN x 0))) ∧
  (∀ m a k, k < m → (revBits m a).testBit k = a.testBit (m - 1 - k)) ∧
  (∀ m a, popBits m a = ((List.range m).filter fun k => a.testBit k).length) ∧
  (∀ m a, (∀ k, k < ctzBits m a → a.testBit k = false) ∧ (ctzBits m a < m → a.testBit (ctzBits m a) = true) ∧ ctzBits m a ≤ m) ∧
  (∀ m a ctl, let pos := ctl % 256
    let len := min (ctl / 256 % 256) (m - pos)
    bfx m false a ctl = a / 2 ^ pos % 2 ^ len)

/-- Compares, selects, predicate logic, moves, conversions and addresses (R284 to R291, R319). -/
def Obligations.ComparesMovesAddresses : Prop := ∀ (s : State) (i : Issue),
  (∀ w, LaneRuns s i (.icmp w) w.guard 1 fun _ _ x =>
    outP w.dst.toNat (relation (mdOp w.md) (readInt w.ty.toNat (argN x 0)) (readInt w.ty.toNat (argN x 1)))) ∧
  (∀ w, LaneRuns s i (.icmpi w) w.guard 1 fun _ _ x =>
    let t := w.type3.toNat
    let v := w.imm24.setWidth 21
    outP w.dst.toNat (relation (w.imm24.toNat / 2 ^ 21) (readInt t (argN x 0)) (if tySigned t then v.toInt else (v.toNat : Int)))) ∧
  (∀ w, LaneRuns s i (.sel w) w.guard 2 fun c l x =>
    outV w.dst.toNat (regsOf w.ty.toNat)
      (if readPred (c.w.thread l).p w.sc.toNat != w.xmod.getLsbD 0 then argN x 0 else argN x 1)) ∧
  (∀ w, LaneRuns s i (.plop w) w.guard 1 fun c l _ =>
    outP w.dst.toNat (predOp (mdOp w.md) (readPred (c.w.thread l).p w.sa.toNat) (readPred (c.w.thread l).p w.sb.toNat))) ∧
  (∀ w, LaneRuns s i (.mov w) w.guard 1 fun c l x =>
    match mdOp w.md with
    | 0 => outV w.dst.toNat (regsOf w.ty.toNat) (argN x 0)
    | 1 => outV w.dst.toNat 1 (if readPred (c.w.thread l).p w.sa.toNat then 1 else 0)
    | 2 => outP w.dst.toNat (argN x 0 != 0)
    | _ => outV w.dst.toNat (regsOf w.ty.toNat) (c.w.sreg w.sa.toNat).toNat) ∧
  (∀ w, LaneRuns s i (.movi w) w.guard 1 fun _ _ _ => outV w.dst.toNat (regsOf3 w.type3.toNat) (viImm w.type3.toNat w.imm24.toNat)) ∧
  (∀ w, LaneRuns s i (.movw w) w.guard 2 fun _ _ _ =>
    outV w.dst.toNat (regsOf w.ty.toNat) (if w.ty = 2 then (w.imm32.signExtend 64).toNat else w.imm32.toNat)) ∧
  (∀ w, LaneRuns s i (.icvt w) w.guard 1 fun _ _ x =>
    outV w.dst.toNat (regsOf w.ty.toNat)
      (extendInt w.ty.toNat (narrowInt w.ty.toNat (mdSat w.md) (readInt (icvtSrc (mdOp w.md)) (argN x 0))))) ∧
  (∀ w, LaneRuns s i (.lea w) w.guard 1 fun _ _ x =>
    outV w.dst.toNat 2 (wrapN 64 ((argN x 0 : Int) + readInt w.ty.toNat (argN x 1) * ((2 ^ mdOp w.md : Nat) : Int)))) ∧
  (∀ w, LaneRuns s i (.grpmask w) w.guard 1 fun c _ _ => outV w.dst.toNat 1 (laneMask c.i.lanes))

/-- Scalar instructions (R292 to R295): one result for the group where the q guard holds, over 64-bit s registers. -/
def Obligations.ScalarInstructions : Prop := ∀ (s : State) (i : Issue),
  let y (w : WordS) (x : Warp) : Word := if w.im = 0 then x.sreg w.sb.toNat else if w.im = 1 then w.imm32.signExtend 64 else w.imm32.setWidth 64
  let a (w : WordS) (x : Warp) : Word := x.sreg w.sa.toNat
  let b (w : WordS) (x : Warp) : Word := x.sreg w.sb.toNat
  let sd (w : WordS) (v : Word) : ScalarOut := { s := some (w.sd.toNat, v) }
  let num (z : Bool) (v : Word) : Int := if z then (v.toNat : Int) else v.toInt
  (∀ w, ScalarRuns s i (.sadd w) w.guard fun x => sd w (a w x + y w x)) ∧
  (∀ w, ScalarRuns s i (.ssub w) w.guard fun x => sd w (a w x - y w x)) ∧
  (∀ w, ScalarRuns s i (.smul w) w.guard fun x => sd w (a w x * y w x)) ∧
  (∀ w, ScalarRuns s i (.sand w) w.guard fun x => sd w (a w x &&& y w x)) ∧
  (∀ w, ScalarRuns s i (.sor w) w.guard fun x => sd w (a w x ||| y w x)) ∧
  (∀ w, ScalarRuns s i (.sxor w) w.guard fun x => sd w (a w x ^^^ y w x)) ∧
  (∀ w, ScalarRuns s i (.sshl w) w.guard fun x => sd w (a w x <<< y w x)) ∧
  (∀ w, ScalarRuns s i (.sshr w) w.guard fun x => sd w (a w x >>> y w x)) ∧
  (∀ w, ScalarRuns s i (.ssra w) w.guard fun x => sd w ((a w x).sshiftRight (y w x).toNat)) ∧
  (∀ w, ScalarRuns s i (.smin w) w.guard fun x =>
    sd w (if num (w.imm32.getLsbD 0) (y w x) < num (w.imm32.getLsbD 0) (a w x) then y w x else a w x)) ∧
  (∀ w, ScalarRuns s i (.smax w) w.guard fun x =>
    sd w (if num (w.imm32.getLsbD 0) (a w x) < num (w.imm32.getLsbD 0) (y w x) then y w x else a w x)) ∧
  (∀ w, ScalarRuns s i (.scmp w) w.guard fun x =>
    { q := some (w.sd.toNat, relation (w.imm32.toNat % 8) (num (w.imm32.getLsbD 3) (a w x)) (num (w.imm32.getLsbD 3) (b w x))) }) ∧
  (∀ w, ScalarRuns s i (.smov w) w.guard fun x => sd w (y w x)) ∧
  (∀ w, ScalarRuns s i (.ssel w) w.guard fun x =>
    sd w (if readPred x.q (w.imm32.toNat % 8) != w.imm32.getLsbD 3 then a w x else b w x)) ∧
  (∀ w, ScalarRuns s i (.qlop w) w.guard fun x =>
    { q := some (w.sd.toNat, predOp w.imm32.toNat (readPred x.q w.sa.toNat) (readPred x.q w.sb.toNat)) }) ∧
  (∀ w, ScalarRuns s i (.brec w) w.guard fun x => { b := some (w.sd.toNat, (b w x) ++ (a w x)) }) ∧
  (∀ w, ScalarRuns s i (.bget w) w.guard fun x =>
    sd w (if w.imm32 = 1 then (x.bufRec w.sa.toNat).extractLsb' 64 64 else (x.bufRec w.sa.toNat).setWidth 64))

/-- Floating-point arithmetic (R297 to R300): the exact result of the decoded operands, element by element, rounded once under EffRM (R55);
minimum, maximum and sign operations round nothing. SRSEED steps only in stochastic mode (R62). -/
def Obligations.FloatArithmetic : Prop := ∀ (s : State) (i : Issue),
  let lane (w : WordV3) (f : Nat → List Nat → Nat × BitVec 32) (x : List Nat) : LaneOut := fElems w.dst.toNat (regsOf w.ty.toNat) (mdPk w.md) f x
  let el (w : WordV3) (e : List Nat) (k : Nat) : FVal := fa (e.map fun v => fdecode w.ty.toNat v (mdFtz w.md)) k
  let keep (w : WordV3) (r : FVal × BitVec 32) : Nat × BitVec 32 := (fexact w.ty.toNat r.1, r.2)
  (∀ w, LaneRuns s i (.fadd w) w.guard 1 (fun c l x =>
    lane w (fun j e => c.round w.ty.toNat w.md l j (exactSum [el w e 0, el w e 1] (effRM c.w w.md))) x) (steppedSeed w.md)) ∧
  (∀ w, LaneRuns s i (.fsub w) w.guard 1 (fun c l x =>
    lane w (fun j e => c.round w.ty.toNat w.md l j (exactSum [el w e 0, (el w e 1).neg] (effRM c.w w.md))) x) (steppedSeed w.md)) ∧
  (∀ w, LaneRuns s i (.fmul w) w.guard 1 (fun c l x =>
    lane w (fun j e => c.round w.ty.toNat w.md l j (fmul (el w e 0) (el w e 1))) x) (steppedSeed w.md)) ∧
  (∀ w, LaneRuns s i (.ffma w) w.guard 2 (fun c l x =>
    fElems w.dst.toNat (regsOf w.ty.toNat) (mdPk w.md) (fun j e =>
      let v := e.map fun b => fdecode w.ty.toNat b (mdFtz w.md)
      c.round w.ty.toNat w.md l j (fmulAdd (fa v 0) (fa v 1) (fa v 2) (effRM c.w w.md))) x) (steppedSeed w.md)) ∧
  (∀ w, LaneRuns s i (.ffrac w) w.guard 1 (fun c l x =>
    lane w (fun j e => c.round w.ty.toNat w.md l j (fracV (el w e 0))) x) (steppedSeed w.md)) ∧
  (∀ w, LaneRuns s i (.fmin w) w.guard 1 fun _ _ x => lane w (fun _ e => keep w (fminmax false (el w e 0) (el w e 1))) x) ∧
  (∀ w, LaneRuns s i (.fmax w) w.guard 1 fun _ _ x => lane w (fun _ e => keep w (fminmax true (el w e 0) (el w e 1))) x) ∧
  (∀ w, LaneRuns s i (.fabs w) w.guard 1 fun _ _ x => lane w (fun _ e => keep w ((el w e 0).withSign false, 0)) x) ∧
  (∀ w, LaneRuns s i (.fneg w) w.guard 1 fun _ _ x => lane w (fun _ e => keep w ((el w e 0).neg, 0)) x) ∧
  (∀ w, LaneRuns s i (.fsgn w) w.guard 1 fun _ _ x => lane w (fun _ e =>
    let a := fdecode w.ty.toNat (argN e 0) (mdFtz w.md)
    let sign := argN e 1 / 2 ^ ((fmtOf w.ty.toNat).eb + (fmtOf w.ty.toNat).mb) % 2 == 1
    (fexact w.ty.toNat (if mdOp w.md = 1 then a.withSign sign else if a.isNan || a.isZero then a else .fin a.isNeg 1 0 false), 0)) x) ∧
  (∀ w, LaneRuns s i (.fscale w) w.guard 1 (fun c l x =>
    lane w (fun j e =>
      let v := fdecode w.ty.toNat (e.headD 0) (mdFtz w.md)
      c.round w.ty.toNat w.md l j (fscaleBy v (max (-8000) (min 8000 (sext 32 (argN x 1)))), v.sigFlag)) [argN x 0]) (steppedSeed w.md)) ∧
  (∀ w, LaneRuns s i (.faddi w) w.guard 1 fun _ _ x =>
    let t := w.type3.toNat
    let r := exactSum [fdecode t (argN x 0) false, fdecode t (viImm t w.imm24.toNat) false] 0
    let y := fround r.1 t 0 false false 0
    outV w.dst.toNat (regsOf3 t) y.1 (y.2 ||| r.2)) ∧
  (∀ w, LaneRuns s i (.fmuli w) w.guard 1 fun _ _ x =>
    let t := w.type3.toNat
    let r := fmul (fdecode t (argN x 0) false) (fdecode t (viImm t w.imm24.toNat) false)
    let y := fround r.1 t 0 false false 0
    outV w.dst.toNat (regsOf3 t) y.1 (y.2 ||| r.2)) ∧
  (∀ w, LaneRuns s i (.fround w) w.guard 1 (fun c l x =>
    lane w (fun j e =>
      let v := fdecode w.ty.toNat (e.headD 0) (mdFtz w.md)
      (fexact w.ty.toNat (roundIntegral v (effRM c.w w.md) (stochHigh c.w.srseed.toNat l j)), v.sigFlag)) x) (steppedSeed w.md))

/-- Floating-point compares, classes, dot products, conversions and packing (R299, R301, R302, R307 to R311). -/
def Obligations.FloatComparesConversions : Prop := ∀ (s : State) (i : Issue),
  (∀ w, LaneRuns s i (.fcmp w) w.guard 1 fun _ _ x =>
    let a := fdecode w.ty.toNat (argN x 0) (mdFtz w.md)
    let b := fdecode w.ty.toNat (argN x 1) (mdFtz w.md)
    let bad := if 2 ≤ mdOp w.md ∧ mdOp w.md ≤ 5 then a.isNan || b.isNan else (a.sigFlag ||| b.sigFlag) != 0
    outP w.dst.toNat (frelation (mdOp w.md) a b) (if bad then fINV else 0)) ∧
  (∀ w, LaneRuns s i (.fclass w) w.guard 1 fun _ _ x =>
    outV w.dst.toNat 1 (2 ^ fclassBit (fmtOf w.ty.toNat) (fdecode w.ty.toNat (argN x 0) (mdFtz w.md)))) ∧
  (∀ w, LaneRuns s i (.fdot2 w) w.guard 2 (fun c l x =>
    let el (v j : Nat) : FVal := fdecode w.ty.toNat (v / 2 ^ (16 * j) % 2 ^ 16) (mdFtz w.md)
    let r := c.round 4 w.md l 0 (fdot (fdecode 4 (argN x 2) (mdFtz w.md))
      [(el (argN x 0) 0, el (argN x 1) 0), (el (argN x 0) 1, el (argN x 1) 1)] (effRM c.w w.md))
    outV w.dst.toNat 1 r.1 r.2) (steppedSeed w.md)) ∧
  (∀ w, LaneRuns s i (.fdot4 w) w.guard 2 (fun c l x =>
    let el (v j : Nat) : FVal := fdecode w.ty.toNat (v / 2 ^ (8 * j) % 2 ^ 8) (mdFtz w.md)
    let r := c.round 4 w.md l 0 (fdot (fdecode 4 (argN x 2) (mdFtz w.md))
      [(el (argN x 0) 0, el (argN x 1) 0), (el (argN x 0) 1, el (argN x 1) 1), (el (argN x 0) 2, el (argN x 1) 2), (el (argN x 0) 3, el (argN x 1) 3)]
      (effRM c.w w.md))
    outV w.dst.toNat 1 r.1 r.2) (steppedSeed w.md)) ∧
  (∀ w, LaneRuns s i (.fcvt w) w.guard 1 (fun c l x =>
    let v := fdecode (fcvtSrc (mdOp w.md)) (argN x 0) (mdFtz w.md)
    let r := c.round w.ty.toNat w.md l 0 (v, v.sigFlag)
    outV w.dst.toNat (regsOf w.ty.toNat) r.1 r.2) (steppedSeed w.md)) ∧
  (∀ w, LaneRuns s i (.f2i w) w.guard 1 (fun c l x =>
    let t := w.ty.toNat
    let lo : Int := if tySigned t then -((2 ^ (tyW t - 1) : Nat) : Int) else 0
    let hi : Int := if tySigned t then ((2 ^ (tyW t - 1) : Nat) : Int) - 1 else ((2 ^ tyW t : Nat) : Int) - 1
    let r := toInt (fdecode (fcvtSrc (mdOp w.md)) (argN x 0) (mdFtz w.md)) lo hi (effRM c.w w.md) (stochHigh c.w.srseed.toNat l 0)
    outV w.dst.toNat (regsOf t) (extendInt t (wrapN (tyW t) r.1)) r.2) (steppedSeed w.md)) ∧
  (∀ w, LaneRuns s i (.i2f w) w.guard 1 (fun c l x =>
    let v := readInt (icvtSrc (mdOp w.md)) (argN x 0)
    let r := c.round w.ty.toNat w.md l 0 (.fin (v < 0) v.natAbs 0 false, 0)
    outV w.dst.toNat (regsOf w.ty.toNat) r.1 r.2) (steppedSeed w.md)) ∧
  (∀ w, LaneRuns s i (.fpack w) w.guard 2 (fun c l x =>
    let el (j : Nat) : Nat × BitVec 32 :=
      c.round w.ty.toNat w.md l j (fdecode 4 (argN x j) (mdFtz w.md), (fdecode 4 (argN x j) (mdFtz w.md)).sigFlag)
    let k := w.xmod.toNat
    outV w.dst.toNat 1
      (if w.ty.toNat = 6 || w.ty.toNat = 7 then (el 1).1 * 2 ^ 16 + (el 0).1
       else if w.ty.toNat = 14 then setBits (argN x 2) (8 * k + 7) (8 * k) ((el 0).1 + (el 1).1 * 16)
       else setBits (argN x 2) (16 * k + 15) (16 * k) ((el 0).1 + (el 1).1 * 256)) ((el 0).2 ||| (el 1).2)) (steppedSeed w.md)) ∧
  (∀ w, LaneRuns s i (.funpack w) w.guard 1 fun _ _ x =>
    let n := if w.ty.toNat = 14 then 4 else if w.ty.toNat = 8 || w.ty.toNat = 9 then 8 else 16
    let v := fdecode w.ty.toNat (argN x 0 / 2 ^ (n * mdOp w.md) % 2 ^ n) (mdFtz w.md)
    outV w.dst.toNat 1 (fexact 4 v) v.sigFlag) ∧
  (∀ w, LaneRuns s i (.fmxsc w) w.guard 1 fun _ _ x => outV w.dst.toNat 1 (mxScale (fdecode 4 (argN x 0) (mdFtz w.md))))

/-- Division, roots and transcendental functions (R304, R305): the results are the exact functions' values, rounded once, of the operands as they
stood, and return after the latency of R305. For the transcendental functions that rounding is the model's choice (log 112).
Where no finite bound decides a rounding the value is the free value of log 2. -/
def Obligations.SpecialFunctions : Prop := ∀ (s : State) (i : Issue) (w : WordV3),
  let t := w.ty.toNat
  let out (f : List FVal → FVal × BitVec 32) (c : Ctx) (l : Nat) (x : List Nat) : LaneOut :=
    fElems w.dst.toNat (regsOf t) (mdPk w.md) (fun j e => c.round t w.md l j (f (e.map fun v => fdecode t v (mdFtz w.md)))) x
  let root := if t = 5 then 24 else 12
  let runs (ins : Instr) (late : Nat) (f : List FVal → FVal × BitVec 32) : Prop :=
    LateRuns s i ins w.guard 1 .special (fun _ => .go) (fun _ => late) (out f) (steppedSeed w.md)
  runs (.fdiv w) root (fun x => fdiv (fa x 0) (fa x 1)) ∧
  runs (.fsqrt w) root (fun x => fsqrtV (fa x 0)) ∧
  runs (.frsqrt w) root (fun x => frsqrtV (fa x 0)) ∧
  runs (.frcp w) root (fun x => frcpV (fa x 0)) ∧
  runs (.fexp2 w) 16 (fun x => specialV .exp2 (fa x 0)) ∧
  runs (.flog2 w) 16 (fun x => specialV .log2 (fa x 0)) ∧
  runs (.fsin w) 20 (fun x => specialV .sin (fa x 0)) ∧
  runs (.fcos w) 20 (fun x => specialV .cos (fa x 0)) ∧
  runs (.ftanh w) 16 (fun x => specialV .tanh (fa x 0)) ∧
  runs (.fsigm w) 16 (fun x => specialV .sigm (fa x 0))

/-- Lane exchange (R312 to R317): every named lane has arrived; a lane's result comes from the lanes R314 and R315 name. -/
def Obligations.LaneExchange : Prop := ∀ (s : State) (i : Issue) (w : WordV3),
  let n := regsOf w.ty.toNat
  let mask : Option Nat := if mkOf w.md then some w.sb.toNat else none
  let from_ (c : Ctx) (l : Nat) : List Nat := c.contributors w.guard mask l
  let late (c : Ctx) : Bool := !c.arrived w.guard mask
  let val (c : Ctx) (k : Nat) : Nat := readV c.w k w.sa.toNat n
  let pred (c : Ctx) (k : Nat) : Bool := readPred (c.w.thread k).p w.sa.toNat
  let partner (c : Ctx) (l k : Nat) : Nat := if c.i.lanes.contains k || c.i.helpers.contains k then k else l
  let below (c : Ctx) (l : Nat) : List Nat := (from_ c l).filter fun k => if w.md.getLsbD 2 then k < l else k ≤ l
  let red (c : Ctx) (op d : Nat) (ks : List Nat) : LaneOut :=
    let r := reduce c op w.ty.toNat w.md d (ks.map (val c))
    outV w.dst.toNat n r.1 r.2
  ExchangeRuns s i (.shfl w) w.guard false (fun c => !c.arrived w.guard (if mkOf w.md then some (w.sb.toNat + 1) else none))
    (fun c l => [(shflFrom c w l).1]) (fun c l =>
      outV w.dst.toNat n (val c (shflFrom c w l).1) (if (shflFrom c w l).2 then flagShfl else 0)) ∧
  ExchangeRuns s i (.vote w) w.guard true late (fun _ l => [l]) (fun c l =>
    outP w.dst.toNat (match mdOp w.md with
      | 0 => (from_ c l).all (pred c)
      | 1 => (from_ c l).any (pred c)
      | _ => (from_ c l).all (pred c) || !(from_ c l).any (pred c))) ∧
  ExchangeRuns s i (.ballot w) w.guard true late (fun _ l => [l]) (fun c l =>
    outV w.dst.toNat 1 (laneMask ((from_ c l).filter (pred c)))) ∧
  ExchangeRuns s i (.matchLanes w) w.guard false (fun c => mkOf w.md && late c) (fun c l => l :: matchSet c w l) (fun c l =>
    outV w.dst.toNat 1 (laneMask ((matchSet c w l).filter fun k => val c k == val c l))) ∧
  ExchangeRuns s i (.qswap w) w.guard false (fun _ => false) (fun c l => [partner c l (l ^^^ (mdOp w.md + 1))]) (fun c l =>
    outV w.dst.toNat n (val c (partner c l (l ^^^ (mdOp w.md + 1))))) ∧
  ExchangeRuns s i (.qbcast w) w.guard false (fun _ => false) (fun c l => [partner c l (l / 4 * 4 + mdOp w.md)]) (fun c l =>
    outV w.dst.toNat n (val c (partner c l (l / 4 * 4 + mdOp w.md)))) ∧
  ExchangeRuns s i (.wred w) w.guard false late from_ (fun c l => red c (mdOp w.md) ((from_ c l).headD l) (from_ c l)) (steppedSeed w.md) ∧
  ExchangeRuns s i (.wscan w) w.guard false late below (fun c l => red c (mdOp w.md % 4) l (below c l)) (steppedSeed w.md)

/-- Branches (R240, R337, R338, R341): a branch whose target words are headers moves the lanes it admits there and the other members past
itself; `nop` only falls through.

A branch or call to a word that is no header, or no ENTRY header where one is asked for, stops the warp with BAD_TARGET (R256, R337 to R339), any pair
of `brm` among them, a register target at or above word 8,192, and a call whose next word is no header; an `fcall` whose overlay no slot holds stops it with OVERLAY_ABSENT. The lanes of
a register target are named; LANES is 0 for an encoded one (log 87). -/
def Obligations.BranchesMoveGroups : Prop :=
  (∀ (s : State) (i : Issue), Group s i →
  let c := s.ctx i
  let head (d : Int) : Prop := s.headerAt c i.pc.slot d false = true
  (∀ w : WordB, checkEncoding c (useOf (.br w)) = .go → head ((i.pc.ofs : Int) + w.ofs20.toInt) →
    ∃ t, exec (.br w) s = .next t ∧ ThreadsNext s t i c.w (branched i 1 fun l =>
      if (c.members w.guard).contains l then some ((i.pc.ofs : Int) + w.ofs20.toInt).toNat else none)) ∧
  (∀ w : WordB, checkEncoding c (useOf (.brq w)) = .go → head ((i.pc.ofs : Int) + w.ofs20.toInt) →
    ∃ t, exec (.brq w) s = .next t ∧ ThreadsNext s t i c.w (branched i 1 fun _ =>
      if c.qOn w.guard then some ((i.pc.ofs : Int) + w.ofs20.toInt).toNat else none)) ∧
  (∀ w : WordBM, checkEncoding c (useOf (.brm w)) = .go → (∀ p ∈ brmPairs w, head ((i.pc.ofs : Int) + p.2.toInt)) →
    ∃ t, exec (.brm w) s = .next t ∧ ThreadsNext s t i c.w (branched i 2 fun l =>
      if (c.members w.guard).contains l then
        ((brmPairs w).find? fun p => admits p.1 (c.w.thread l).p).map fun p => ((i.pc.ofs : Int) + p.2.toInt).toNat
      else none)) ∧
  (∀ w : WordV3, checkEncoding c (useOf (.jmpr w)) = .go → checkSources c (useOf (.jmpr w)) [] = .go →
    (∀ l ∈ c.members w.guard, readV c.w l w.sa.toNat 1 < 8192 ∧ head (readV c.w l w.sa.toNat 1)) →
    ∃ t, exec (.jmpr w) s = .next t ∧ ThreadsNext s t i (c.sourced (useOf (.jmpr w)) w.guard) (branched i 1 fun l =>
      if (c.members w.guard).contains l then some (readV c.w l w.sa.toNat 1) else none)) ∧
  (∀ w : WordV3, checkEncoding c (useOf (.nop w)) = .go →
    ∃ t, exec (.nop w) s = .next t ∧ ThreadsNext s t i c.w (passed i 1))) ∧
  (∀ (s : State) (i : Issue), Group s i →
  let c := s.ctx i
  let stop : State := s.stopWarp i.warp 0x03 0 i.pc c.ovl 0 0
  (∀ w : WordB, checkEncoding c (useOf (.br w)) = .go → s.headerAt c i.pc.slot ((i.pc.ofs : Int) + w.ofs20.toInt) false = false → exec (.br w) s = .next stop) ∧
  (∀ w : WordB, checkEncoding c (useOf (.brq w)) = .go → s.headerAt c i.pc.slot ((i.pc.ofs : Int) + w.ofs20.toInt) false = false → exec (.brq w) s = .next stop) ∧
  (∀ w : WordB, checkEncoding c (useOf (.call w)) = .go → s.headerAt c i.pc.slot ((i.pc.ofs : Int) + w.ofs20.toInt) true = false → exec (.call w) s = .next stop) ∧
  (∀ w : WordBM, checkEncoding c (useOf (.brm w)) = .go →
    (∃ p ∈ [(w.p0, w.t0), (w.p1, w.t1), (w.p2, w.t2), (w.p3, w.t3)], p.1 ≠ 15 ∧ s.headerAt c i.pc.slot ((i.pc.ofs : Int) + p.2.toInt) false = false) →
    exec (.brm w) s = .next stop) ∧
  (∀ w : WordV3, let bad (entry : Bool) := (c.members w.guard).filter fun l =>
      !(decide (readV c.w l w.sa.toNat 1 < 8192) && s.headerAt c i.pc.slot (readV c.w l w.sa.toNat 1 : Nat) entry)
    checkEncoding c (useOf (.jmpr w)) = .go → checkSources c (useOf (.jmpr w)) [] = .go →
    (bad false ≠ [] → exec (.jmpr w) s = .next (s.stopWarp i.warp 0x03 (laneMask (bad false)) i.pc c.ovl 0 0)) ∧
    (s.headerAt c i.pc.slot (i.pc.ofs + 1 : Nat) false = true → bad true ≠ [] →
      exec (.callr w) s = .next (s.stopWarp i.warp 0x03 (laneMask (bad true)) i.pc c.ovl 0 0))) ∧
  (s.headerAt c i.pc.slot (i.pc.ofs + 1 : Nat) false = false →
    (∀ w : WordB, checkEncoding c (useOf (.call w)) = .go → exec (.call w) s = .next stop) ∧
    (∀ w : WordV3, checkEncoding c (useOf (.callr w)) = .go → exec (.callr w) s = .next stop) ∧
    ∀ w : WordB, checkEncoding c (useOf (.fcall w)) = .go → exec (.fcall w) s = .next stop) ∧
  (∀ w : WordB, checkEncoding c (useOf (.fcall w)) = .go → s.headerAt c i.pc.slot (i.pc.ofs + 1 : Nat) false = true → c.members w.guard ≠ [] →
    (findOverlay s c w.ovl.toNat = none → exec (.fcall w) s = .next (s.stopWarp i.warp 0x04 0 i.pc c.ovl 0 0)) ∧
    ∀ k, findOverlay s c w.ovl.toNat = some k → s.headerAt c k w.ofs20.toNat true = false → exec (.fcall w) s = .next stop))

/-- Calls and returns (R24, R339 to R341): each admitted lane whose frame fits pushes its return word, image and RCP into 16 bytes of its slice
and goes to the ENTRY header; no other byte of memory changes, and no other warp, but for the spin floor that a warp leaves whose watched words
are written (R43). A lane whose frame does not fit its call area is switched off with SCRATCH_VIOLATION (0x20, R24, R339): nothing of it is pushed and its PC stays. -/
def Obligations.CallsAndReturns : Prop := ∀ (s : State) (i : Issue), Group s i →
  let c := s.ctx i
  let n := (s.warp i.warp).threads.length
  let th := (s.warp i.warp).thread
  let frame (l : Nat) : Nat := frameAddr c.b c.w l (th l).depth
  let room (g : BitVec 4) : Prop := c.b.callArea ≤ c.b.sliceSize ∧ ∀ l ∈ c.members g, 16 * ((th l).depth + 1) ≤ c.b.callArea
  let called (g : BitVec 4) (far : Bool) (w0 : Warp) (slot : Nat) (target : Nat → Nat) (t : State) : Prop :=
    t.issue = none ∧ (t.warp i.warp).threads.length = n ∧
    (∀ l, l < n → (t.warp i.warp).thread l =
      if (c.members g).contains l then
        { w0.thread l with pc := ⟨slot, target l⟩, blockEnd := target l, depth := (th l).depth + 1, rcp := none }
      else if i.lanes.contains l then (w0.thread l).past 1 else w0.thread l) ∧
    (∀ l ∈ c.members g, t.readMem (frame l) 16 = frameWord i.pc.slot (i.pc.ofs + 1) far c.ovl (th l).rcp % 2 ^ 128) ∧
    (∀ a, (∀ l ∈ c.members g, a < frame l ∨ frame l + 16 ≤ a) → Memory.read t.mem a = Memory.read s.mem a) ∧
    (let x := t.warp i.warp
     { x with threads := w0.threads, spinCount := w0.spinCount, watch := w0.watch, floor := w0.floor, owed := w0.owed } = w0) ∧
    ∀ k, k ≠ i.warp → t.warp k = s.warp k ∨ (s.warp k).floor = true ∧ t.warp k = (s.warp k).spinReset
  let fits (l : Nat) : Prop := 16 * ((th l).depth + 1) ≤ c.b.callArea
  let spilled (g : BitVec 4) (w0 : Warp) (t : State) : Prop :=
    t.issue = none ∧
    (∀ l ∈ c.members g, ¬ fits l →
      (t.warp i.warp).thread l = { w0.thread l with st := .switchedOff } ∧ (t.warp i.warp).wfault.getLsbD l = true) ∧
    ((∃ l ∈ c.members g, ¬ fits l) → bits c.w.wfault.toNat 31 0 = 0 →
      bits (t.warp i.warp).wfault.toNat 39 32 = 0x20 ∧ (t.warp i.warp).wfaultPc = i.pc) ∧
    ∀ a, (∀ l ∈ c.members g, fits l → a < frame l ∨ frame l + 16 ≤ a) → Memory.read t.mem a = Memory.read s.mem a
  (∀ w : WordB, checkEncoding c (useOf (.call w)) = .go → s.headerAt c i.pc.slot ((i.pc.ofs : Int) + w.ofs20.toInt) true = true →
    s.headerAt c i.pc.slot (i.pc.ofs + 1 : Nat) false = true → ∃ t, exec (.call w) s = .next t ∧ spilled w.guard c.w t) ∧
  (∀ w : WordV3, checkEncoding c (useOf (.callr w)) = .go → s.headerAt c i.pc.slot (i.pc.ofs + 1 : Nat) false = true →
    checkSources c (useOf (.callr w)) [] = .go →
    (∀ l ∈ c.members w.guard, readV c.w l w.sa.toNat 1 < 8192 ∧ s.headerAt c i.pc.slot (readV c.w l w.sa.toNat 1 : Nat) true = true) →
    ∃ t, exec (.callr w) s = .next t ∧ spilled w.guard (c.sourced (useOf (.callr w)) w.guard) t) ∧
  (∀ (w : WordB) (k : Nat), checkEncoding c (useOf (.fcall w)) = .go → s.headerAt c i.pc.slot (i.pc.ofs + 1 : Nat) false = true →
    findOverlay s c w.ovl.toNat = some k → s.headerAt c k w.ofs20.toNat true = true →
    ∃ t, exec (.fcall w) s = .next t ∧ spilled w.guard c.w t) ∧
  (∀ w : WordB, checkEncoding c (useOf (.call w)) = .go → s.headerAt c i.pc.slot ((i.pc.ofs : Int) + w.ofs20.toInt) true = true →
    s.headerAt c i.pc.slot (i.pc.ofs + 1 : Nat) false = true → room w.guard →
    ∃ t, exec (.call w) s = .next t ∧ called w.guard false c.w i.pc.slot (fun _ => ((i.pc.ofs : Int) + w.ofs20.toInt).toNat) t ∧ t.blocks = s.blocks) ∧
  (∀ w : WordV3, checkEncoding c (useOf (.callr w)) = .go → s.headerAt c i.pc.slot (i.pc.ofs + 1 : Nat) false = true →
    checkSources c (useOf (.callr w)) [] = .go →
    (∀ l ∈ c.members w.guard, readV c.w l w.sa.toNat 1 < 8192 ∧ s.headerAt c i.pc.slot (readV c.w l w.sa.toNat 1 : Nat) true = true) →
    room w.guard →
    ∃ t, exec (.callr w) s = .next t ∧
      called w.guard false (c.sourced (useOf (.callr w)) w.guard) i.pc.slot (fun l => readV c.w l w.sa.toNat 1) t ∧ t.blocks = s.blocks) ∧
  (∀ (w : WordB) (k : Nat), checkEncoding c (useOf (.fcall w)) = .go → s.headerAt c i.pc.slot (i.pc.ofs + 1 : Nat) false = true →
    findOverlay s c w.ovl.toNat = some k → s.headerAt c k w.ofs20.toNat true = true → room w.guard →
    ∃ t, exec (.fcall w) s = .next t ∧ called w.guard true c.w k (fun _ => w.ofs20.toNat) t ∧
      ((c.members w.guard).isEmpty = false → k ∈ (t.block c.w.block).slots))

/-- The ends of threads (R31, R40, R256, R341): `exit` ends the admitted lanes, `ret` ends those at depth 0 and pops the top frame of the others,
whose return points are headers of the overlay that they name; an
ended thread stays as a helper while a thread of its quad lives. Where no thread of the block waits at a barrier nothing else changes. -/
def Obligations.ThreadsEnd : Prop := ∀ (s : State) (i : Issue), Group s i →
  let c := s.ctx i
  let th := (s.warp i.warp).thread
  let alive (ends : Nat → Bool) (l : Nat) : Bool := (quadOf l).any fun k => (th k).st.live && !ends k
  let state (ends : Nat → Bool) (l : Nat) : ThreadState :=
    if ends l || (th l).st == .helper then (if alive ends l then .helper else .exited) else (th l).st
  let pop (l : Nat) (x : Thread) : Thread :=
    let f := topFrame s c l
    { x with pc := ⟨f % 4, f / 4 % 8192⟩, blockEnd := f / 4 % 8192, depth := x.depth - 1
             rcp := if f.testBit 47 then some ⟨f / 2 ^ 32 % 4, f / 2 ^ 34 % 8192⟩ else none }
  (∀ k ∈ (s.block c.w.block).warps, ∀ x ∈ (s.warp k).threads, x.st ≠ .atBarrier) →
  (∀ w : WordV3, checkEncoding c (useOf (.exit w)) = .go →
    ∃ t, exec (.exit w) s = .next t ∧
      ThreadsNext s t i c.w (fun l x => { passed i 1 l x with st := state (fun k => (c.members w.guard).contains k) l })) ∧
  (∀ w : WordV3, checkEncoding c (useOf (.ret w)) = .go → staleReturns s c w.guard = [] → badReturns s c w.guard = [] →
    ∃ t, exec (.ret w) s = .next t ∧
      ThreadsNext s t i c.w (fun l x =>
        { (if (c.members w.guard).contains l && (th l).depth != 0 then pop l x else passed i 1 l x) with
          st := state (fun k => (c.members w.guard).contains k && (th k).depth == 0) l }))

/-- Barriers (R40, R333): the members of `bar` stand at the next instruction and wait; while a thread of the block that lives has not arrived,
nothing else happens; a complete barrier makes every thread that waits at it Active, and the `bar` by which the last thread arrives completes it at
once where no ordered reduction of the block is left to drain. -/
def Obligations.BarriersHoldAndRelease : Prop :=
  (∀ (s : State) (i : Issue) (w : WordV3), Group s i →
    let c := s.ctx i
    let n := w.md.toNat % 8
    checkEncoding c (useOf (.bar w)) = .go → (∀ l ∈ i.lanes, s.outstanding i.warp l = [] ∧ c.w.parkedReads l = []) →
    (∀ m, m ≠ n → ∀ k ∈ (s.block c.w.block).warps, ∀ x ∈ (s.warp k).threads, ¬ (x.st = .atBarrier ∧ x.bar = m)) →
    (∃ k ∈ (s.block c.w.block).warps, ∃ l, l < (s.warp k).threads.length ∧ (k = i.warp → l ∉ i.lanes) ∧
      (((s.warp k).thread l).st = .active ∨ ((s.warp k).thread l).st = .parked)) →
    ∃ t, exec (.bar w) s = .next t ∧
      ThreadsNext s t i c.w (fun l x => if i.lanes.contains l then { x.past 1 with st := .atBarrier, bar := n } else x)) ∧
  (∀ (s : State) (i : Issue) (w : WordV3), Group s i →
    let c := s.ctx i
    let n := w.md.toNat % 8
    let ws := (s.block c.w.block).warps
    checkEncoding c (useOf (.bar w)) = .go → (∀ l ∈ i.lanes, s.outstanding i.warp l = [] ∧ c.w.parkedReads l = []) → i.lanes ≠ [] → i.warp ∈ ws → ws.Nodup →
    (∀ k ∈ ws, ∀ l, l < (s.warp k).threads.length → ((s.warp k).thread l).st.live = true → ¬ (k = i.warp ∧ l ∈ i.lanes) →
      ((s.warp k).thread l).st = .atBarrier ∧ ((s.warp k).thread l).bar = n) →
    (∀ k ∈ ws, (s.warp k).red = [] ∧ (s.warp k).redLate = []) → (∀ m ∈ s.msgs, m.isDrain = false) →
    ∃ t, exec (.bar w) s = .next t ∧ t.issue = none ∧ t.mem = s.mem ∧ ∀ k ∈ ws, ∀ l, l < (s.warp k).threads.length →
      (t.warp k).thread l =
        let x := (s.warp k).thread l
        if k = i.warp ∧ l ∈ i.lanes then { x.past 1 with st := .active, bar := n }
        else if x.st = .atBarrier then { x with st := .active } else x) ∧
  (∀ (s : State) (bid n : Nat), n < 8 → (s.block bid).warps.Nodup → s.barrierMet (s.block bid) n = true →
    (∀ k ∈ (s.block bid).warps, (s.warp k).red = [] ∧ (s.warp k).redLate = []) → (∀ m ∈ s.msgs, m.isDrain = false) →
    (∀ k ∈ (s.block bid).warps, ∀ l, l < (s.warp k).threads.length → ((s.barriers bid).warp k).thread l =
      if ((s.warp k).thread l).st = .atBarrier then { (s.warp k).thread l with st := .active } else (s.warp k).thread l) ∧
    (s.barriers bid).mem = s.mem)

/-- Special registers, tile width, marks and sleep (R32, R102, R104, R318, R342, R343). A software clear of LSTAT leaves the bits that a late
result sets in the same core clock (R5, R61).

Single-lane moves (R319): `rdlane` writes its s register once, from lane k where that is present, and zero otherwise; `wrlane` writes lane k
alone, and only where it is an admitted member, and waits for no other lane's destination (log 83). -/
def Obligations.SpecialRegisters : Prop :=
  (∀ (s : State) (i : Issue), Group s i →
  let c := s.ctx i
  (∀ w : WordVI, laneChecks (useOf (.srd w)) w.guard (fun _ => .go) c = .go →
    let sel := w.imm24.toNat
    let n := if w.type3 = 3 then 2 else 1
    let admitted (l : Nat) : Bool := (c.members w.guard).contains l || (c.helpers w.guard).contains l
    let time (l : Nat) : Nat :=
      if sel = 0x10 then (s.viewTime c.g.part c.b.island false (s.itime c.b.island)).1
      else if sel = 0x11 then (s.viewTime c.g.part c.b.island true (s.isl c.b.island).ptime).1
      else specialReg s c sel l
    ∃ t, exec (.srd w) s = .next t ∧ t.mem = s.mem ∧ t.issue = none ∧
      (∀ l r, l < 32 → (t.warp i.warp).vreg l r =
        if admitted l ∧ w.dst.toNat ≤ r ∧ r < w.dst.toNat + n then
          ⟨BitVec.ofNat 32 (time l / 2 ^ (32 * (r - w.dst.toNat))), true, false⟩
        else (s.warp i.warp).vreg l r) ∧
      (∀ l, l < c.w.threads.length → (t.warp i.warp).thread l = passed i 1 l (c.w.thread l)) ∧
      ∀ k, k ≠ i.warp → t.warp k = s.warp k) ∧
  (∀ w : WordVI, laneChecks (useOf (.swr w)) w.guard (fun _ => .go) c = .go →
    let sel := w.imm24.toNat
    let n := if w.type3 = 3 then 2 else 1
    let on : Bool := !(c.members w.guard).isEmpty
    let v := readV c.w ((c.members w.guard).headD 0) w.sa.toNat n
    (sel = 0x04 → on = true → v = 2 ∨ v = 4 ∨ v = 8 ∨ v = 16 ∨ v = 32) →
    ∃ t, exec (.swr w) s = .next t ∧ State.onlyWarp t s i.warp ∧
      (t.warp i.warp).tilew = (if on ∧ sel = 0x04 then BitVec.ofNat 32 v else c.w.tilew) ∧
      (t.warp i.warp).mode = (if on ∧ sel = 0x18 then BitVec.ofNat 32 (v % 32) else c.w.mode) ∧
      (t.warp i.warp).srseed = (if on ∧ sel = 0x1C then BitVec.ofNat 64 v else c.w.srseed) ∧
      (∀ l, l < c.w.threads.length → ((t.warp i.warp).thread l).lstat =
        let f := (c.w.thread l).lstat
        let f := if (c.members w.guard).contains l ∧ sel = 0x19 then f &&& ~~~ (BitVec.ofNat 32 (readV c.w l w.sa.toNat 1) &&& ~~~ s.flagsNow i.warp l) else f
        if (c.members w.guard).contains l && readsDead s i (useOf (.swr w)) l then f ||| flagPoison else f) ∧
      (∀ l r, l < 32 → (t.warp i.warp).vreg l r =
        if i.lanes.contains l || i.helpers.contains l then markedV (useOf (.swr w)) r (c.w.vreg l r) else c.w.vreg l r) ∧
      { t.warp i.warp with v := c.w.v, threads := c.w.threads, tilew := c.w.tilew, mode := c.w.mode, srseed := c.w.srseed } = c.w) ∧
  (∀ w : WordVI, checkEncoding c (useOf (.tilew w)) = .go →
    ∃ t, exec (.tilew w) s = .next t ∧
      ThreadsNext s t i (if (c.members w.guard).isEmpty then c.w else { c.w with tilew := w.imm24.setWidth 32 }) (passed i 1)) ∧
  (∀ w : WordVI, checkEncoding c (useOf (.gmark w)) = .go →
    ∃ t, exec (.gmark w) s = .next t ∧
      ThreadsNext s t i (if (c.members w.guard).isEmpty then c.w else { c.w with mark := w.imm24 }) (passed i 1)) ∧
  (∀ w : WordVI, checkEncoding c (useOf (.sleep w)) = .go →
    ∃ t, exec (.sleep w) s = .next t ∧ ThreadsNext s t i c.w (fun l x =>
      if (c.members w.guard).contains l then { passed i 1 l x with wake := some (s.itime c.b.island + w.imm24.toNat) } else passed i 1 l x))) ∧
  (∀ (s : State) (i : Issue) (w : WordV3), Group s i →
  let c := s.ctx i
  let n := regsOf w.ty.toNat
  let k := w.sb.toNat
  let there : Bool := i.lanes.contains k || i.helpers.contains k
  (checkEncoding c (useOf (.rdlane w)) = .go → checkEmpty c (useOf (.rdlane w)) [] = .go → (there = true → isDead c.w k w.sa.toNat n = false) →
    ∃ t, exec (.rdlane w) s = .next t ∧
      ThreadsNext s t i (if (c.members w.guard).isEmpty then c.w.lastUse c (useOf (.rdlane w))
        else (c.w.lastUse c (useOf (.rdlane w))).writeS (w.dst.toNat % 64)
          (BitVec.ofNat 64 (if there then readV c.w k w.sa.toNat n else 0))) (passed i 1)) ∧
  (checkEncoding c (useOf (.wrlane w)) = .go → checkEmpty c (useOf (.wrlane w)) ((c.members w.guard).filter fun l => l == k) = .go →
    ∃ t, exec (.wrlane w) s = .next t ∧
      (∀ l r, l < 32 → (t.warp i.warp).vreg l r =
        if (c.members w.guard).contains k ∧ l = k ∧ w.dst.toNat ≤ r ∧ r < w.dst.toNat + n then
          ⟨(c.w.sreg (w.sa.toNat % 64)).extractLsb' (32 * (r - w.dst.toNat)) 32, true, false⟩
        else c.w.vreg l r) ∧
      (∀ l, l < c.w.threads.length → (t.warp i.warp).thread l = passed i 1 l (c.w.thread l)) ∧
      Warp.sameBut (t.warp i.warp) c.w ∧ State.onlyWarp t s i.warp))

/-- System registers (R196, R223, R344): `sysrd` writes the register that the selector names to its s register, once, where the q guard holds;
`syswr` of a privileged kernel writes COUNT, EVENT, DRAIN or PLAIN and leaves every other register of the system; where the q guard is false it falls
through. Any other selector, or a kernel without PRIV, stops the warp with ILLEGAL_ENCODING, whose report names no lane (log 87). -/
def Obligations.SystemRegisters : Prop := ∀ (s : State) (i : Issue) (w : WordS), Group s i →
  let c := s.ctx i
  let sel := w.imm32.toNat
  let isl := c.b.island
  let cix := coreIx isl c.b.core
  let v := (c.w.sreg w.sa.toNat).toNat
  (checkEncoding c (useOf (.sysrd w)) = .go → (c.g.priv = true ∨ ¬ (0x0210 ≤ sel ∧ sel ≤ 0x0212)) →
    (c.qOn w.guard = true → checkSources c (useOf (.sysrd w)) [] = .go) →
    ∃ t, exec (.sysrd w) s = .next t ∧
      ThreadsNext s t i (if c.qOn w.guard then c.w.writeS w.sd.toNat (BitVec.ofNat 64 (sysValue s c sel)) else c.w) (passed i 1)) ∧
  (checkEncoding c (useOf (.syswr w)) = .go → c.g.priv = true → ((0x0100 ≤ sel ∧ sel ≤ 0x0110) ∨ sel = 0x0211) → c.qOn w.guard = true →
    checkSources c (useOf (.syswr w)) [] = .go →
    ∃ t, exec (.syswr w) s = .next t ∧ t.mem = s.mem ∧ t.issue = none ∧
      (∀ l, l < c.w.threads.length → (t.warp i.warp).thread l = passed i 1 l (c.w.thread l)) ∧
      (cix < 2 ^ 30 → isl < 2 ^ 30 → ∀ r k, k < 2 ^ 40 → t.reg r k =
        if sel ≤ 0x0107 ∧ r = .corePmc ∧ k = eightIx cix (sel % 8) then v % 2 ^ 48
        else if 0x0108 ≤ sel ∧ sel ≤ 0x010F ∧ r = .corePmsel ∧ k = eightIx cix (sel % 8) then v % 2 ^ 8
        else if sel = 0x0110 ∧ r = .coreStat ∧ k = cix then v / 4 % 2
        else if sel = 0x0211 ∧ r = .islCohmode ∧ k = isl then v % 2
        else s.reg r k)) ∧
  (checkEncoding c (useOf (.syswr w)) = .go → c.g.priv = true → ((0x0100 ≤ sel ∧ sel ≤ 0x0110) ∨ sel = 0x0211) → c.qOn w.guard = false →
    ∃ t, exec (.syswr w) s = .next t ∧ ThreadsNext s t i c.w (passed i 1)) ∧
  (checkEncoding c (useOf (.sysrd w)) = .go → c.g.priv = false → 0x0210 ≤ sel → sel ≤ 0x0212 →
    exec (.sysrd w) s = .next (s.stopWarp i.warp 0x02 0 i.pc c.ovl 0 0)) ∧
  (checkEncoding c (useOf (.syswr w)) = .go → (c.g.priv = false ∨ ¬ ((0x0100 ≤ sel ∧ sel ≤ 0x0110) ∨ sel = 0x0211)) →
    exec (.syswr w) s = .next (s.stopWarp i.warp 0x02 0 i.pc c.ovl 0 0))

/-- TRAP and unassigned opcodes (R255, R343): `trap` with an admitted member stops the warp with class 0x60 and its number in INFO0, and only
falls through otherwise; a word with an unassigned opcode stops it with class 0x01, and its report names no lane (log 87). -/
def Obligations.TrapsStopTheWarp : Prop := ∀ (s : State) (i : Issue), Group s i →
  let c := s.ctx i
  (∀ w : WordVI, checkEncoding c (useOf (.trap w)) = .go → c.members w.guard ≠ [] →
    exec (.trap w) s = .next (s.stopWarp i.warp 0x60 (laneMask (c.members w.guard)) i.pc c.ovl w.imm24.toNat 0)) ∧
  (∀ w : WordVI, checkEncoding c (useOf (.trap w)) = .go → c.members w.guard = [] →
    ∃ t, exec (.trap w) s = .next t ∧ ThreadsNext s t i c.w (passed i 1)) ∧
  (∀ word, exec (.unassignedOpcode word) s = .next (s.stopWarp i.warp 0x01 0 i.pc c.ovl 0 0))

/-- A warp-stopping fault (R378, R380): the warp stops with every register as it stood, one record of kind W joins the island's records with the
panel time and the next record number of its posting (log 119), or waits while the on-chip buffer is full, and the grid ends with END 0x02, or with FHOLD is held with END 0x03; no other warp and no byte of memory changes.

Lane-contained faults (R105, R116): the lanes are switched off and WFAULT takes them; CODE and LANE stay those of the first fault, and MULTI
is set by one of the other class. -/
def Obligations.FaultsOfWarpsAndLanes : Prop :=
  (∀ (s : State) (wid cls lanes : Nat) (pc : PC) (ovl a b : Nat),
  let w := s.warp wid
  let bk := s.block w.block
  let g := s.grid bk.grid
  let t := s.stopWarp wid cls lanes pc ovl a b
  let r := warpRecord s w cls 2 lanes pc ovl a b 0
  t.issue = none ∧ t.mem = s.mem ∧ (t.warp wid).stopped = true ∧ (t.warp wid).restored = false ∧
  { t.warp wid with stopped := w.stopped, stopTrap := w.stopTrap, restored := w.restored } = w ∧
  (∀ k, k ≠ wid → t.warp k = s.warp k) ∧
  (let x := s.isl bk.island
   let y := t.isl bk.island
   if x.onchip.length < 64 ∧ x.waitPost = [] then ∃ q, y.onchip = x.onchip ++ [q] ∧ y.waitPost = [] ∧ y.seqNo = x.seqNo + 1 ∧ q.length = 8 ∧
     q.getD 5 0 = BitVec.ofNat 64 x.ptime ∧ q.getD 7 0 = BitVec.ofNat 64 (x.seqNo % 2 ^ 32) ∧ ∀ k, k ≠ 5 → k ≠ 7 → q.getD k 0 = r.getD k 0
   else y.onchip = x.onchip ∧ y.waitPost = x.waitPost ++ [r] ∧ y.seqNo = x.seqNo) ∧
  (g.endCode = 0 → (t.grid bk.grid).endCode = (if recBits g.record 0 46 46 = 1 then 3 else 2) ∧ (t.grid bk.grid).endClass = cls ∧
    (t.grid bk.grid).preempting = true) ∧
  (∀ k x, NMap.find? s.blocks k = some x → x.grid = bk.grid → (t.block k).halting = true) ∧
  (cls < 256 → bk.core < 256 → w.warpNo < 256 → (r.getD 0 0).toNat % 2 ^ 32 = cls + 2 * 2 ^ 8 + bk.core * 2 ^ 16 + w.warpNo * 2 ^ 24) ∧
  r.getD 3 0 = BitVec.ofNat 64 a ∧ r.getD 4 0 = BitVec.ofNat 64 b ∧ r.getD 6 0 = 0) ∧
  (∀ (w : Warp) (ls : List Nat) (cls : Nat) (pc : PC) (ovl : Nat),
  ls ≠ [] → ls.Nodup → (∀ l ∈ ls, l < 32 ∧ l < w.threads.length) → (cls = 0x20 ∨ cls = 0x21) →
  let x := w.switchOff ls cls pc ovl
  let f := w.wfault.toNat
  let g := x.wfault.toNat
  (∀ l, l < w.threads.length → x.thread l = if ls.contains l then { w.thread l with st := .switchedOff } else w.thread l) ∧
  (∀ l, l < 32 → g.testBit l = (f.testBit l || ls.contains l)) ∧
  (f % 2 ^ 32 = 0 → g / 2 ^ 32 % 256 = cls ∧ (∃ l ∈ ls, g / 2 ^ 40 % 32 = l ∧ ∀ k ∈ ls, l ≤ k) ∧ g.testBit 45 = false ∧ x.wfaultPc = pc ∧ x.wfaultOvl = ovl) ∧
  (f % 2 ^ 32 ≠ 0 → g / 2 ^ 32 % 256 = f / 2 ^ 32 % 256 ∧ g / 2 ^ 40 % 32 = f / 2 ^ 40 % 32 ∧
    g.testBit 45 = (f.testBit 45 || f / 2 ^ 32 % 256 != cls) ∧ x.wfaultPc = w.wfaultPc ∧ x.wfaultOvl = w.wfaultOvl) ∧
  { x with wfault := w.wfault, wfaultPc := w.wfaultPc, wfaultOvl := w.wfaultOvl, threads := w.threads } = w)

/-- Local loads (R109 to R114, R122, R320 to R322): members whose address leaves their space are switched off with SCRATCH_VIOLATION; in the others and in
following helpers the destination is empty until the record returns that holds the bytes read, zero for a helper outside its space, misaligned or whose dead index would trap (R31). A local access takes effect at its issue (log 93). No byte
of memory changes. An acquire of cluster or island scope then drops the core's REL words (R128).

Local stores (R109 to R114, R320, R324): members whose address leaves their space are switched off with SCRATCH_VIOLATION; each other member's bytes are
at its address, of several lanes that overlap the last wins, and every byte outside these addresses reads as before. The bytes are written at issue (log 93). -/
def Obligations.LocalLoadsStores : Prop :=
  (∀ (s : State) (i : Issue) (w : WordM) (ins : Instr) (sp : Space), Group s i →
  (ins = .ldl w ∧ sp = .slice) ∨ (ins = .lds w ∧ sp = .scratch) ∨ (ins = .ldc w ∧ sp = .cluster) ∨ (ins = .ldbm w ∧ sp = .berm) →
  let c := s.ctx i
  let u := useOf ins
  let n := 2 ^ w.size.toNat
  let addr (l : Nat) : Int := (readV c.w l w.index.toNat 1 : Int) + w.ofs.toInt * (n : Nat)
  let cell (l : Nat) : Option Nat := s.localCell c sp l (addr l) n
  let inside := (c.members w.guard).filter fun l => (cell l).isSome
  let out := (c.members w.guard).filter fun l => (cell l).isNone
  let lanes := inside ++ c.helpers w.guard
  let val (l : Nat) : Nat := if (c.helpers w.guard).contains l && c.poisoned u l then 0 else match cell l with
    | some p => if addr l % (n : Nat) = 0 then s.readMem p n else 0
    | none => 0
  let after := if inside = [] ∨ dropsRel w.order.toNat w.scope.toNat = false then s else s.dropRel c.b.island c.b.core
  laneChecks u w.guard (localRules s w.guard w.index.toNat w.ofs n 0) c = .go →
  ∃ t : State, exec ins s = .next (t.switchOff i.warp out 0x20 i.pc c.ovl).endIssue ∧
    (∀ l r, l < 32 → (t.warp i.warp).vreg l r =
      let x := laneReg s i w.guard u (fun _ => {}) (fun _ => {}) l r
      if lanes.contains l && w.data.toNat ≤ r && r < w.data.toNat + sizeRegs w.size.toNat then { x with full := false } else x) ∧
    (∀ l, l < c.w.threads.length → ((t.warp i.warp).thread l).pc = lanePc s i 1 l ∧ ((t.warp i.warp).thread l).st = (c.w.thread l).st) ∧
    (if lanes = [] then t.pend = s.pend
     else ∃ p, t.pend = s.pend ++ [p] ∧ p.id = s.fresh ∧ p.warp = i.warp ∧ p.kind = .load ∧ p.gen = c.w.gen.toNat ∧ s.clk + 24 ≤ p.due ∧
      p.writes = lanes.flatMap fun l => (List.range (max 1 (n / 4))).map fun k => (l, w.data.toNat + k, BitVec.ofNat 32 (val l / 2 ^ (32 * k)))) ∧
    { t with warps := s.warps, pend := s.pend, fresh := s.fresh } = after ∧ ∀ k, k ≠ i.warp → t.warp k = s.warp k) ∧
  (∀ (s : State) (i : Issue) (w : WordM) (ins : Instr) (sp : Space), Group s i →
  (ins = .stl w ∧ sp = .slice) ∨ (ins = .sts w ∧ sp = .scratch) ∨ (ins = .stc w ∧ sp = .cluster) ∨ (ins = .stbm w ∧ sp = .berm) →
  let c := s.ctx i
  let u := useOf ins
  let n := 2 ^ w.size.toNat
  let cell (l : Nat) : Option Nat := s.localCell c sp l ((readV c.w l w.index.toNat 1 : Int) + w.ofs.toInt * (n : Nat)) n
  let mem := c.members w.guard
  laneChecks u w.guard (localRules s w.guard w.index.toNat w.ofs n w.order.toNat) c = .go →
  ∃ t : State, exec ins s = .next (t.switchOff i.warp (mem.filter fun l => (cell l).isNone) 0x20 i.pc c.ovl).endIssue ∧
    (∀ l p, l ∈ mem → cell l = some p → (∀ k q, k ∈ mem → cell k = some q → k ≠ l → q + n ≤ p ∨ p + n ≤ q) →
      t.readMem p n = readV c.w l w.data.toNat (sizeRegs w.size.toNat) % 2 ^ (8 * n)) ∧
    (∀ a, (∀ l p, l ∈ mem → cell l = some p → a < p ∨ p + n ≤ a) → Memory.read t.mem a = Memory.read s.mem a) ∧
    (∀ l r, l < 32 → (t.warp i.warp).vreg l r = laneReg s i w.guard u (fun _ => {}) (fun _ => {}) l r) ∧
    (∀ l, l < c.w.threads.length → ((t.warp i.warp).thread l).pc = lanePc s i 1 l ∧ ((t.warp i.warp).thread l).st = (c.w.thread l).st) ∧
    (∀ k, k ≠ i.warp → Warp.sameBut (t.warp k) (s.warp k) ∧ (t.warp k).v = (s.warp k).v ∧ (t.warp k).threads = (s.warp k).threads) ∧
    { t with mem := s.mem, warps := s.warps } = s)

/-- Local atomics (R327, R328): members whose address leaves their space are switched off with SCRATCH_VIOLATION; the others' operations follow one another in
ascending order, and each result is the value its lane found. They take effect at issue (log 93).

The operations of R328 on integers and bit patterns of w bits, in the order of their lanes: add, minimum, maximum, and, or, exclusive or,
exchange and compare-and-swap. The bytes outside an operation's address stay. -/
def Obligations.LocalAtomics : Prop :=
  (∀ (s : State) (i : Issue) (w : WordMA) (ins : Instr) (sp : Space), Group s i →
  (ins = .atoms w ∧ sp = .scratch) ∨ (ins = .atomc w ∧ sp = .cluster) →
  let c := s.ctx i
  let u := useOf ins
  let n := 2 ^ w.size.toNat
  let r := regsOf w.atype.toNat
  let cell (l : Nat) : Option Nat := s.localCell c sp l ((readV c.w l w.index.toNat 1 : Int) + w.ofs.toInt * (n : Nat)) n
  let mem := (c.members w.guard).filter fun l => (cell l).isSome
  let hlp := if w.ret = 1 then c.helpers w.guard else []
  let rnd := if w.arnd.toNat = 6 then (if 6 ≤ c.w.mode.toNat % 8 then 0 else c.w.mode.toNat % 8) else w.arnd.toNat
  let op (l : Nat) : AtomOp := ⟨l, (cell l).getD 0, w.aop.toNat, w.atype.toNat, rnd, c.w.srseed.toNat,
    readV c.w l w.data.toNat r, if w.aop = 7 then readV c.w l w.cmp.toNat r else 0⟩
  let outs := runOps s.mem (mem.map op)
  laneChecks u w.guard (localRules s w.guard w.index.toNat w.ofs n w.order.toNat) c = .go →
  ∃ t : State, exec ins s = .next (t.switchOff i.warp ((c.members w.guard).filter fun l => (cell l).isNone) 0x20 i.pc c.ovl).endIssue ∧ t.mem = outs.1 ∧
    (∀ a, (∀ l p, l ∈ mem → cell l = some p → a < p ∨ p + (op l).bytes ≤ a) → Memory.read t.mem a = Memory.read s.mem a) ∧
    (∀ l, l < c.w.threads.length → ((t.warp i.warp).thread l).pc = lanePc s i 2 l ∧ ((t.warp i.warp).thread l).st = (c.w.thread l).st) ∧
    (if w.ret = 0 ∨ mem ++ hlp = [] then t.pend = s.pend
     else ∃ p, t.pend = s.pend ++ [p] ∧ p.warp = i.warp ∧ p.kind = .atomic ∧ s.clk + 24 ≤ p.due ∧
      p.writes = (outs.2.1.flatMap fun o => valueRegs o.1 w.res.toNat n o.2) ++ hlp.flatMap fun l => valueRegs l w.res.toNat n 0) ∧
    t.spans = (if mem = [] ∨ dropsRel w.order.toNat w.scope.toNat = false then s else s.dropRel c.b.island c.b.core).spans ∧
    ∀ k, k ≠ i.warp → Warp.sameBut (t.warp k) (s.warp k) ∧ (t.warp k).v = (s.warp k).v ∧ (t.warp k).threads = (s.warp k).threads) ∧
  ((∀ (o : AtomOp) (old : Nat), isF32or64 o.ty = false → o.aop ≤ 7 → o.new old =
    match o.aop with
    | 0 => some ((old + o.d) % 2 ^ (8 * o.bytes))
    | 1 => some (if readInt o.ty o.d < readInt o.ty old then o.d else old)
    | 2 => some (if readInt o.ty old < readInt o.ty o.d then o.d else old)
    | 3 => some (old &&& o.d)
    | 4 => some (old ||| o.d)
    | 5 => some (old ^^^ o.d)
    | 6 => some o.d
    | _ => if old = o.cmp then some o.d else none) ∧
  (∀ (m : List Host.Cell) (o : AtomOp) (os : List AtomOp),
    let old := valueOf (Memory.readN m o.pa o.bytes)
    (runOps m (o :: os)).2.1 = (o.lane, old) ::
      (runOps (match o.new old with | some v => Memory.writeN m o.pa (bytesOf o.bytes v) | none => m) os).2.1) ∧
  (∀ (m : List Host.Cell) (os : List AtomOp) (a : Nat), (∀ o ∈ os, a < o.pa ∨ o.pa + o.bytes ≤ a) →
    Memory.read (runOps m os).1 a = Memory.read m a) ∧
  (∀ (m : List Host.Cell) (os : List AtomOp), Memory.wf m = true → Memory.wf (runOps m os).1 = true))

/-- Global loads (R31, R83, R95, R131, R321 to R325): a load issues where no page stops the warp and no lane waits for an earlier event or for a write on
its way: the group moves on and no byte of memory changes. Each lane whose page answers has an outstanding record that will write its register, a lane of
`ldg.wait` whose ONCE words are not all written one of its own that stalls; a helper whose address breaks the rules, or whose dead index would trap, will receive zero; the destination is
empty. `sldg` makes one access for its admitted members, and none without one. -/
def Obligations.GlobalLoadsIssue : Prop := ∀ (s : State) (i : Issue), Group s i →
  let c := s.ctx i
  let moved (t : State) : Prop := t.mem = s.mem ∧ t.issue = none ∧
    ∀ l, l < c.w.threads.length → ((t.warp i.warp).thread l).pc = lanePc s i 1 l
  let record (t : State) (a : Access) (kind : PendKind) (l pa : Nat) : Prop :=
    ∃ p ∈ t.pend, p.warp = i.warp ∧ p.kind = kind ∧ p.gen = c.w.gen.toNat ∧ p.size = a.n ∧ p.dst = a.dst ∧ p.due = s.clk + 32 ∧
      ∃ x ∈ p.lanes, x.lane = l ∧ x.pa = pa
  (∀ (w : WordM) (wait : Bool), let ins : Instr := if wait then .ldgWait w else .ldg w
    let a := (accessM w (if wait then .loadWait else .load) 0 [] []).filled s c w.brec.toNat (argsM w false c) (c.zeroed w)
    let s1 := s.setWarp i.warp (globalWarp c (useOf ins) w.guard a 1 false)
    let rs := s1.resolveAll a a.lanes
    laneChecks (useOf ins) w.guard (globalRules s w.guard w.brec.toNat w.index.toNat w.ofs (2 ^ w.size.toNat)) c = .go → MayGo s1 a →
    ∃ t, exec ins s = .next t ∧ moved t ∧
      (∀ r ∈ rs.1, ∀ e pa, r.2 = .ok e pa → rs.2.helperZero a r = false →
        record t a (if wait ∧ leafType e = 2 ∧ (wordsOf pa a.n).all rs.2.written = false then .loadWait else .load) r.1.lane pa) ∧
      (∀ r ∈ rs.1, rs.2.helperZero a r = true → ∃ p ∈ t.pend, p.warp = i.warp ∧ (r.1.lane, w.data.toNat, 0#32) ∈ p.writes) ∧
      (∀ l ∈ c.helpers w.guard, c.poisoned (useLoad w true) l = true → ∃ p ∈ t.pend, p.warp = i.warp ∧ (l, w.data.toNat, 0#32) ∈ p.writes) ∧
      (∀ l r, l ∈ c.members w.guard → recOutside a.brec.toNat a.n ((readV c.w l w.index.toNat 1 : Int) + w.ofs.toInt) = false →
        w.data.toNat ≤ r → r < w.data.toNat + sizeRegs w.size.toNat → ((t.warp i.warp).vreg l r).full = false)) ∧
  (∀ w : WordM, let a := sldgAccess w s c
    let s1 := s.setWarp i.warp (sldgWarp w c a)
    sldgChecks w s c = .go →
    (c.members w.guard = [] → ∃ t, exec (.sldg w) s = .next t ∧ ThreadsNext s t i c.w (passed i 1)) ∧
    (c.members w.guard ≠ [] → MayGo s1 a →
      ∃ t, exec (.sldg w) s = .next t ∧ moved t ∧
        ∀ e pa, (s1.resolve a (sldgArg w c)).1 = .ok e pa →
          record t a .scalarLoad (sldgArg w c).lane pa ∧ w.data.toNat % 64 ∈ (t.warp i.warp).sEmpty))

/-- Global stores, atomics and reductions (R83, R128, R131, R135, R324, R327 to R329): one issues where no page stops the warp, no two lanes write one ONCE
word, and no lane waits for an earlier event: the group moves on, and no byte of memory changes, since what is written leaves in messages or stays in the
L1 until its home slice performs it. An ordered reduction enters the warp's buffer of 1,024 entries; where one finds it full the buffer is sent to the
slices, and what did not fit waits until that is applied. -/
def Obligations.GlobalWritesIssue : Prop := ∀ (s : State) (i : Issue), Group s i →
  let c := s.ctx i
  let moved (t : State) (len : Nat) : Prop := t.mem = s.mem ∧ t.issue = none ∧
    ∀ l, l < c.w.threads.length → ((t.warp i.warp).thread l).pc = lanePc s i len l
  (∀ w : WordM, let a := (accessM w .store 0 [] []).filled s c w.brec.toNat (argsM w true c) []
    laneChecks (useOf (.stg w)) w.guard (globalRules s w.guard w.brec.toNat w.index.toNat w.ofs (2 ^ w.size.toNat)) c = .go →
    MayGo (s.setWarp i.warp (globalWarp c (useOf (.stg w)) w.guard a 1 false)) a →
    ∃ t, exec (.stg w) s = .next t ∧ moved t 1) ∧
  (∀ (w : WordMA) (kind : AccKind) (ins : Instr),
    (kind = .atomic ∧ ins = .atom w) ∨ (kind = .red ∧ ins = .red w) ∨ (kind = .redOrd ∧ ins = .redOrd w) →
    let zero := if w.ret = 1 then c.helpers w.guard else []
    let a := (accessMA w kind 0 []).filled s c w.brec.toNat (argsMA w c) zero
    let s1 := s.setWarp i.warp (globalWarp c (useOf ins) w.guard a 2 true)
    laneChecks (useOf ins) w.guard (globalRules s w.guard w.brec.toNat w.index.toNat w.ofs (2 ^ w.size.toNat)) c = .go → MayGo s1 a →
    ∃ t, exec ins s = .next t ∧ moved t 2 ∧
      (kind = .redOrd → (∀ r ∈ (s1.resolveAll a a.lanes).1, ∃ e pa, r.2 = .ok e pa) →
        let own (es : List RedEntry) : List (Nat × Nat) := es.map fun e => (e.lane, e.value)
        let new := a.lanes.map fun x => (x.lane, x.data)
        let x := t.warp i.warp
        if a.lanes = [] then x.red = c.w.red ∧ x.redLate = c.w.redLate
        else if c.w.redLate = [] ∧ c.w.red.length + a.lanes.length ≤ 1024 then own x.red = own c.w.red ++ new ∧ x.redLate = []
        else x.red = [] ∧ own x.redLate = own c.w.redLate ++ (if c.w.redLate = [] then new.drop (1024 - c.w.red.length) else new)))

/-- The gauge's register instructions (R231, R232): each writes hd modulo 2⁶⁴, is charged once, and goes on at the next word. -/
def Obligations.GaugeArithmetic : Prop := ∀ (s : State) (d a b : BitVec 4) (i : BitVec 14) (k : BitVec 6),
  GaugeWrites s (.gaugeMov d a) d (fun r => r.get a) ∧
  GaugeWrites s (.gaugeLi d i) d (fun _ => (i.signExtend 64).toNat) ∧
  GaugeWrites s (.gaugeAdd d a b) d (fun r => r.get a + r.get b) ∧
  GaugeWrites s (.gaugeSub d a b) d (fun r => r.get a + 2 ^ 64 - r.get b) ∧
  GaugeWrites s (.gaugeAnd d a b) d (fun r => r.get a &&& r.get b) ∧
  GaugeWrites s (.gaugeOr d a b) d (fun r => r.get a ||| r.get b) ∧
  GaugeWrites s (.gaugeXor d a b) d (fun r => r.get a ^^^ r.get b) ∧
  GaugeWrites s (.gaugeAddi d a i) d (fun r => r.get a + (i.signExtend 64).toNat) ∧
  GaugeWrites s (.gaugeShl d a k) d (fun r => r.get a * 2 ^ k.toNat) ∧
  GaugeWrites s (.gaugeShr d a k) d (fun r => r.get a / 2 ^ k.toNat) ∧
  GaugeWrites s (.gaugeMin d a b) d (fun r => if r.get a ≤ r.get b then r.get a else r.get b) ∧
  GaugeWrites s (.gaugeClz d a) d (fun r => if r.get a = 0 then 64 else 63 - Nat.log2 (r.get a)) ∧
  GaugeWrites s (.gaugeHash d a i) d (fun r => mix64 (r.get a + i.toNat * 0x9E3779B97F4A7C15))

/-- The gauge's branches, triggers and end (R229, R232, R235): a taken branch goes to this word + imm; `ntfy`, `irq` and `frz` join the
run's triggers, which nothing performs before the run's end; `done` ends the run. -/
def Obligations.GaugeBranchesTriggers : Prop := ∀ (s : State) (a b : BitVec 4) (i : BitVec 14) (v : BitVec 8),
  GaugeMoves s .gaugeDone (fun r => r.pc + 1) (fun _ => []) true ∧
  GaugeMoves s (.gaugeBz a i) (fun r => if r.get a = 0 then r.pc + i.toNat else r.pc + 1) (fun _ => []) false ∧
  GaugeMoves s (.gaugeBnz a i) (fun r => if r.get a = 0 then r.pc + 1 else r.pc + i.toNat) (fun _ => []) false ∧
  GaugeMoves s (.gaugeBltu a b i) (fun r => if r.get a < r.get b then r.pc + i.toNat else r.pc + 1) (fun _ => []) false ∧
  GaugeMoves s (.gaugeNtfy a i) (fun r => r.pc + 1) (fun r => [.ntfy (r.get a) i.toNat]) false ∧
  GaugeMoves s (.gaugeIrq v) (fun r => r.pc + 1) (fun _ => [.irq v.toNat]) false ∧
  GaugeMoves s .gaugeFrz (fun r => r.pc + 1) (fun _ => [.frz]) false

/-- The gauge's memory instructions (R233, R234): an offset that is aligned and inside the window reaches its cell; any other access ends
the run with ABORT counted and nothing written.

The trace (R235, R236): a record goes to TRPOS of the ring at the window's end, which moves on modulo its length; while FROZEN is 1, or
TRLEN is 0 or above 4 × SIZE, `trc` writes nothing.

The charge of one executed gauge instruction (R239): LEFT of the run's partition and of each ancestor but partition 0 falls by one;
no other field and no other register changes. Offsets of histograms and sketches are taken modulo 2^64 (log 76). -/
def Obligations.GaugeMemory : Prop :=
  (∀ (s : State) (g : Nat) (r : GaugeRun) (d a b w : BitVec 4) (i : BitVec 14) (sh n : BitVec 6),
  s.activeGauge = some (g, r) →
  let ofs := (r.get a + 8 * i.toNat) % 2 ^ 64
  let v := r.get a / 2 ^ sh.toNat
  let bucket (log : Bool) : Nat :=
    min n.toNat (if log then (if v = 0 then 0 else Nat.log2 v + 1) else v)
  let hofs (log : Bool) : Nat := (r.get b + 4 * bucket log) % 2 ^ 64
  let hist (log : Bool) : Instr := if log then .histLog a b sh n else .histLin a b sh n
  let sofs (k : Nat) : Nat := (r.get b + 4 * (k * 2 ^ w.toNat + mix64 (r.get a + 0x9E3779B97F4A7C15 * (k + 1)) % 2 ^ w.toNat)) % 2 ^ 64
  (∀ p, windowCell (s.chargeGauge g r.part) g r.part ofs 8 8 p →
    (∃ t r', exec (.gaugeLd d a i) s = .next t ∧ GaugeNext s t g r r' false ∧ GaugeCharged s t g r ∧ t.mem = s.mem ∧ r'.pc = r.pc + 1 ∧
      r'.triggers = r.triggers ∧ ∀ k, r'.get k = if k = d then s.readMem p 8 else r.get k) ∧
    GaugeStores s (.gaugeSt a b i) g r [p] 8 (fun _ => r.get b) ∧
    GaugeStores s (.gaugeAcc a b i) g r [p] 8 (fun p => min (s.readMem p 8 + r.get b) (2 ^ 64 - 1))) ∧
  ((¬ ∃ p, windowCell (s.chargeGauge g r.part) g r.part ofs 8 8 p) →
    GaugeRefused s (.gaugeLd d a i) g r ∧ GaugeRefused s (.gaugeSt a b i) g r ∧ GaugeRefused s (.gaugeAcc a b i) g r) ∧
  (∀ log p, windowCell (s.chargeGauge g r.part) g r.part (hofs log) 4 4 p →
    GaugeStores s (hist log) g r [p] 4 (fun p => min (s.readMem p 4 + 1) (2 ^ 32 - 1))) ∧
  (∀ log, (¬ ∃ p, windowCell (s.chargeGauge g r.part) g r.part (hofs log) 4 4 p) → GaugeRefused s (hist log) g r) ∧
  (∀ p0 p1 p2 p3, windowCell (s.chargeGauge g r.part) g r.part (sofs 0) 4 4 p0 → windowCell (s.chargeGauge g r.part) g r.part (sofs 1) 4 4 p1 →
    windowCell (s.chargeGauge g r.part) g r.part (sofs 2) 4 4 p2 → windowCell (s.chargeGauge g r.part) g r.part (sofs 3) 4 4 p3 →
    GaugeStores s (.gaugeCms a b w) g r [p0, p1, p2, p3] 4 (fun p => min (s.readMem p 4 + 1) (2 ^ 32 - 1)) ∧
    ∃ t r', exec (.gaugeCmq d a b w) s = .next t ∧ GaugeNext s t g r r' false ∧ GaugeCharged s t g r ∧ t.mem = s.mem ∧ r'.pc = r.pc + 1 ∧
      r'.triggers = r.triggers ∧
      ∀ k, r'.get k = if k = d then min (min (s.readMem p0 4) (s.readMem p1 4)) (min (s.readMem p2 4) (s.readMem p3 4)) else r.get k) ∧
  ((∃ k, k < 4 ∧ ¬ ∃ p, windowCell (s.chargeGauge g r.part) g r.part (sofs k) 4 4 p) →
    GaugeRefused s (.gaugeCms a b w) g r ∧ GaugeRefused s (.gaugeCmq d a b w) g r)) ∧
  (∀ (s : State) (g : Nat) (r : GaugeRun) (a b : BitVec 4), s.activeGauge = some (g, r) →
  let ix := gaugeIx g r.part
  let c := s.chargeGauge g r.part
  let v := c.reg .tgpGwin ix
  let len := if 4 * bits v 14 8 < bits v 21 16 then 0 else 64 * bits v 21 16
  let p := gaugeAddr g (bits v 5 0 * 4096 + bits v 14 8 * 4096 - 16 * len + bits v 47 32 % len * 16)
  ∃ t r', exec (.gaugeTrc a b) s = .next t ∧ GaugeNext s t g r r' false ∧ r'.pc = r.pc + 1 ∧ r'.h = r.h ∧ r'.triggers = r.triggers ∧
    if bits v 24 24 = 1 ∨ len = 0 then t.mem = s.mem ∧ GaugeCharged s t g r
    else t.readMem p 8 = r.get a ∧ t.readMem (p + 8) 8 = r.get b ∧
      (∀ x, x < p ∨ p + 16 ≤ x → Memory.read t.mem x = Memory.read s.mem x) ∧
      t.regs = (c.setReg .tgpGwin ix (setBits v 47 32 ((bits v 47 32 + 1) % len))).regs) ∧
  (∀ (s : State) (g part : Nat), (s.charged part).Nodup → (∀ p ∈ s.charged part, gaugeIx g p < 2 ^ 40) →
  let t := s.chargeGauge g part
  { t with regs := s.regs } = s ∧ 0 ∉ s.charged part ∧
  (∀ p ∈ s.charged part, 1 ≤ bits (s.reg .tgpBud (gaugeIx g p)) 47 24 →
    t.reg .tgpBud (gaugeIx g p) = s.reg .tgpBud (gaugeIx g p) - 2 ^ 24) ∧
  ∀ (n : RegName) (k : Nat), k < 2 ^ 40 → (∀ p ∈ s.charged part, n = .tgpBud → k ≠ gaugeIx g p) → t.reg n k = s.reg n k)

/-- Cache controls and `ldrec` (R325, R326): `wb` leaves the core's copies of the named regions clean, `inv` leaves none, `pref` only asks;
what they send writes words back or asks for them, and no byte of memory changes at issue; helper lanes take part as in a load (R31). `ldrec` holds the group until its record of 16
bytes is written. -/
def Obligations.CacheControlsAndRecords : Prop := ∀ (s : State) (i : Issue) (w : WordM), Group s i →
  let c := s.ctx i
  let a := cacheAccess w s c
  let x := (s.setWarp i.warp ((c.sourced (useCache w) w.guard).advance i.lanes 1)).cachePages a c.b.island c.b.core c.g.asid []
    (a.lanes.filter fun x => !(x.helper && a.offGrid x))
  let named (r : SpanRec) : Prop := r.island = c.b.island ∧ r.core = c.b.core ∧
    regionOf (r.words.headD 0) ∈ x.1.map fun p => regionOf (p.1 / 4)
  let sends (t : State) (k : MsgKind) : Prop := ∀ m ∈ t.msgs, m ∈ s.msgs ∨ (m.kind = k ∧ m.island = c.b.island ∧ m.core = c.b.core) ∨
    (a.outside ≠ [] ∧ m.kind = .drain)
  let done (t : State) : Prop := MovedOn s t i 1 ∧ t.mem = s.mem
  (laneChecks (useCache w) w.guard (cacheRules w s) c = .go →
    (∃ t, exec (.wb w) s = .next t ∧ done t ∧ sends t .wback ∧ ∀ r ∈ t.spans, named r → r.dirty = []) ∧
    (∃ t, exec (.inv w) s = .next t ∧ done t ∧ sends t .wback ∧ ∀ r ∈ t.spans, r ∈ s.spans ∧ ¬ named r) ∧
    (∃ t, exec (.pref w) s = .next t ∧ done t ∧ sends t .gets ∧ t.spans = s.spans)) ∧
  (ldrecChecks w s c = .go → c.members w.guard ≠ [] → ∀ p, s.localCell c .scratch 0 (ldrecAddr w c) 16 = some p →
    ∃ t q, exec (.ldrec w) s = .next t ∧ done t ∧ t.pend = s.pend ++ [q] ∧ q.id = s.fresh ∧ q.warp = i.warp ∧ q.kind = .ldrec ∧
      q.gen = c.w.gen.toNat ∧ q.dst = w.data.toNat % 32 ∧ q.brec = BitVec.ofNat 128 (s.readMem p 16) ∧ q.due = s.clk + 24 ∧
      (∀ l ∈ i.lanes, s.fresh ∈ ((t.warp i.warp).thread l).hold) ∧ (t.warp i.warp).b = c.w.b) ∧
  (ldrecChecks w s c = .go → c.members w.guard = [] → ∃ t, exec (.ldrec w) s = .next t ∧ MovedOn s t i 1 ∧ State.onlyWarp t s i.warp)

/-- Fences and flushes (R330 to R332, R334): each completes once what it waits for is performed; a fence of cluster or island scope that
acquires drops the core's REL words, `redflush` empties the warp's reduction buffer, and `redflush` and `fence.fetch` hold their group. -/
def Obligations.FencesAndFlushes : Prop := ∀ (s : State) (i : Issue) (w : WordM) (v : WordV3), Group s i →
  let c := s.ctx i
  (checkEncoding c (useFence w) = .go →
    (∀ l ∈ c.members w.guard, (∀ m ∈ s.outstanding i.warp l, w.order.toNat = 0 ∨ (w.order.toNat = 1 ∧ m.isRead = false)) ∧
      (w.order.toNat = 0 ∨ c.w.parkedReads l = [])) →
    ∃ t, exec (.fence w) s = .next t ∧ MovedOn s t i 1 ∧ t.mem = s.mem ∧
      (c.members w.guard ≠ [] → (w.order.toNat = 1 ∨ w.order.toNat = 3) → 2 ≤ w.scope.toNat →
        ∀ r ∈ t.spans, r ∈ s.spans ∧ ¬ (r.island = c.b.island ∧ r.core = c.b.core ∧ r.st = .sh ∧ r.ptype = 1))) ∧
  (checkEncoding c (useUnguarded v) = .go →
    (∃ t, exec (.redflush v) s = .next t ∧ MovedOn s t i 1 ∧ t.mem = s.mem ∧ (t.warp i.warp).red = [] ∧
      ∀ m ∈ t.msgs, m.isDrain = true → m.warp = i.warp → ∀ l ∈ i.lanes, m.id ∈ ((t.warp i.warp).thread l).hold) ∧
    (∃ t, exec (.fenceFetch v) s = .next t ∧ MovedOn s t i 1 ∧ State.onlyWarp t s i.warp ∧
      ∀ q ∈ c.w.fq, q.op = 0xE9 → ∀ l ∈ i.lanes, q.id ∈ ((t.warp i.warp).thread l).hold) ∧
    ((∀ l ∈ i.lanes, ∀ k ∈ tileOf c.w l, (c.w.thread k).st.live = true → k ∈ i.lanes) →
      (∀ l ∈ i.lanes, s.outstanding i.warp l = [] ∧ c.w.parkedReads l = []) →
      ∃ t, exec (.fenceLanes v) s = .next t ∧ MovedOn s t i 1 ∧ State.onlyWarp t s i.warp))

/-- Engine commands (R191, R192, R345, R346): one that passes its checks joins the end of its queue with the values its s and b registers
hold, unless its guard slot decides against it; the group moves on past its two words. -/
def Obligations.EngineCommandsIssue : Prop := ∀ (s : State) (i : Issue) (w : WordE) (ins : Instr) (op : Nat) (rules : Ctx → List Nat → Check),
  Group s i →
  (ins = .wbload w ∧ op = 0xD0 ∧ rules = wbloadRules w) ∨ (ins = .mloop w ∧ op = 0xD1 ∧ rules = mloopRules w) ∨
  (ins = .mloopc w ∧ op = 0xD2 ∧ rules = mloopcRules w) ∨ (ins = .wbzero w ∧ op = 0xD6 ∧ rules = wbzeroRules w) ∨
  (ins = .put w ∧ op = 0xE0 ∧ rules = putRules w) ∨ (ins = .get w ∧ op = 0xE1 ∧ rules = getRules w) ∨
  (ins = .ratom w ∧ op = 0xE2 ∧ rules = ratomRules w) ∨ (ins = .notify w ∧ op = 0xE5 ∧ rules = notifyRules w) ∨
  (ins = .xfill w ∧ op = 0xE8 ∧ rules = xfillRules w) ∨ (ins = .ovld w ∧ op = 0xE9 ∧ rules = ovldRules w) ∨
  (ins = .onceinit w ∧ op = 0xEA ∧ rules = onceinitRules w) ∨ (ins = .launch w ∧ op = 0xEB ∧ rules = launchRules w) →
  let c := s.ctx i
  let q := queueOf op
  let decided : Option Bool := if w.ge = 0 then some true else match c.w.guard w.gslot.toNat with
    | .isTrue => some (w.xf == 0)
    | .isFalse => some (w.xf != 0)
    | _ => none
  engineChecks w op (useOf ins) rules c = .go →
  ∃ t, exec ins s = .next t ∧ MovedOn s t i 2 ∧ t.mem = s.mem ∧ (t.warp i.warp).v = c.w.v ∧ (t.warp i.warp).s = c.w.s ∧
    (decided = some false → ∀ k, k < 3 → (t.warp i.warp).queue k = (c.w.queue k).filter fun x => x.id != s.fresh) ∧
    (decided ≠ some false → ∃ cmd : Cmd,
      cmd.id = s.fresh ∧ cmd.op = op ∧ cmd.w = w ∧ cmd.sv = engineVals w c ∧ cmd.decided = decided ∧ cmd.running = false ∧ cmd.pc = i.pc ∧
      cmd.brec = c.w.bufRec (bits w.ext.toNat 4 0) ∧ cmd.brec2 = c.w.bufRec (bits w.ext.toNat 9 5) ∧
      (∀ k, k < 3 → (t.warp i.warp).queue k = if k = q then c.w.queue k ++ [cmd] else c.w.queue k) ∧
      (t.warp i.warp).sEmpty = (if op = 0xE2 ∧ bits w.ext.toNat 6 6 = 1 then c.w.sEmpty ++ [bits w.ext.toNat 5 0] else c.w.sEmpty) ∧
      { t with warps := s.warps, issue := s.issue, fresh := s.fresh, draw := s.draw } = s ∧ ∀ k, k ≠ i.warp → t.warp k = s.warp k)

/-- Tile instructions (R351): `accrd` reads COUNT rows of a tile, column (8·COLQ + lane) mod 32, into later results; `accwr` writes them
exactly; `acczero` clears the tile, or the pair for binary64. No other byte of memory changes. A signalling NaN sets FINV (R58). -/
def Obligations.TileInstructions : Prop := ∀ (s : State) (i : Issue) (w : WordV4) (v : WordV3), Group s i →
  let c := s.ctx i
  let ty := w.ty.toNat
  let f64 := ty == 5
  let imm := w.imm32.toNat
  let n := bits imm 9 5 + 1
  let r := if is64 ty then 2 else 1
  let row (k : Nat) : Nat := bits imm 4 0 + k
  let col (l : Nat) : Nat := (8 * bits imm 11 10 + l) % 32
  let mem := c.members w.guard
  let value (l k : Nat) : FVal := fdecode ty (readV c.w l (w.sa.toNat + r * k) r) (mdFtz w.md)
  let stored (l k : Nat) : Nat := (fround (value l k) (if f64 then 5 else 4) 0 false false 0).1
  let read (l k : Nat) : Nat × BitVec 32 :=
    let v := fdecode (if f64 then 5 else 4) (s.tileElem c.b c.w f64 w.sa.toNat (row k) (col l)) (mdFtz w.md)
    c.round ty w.md l 0 (v, v.sigFlag)
  ((checkEncoding c (useAccrd w)).andThen ((checkSources c (useAccrd w) mem).andThen (tileRules s w.guard ty w.sa.toNat c)) = .go →
    ∃ t, exec (.accrd w) s = .next t ∧ MovedOn s t i 2 ∧ t.mem = s.mem ∧
      (∀ l x, l ∈ mem → w.dst.toNat ≤ x → x < w.dst.toNat + r * n → ((t.warp i.warp).vreg l x).full = false) ∧
      (mem ≠ [] → ∃ p, t.pend = s.pend ++ [p] ∧ p.warp = i.warp ∧ p.kind = .accrd ∧ p.gen = c.w.gen.toNat ∧ p.due = s.clk + 8 + r * n ∧
        p.flags = mem.map (fun l => (l, (List.range n).foldl (fun f k => f ||| (read l k).2) 0)) ∧
        p.writes = mem.flatMap fun l => (List.range n).flatMap fun k => (List.range r).map fun j =>
          (l, w.dst.toNat + r * k + j, BitVec.ofNat 32 ((read l k).1 / 2 ^ (32 * j))))) ∧
  (laneChecks (useAccwr w) w.guard (tileRules s w.guard ty w.dst.toNat) c = .go →
    ∃ t, exec (.accwr w) s = .next t ∧ MovedOn s t i 2 ∧
      (∀ l, l < c.w.threads.length → ((t.warp i.warp).thread l).lstat = laneFlags s i w.guard (readsDead s i (useAccwr w))
        (fun l => { flags := (List.range n).foldl (fun f k => f ||| (value l k).sigFlag) 0 }) l) ∧
      (∀ l k, l ∈ mem → k < n → f64 = false → t.readMem (tileAddr c.b c.w w.dst.toNat (row k) (col l)) 4 = stored l k % 2 ^ 32) ∧
      (∀ l k, l ∈ mem → k < n → f64 = true → c.w.acc.getD w.dst.toNat 0 ≠ c.w.acc.getD (w.dst.toNat + 1) 0 →
        t.tileElem c.b c.w true w.dst.toNat (row k) (col l) = stored l k % 2 ^ 64) ∧
      ∀ a, (∀ l k y, l ∈ mem → k < n → y ∈ tilePair ty w.dst.toNat → let p := tileAddr c.b c.w y (row k) (col l)
        a < p ∨ p + 4 ≤ a) → Memory.read t.mem a = Memory.read s.mem a) ∧
  ((checkEncoding c (useAcczero v)).andThen (tileRules s v.guard v.ty.toNat v.dst.toNat c) = .go →
    ∃ t, exec (.acczero v) s = .next t ∧ MovedOn s t i 1 ∧ ∀ a, Memory.read t.mem a =
      if c.members v.guard ≠ [] ∧ ∃ y ∈ tilePair v.ty.toNat v.dst.toNat, tileAddr c.b c.w y 0 0 ≤ a ∧ a < tileAddr c.b c.w y 0 0 + 4096
      then 0 else Memory.read s.mem a)

/-- Guard slots (R192, R370): `garm` makes a slot pending under a new arming; `gset` decides it, and with it every command that waits on that
arming; where no member is admitted neither does anything. On a slot that is pending, or is not, they raise GUARD_INVALID (0x50), whatever the guard
admits (R256); the report names no lane (log 87).

`keymap` (R177, R372): 32 core clocks later each admitted lane holds the owner of its key on the ring of the partition's cores, or of the
job's ranks: the least point at or above the key's hash, else the least of all, else 0xFFFF_FFFF.

Arrival counters (R213 to R216, R368): where the counter's page answers, `arm` sends its change of TARGET to the home slice and `waitarr`
leaves its group standing at the counter; the answer of an `arm` on a SEQ page drops the core's REL words (R78). Where the page is absent or refused the
group's lanes park (log 29); the low 48 bits of the s register are the address (log 28); where the q guard does not hold nothing but the PC changes. -/
def Obligations.GuardSlots : Prop :=
  (∀ (s : State) (i : Issue) (w : WordV3), Group s i →
  let c := s.ctx i
  let k := w.dst.toNat % 16
  let a := w.sa.toNat
  let v (r : Nat) : Int := readInt w.ty.toNat (c.w.sreg (r % 64)).toNat
  let value : Bool :=
    if w.md.toNat % 8 = 0 then readPred c.w.q (a % 8)
    else if w.md.toNat % 8 = 1 then (c.members w.guard).any fun l => readPred (c.w.thread l).p (a % 8)
    else if w.md.toNat % 8 = 2 then (c.members w.guard).all fun l => readPred (c.w.thread l).p (a % 8)
    else relation (w.md.toNat / 64) (v a) (v w.sb.toNat)
  (checkEncoding c (useOf (.garm w)) = .go → c.w.guard k = .pending → exec (.garm w) s = .next (s.stopWarp i.warp 0x50 0 i.pc c.ovl 0 0)) ∧
  (checkEncoding c (useOf (.gset w)) = .go → checkSources c (useOf (.gset w)) [] = .go → (∀ l ∈ i.lanes, c.w.parkedReads l = []) →
    c.w.guard k ≠ .pending → exec (.gset w) s = .next (s.stopWarp i.warp 0x50 0 i.pc c.ovl 0 0)) ∧
  (garmChecks w c = .go → ∃ t, exec (.garm w) s = .next t ∧ MovedOn s t i 1 ∧ State.onlyWarp t s i.warp ∧
    (∀ j, (t.warp i.warp).guard j = if j = k ∧ c.members w.guard ≠ [] then .pending else c.w.guard j) ∧
    (c.members w.guard ≠ [] → NMap.getD (t.warp i.warp).gArm k 0 = NMap.getD c.w.gArm k 0 + 1)) ∧
  (gsetChecks w c = .go → ∃ t, exec (.gset w) s = .next t ∧ MovedOn s t i 1 ∧ t.mem = s.mem ∧
    (t.warp i.warp).v = c.w.v ∧ (t.warp i.warp).s = c.w.s ∧
    (∀ j, (t.warp i.warp).guard j = if j = k ∧ c.members w.guard ≠ [] then (if value = true then GuardState.isTrue else GuardState.isFalse) else c.w.guard j) ∧
    (c.members w.guard ≠ [] → ∀ cmd ∈ (t.warp i.warp).mq ++ (t.warp i.warp).xq ++ (t.warp i.warp).fq,
      ¬ (cmd.w.ge = 1 ∧ cmd.w.gslot.toNat = k ∧ cmd.arm = NMap.getD c.w.gArm k 0 ∧ cmd.decided = none)))) ∧
  (∀ (s : State) (i : Issue) (w : WordV3),
  LateRuns s i (.keymap w) w.guard 1 .keymap (fun _ => .go) (fun _ => 32) fun c _ xs =>
    outV w.dst.toNat 1 (ringOwner (if w.md.toNat % 8 = 0 then s.coreRing c.g.part c.b.island else s.rankRing (recJob c.g.record)) (argN xs 0))) ∧
  (∀ (s : State) (i : Issue) (w : WordS), Group s i →
  let c := s.ctx i
  let va := (c.w.sreg w.sa.toNat).toNat % 2 ^ 48
  (counterChecks w (useArm w) true s c = .go → c.qOn w.guard = true → ∀ pa leaf, (s.counterAt i.warp va true).1 = .ok pa leaf →
    ∃ t m, exec (.arm w) s = .next t ∧ MovedOn s t i 1 ∧ t.mem = s.mem ∧ t.msgs = s.msgs ++ [m] ∧ m.kind = .atom ∧ m.warp = i.warp ∧
      m.lanes = i.lanes ∧ m.words = wordsOf (pa + 8) 8 ∧
      m.ops = [⟨i.lanes.headD 0, pa + 8, if w.sd = 1 then 10 else 9, 3, 0, 0, yOf w c.w, 0⟩] ∧
      (leafType leaf = 0 → ∃ p ∈ t.pend, p.waiting = [m.id] ∧ p.drops = true ∧ m.asker = some p.id)) ∧
  (counterChecks w (useWaitarr w) false s c = .go → c.qOn w.guard = true → ∀ pa leaf, (s.counterAt i.warp va false).1 = .ok pa leaf →
    ∃ t x, exec (.waitarr w) s = .next t ∧ t.issue = none ∧ t.mem = s.mem ∧ t.waits = s.waits ++ [x] ∧ x.warp = i.warp ∧ x.lanes = i.lanes ∧
      x.pa = pa ∧ x.pc = i.pc ∧ ∀ l ∈ i.lanes, ((t.warp i.warp).thread l).pc = i.pc ∧ x.id ∈ ((t.warp i.warp).thread l).hold) ∧
  (∀ (ins : Instr) (u : Usage) (write : Bool), (ins = .arm w ∧ u = useArm w ∧ write = true) ∨ (ins = .waitarr w ∧ u = useWaitarr w ∧ write = false) →
    counterChecks w u write s c = .go →
    (c.qOn w.guard = true → ∀ cls, (s.counterAt i.warp va write).1 = .fault cls →
      ∃ t, exec ins s = .next t ∧ MovedOn s t i 1 ∧ t.mem = s.mem ∧ ∀ l ∈ i.lanes, ((t.warp i.warp).thread l).st = .parked) ∧
    (c.qOn w.guard = false → ∃ t, exec ins s = .next t ∧ MovedOn s t i 1 ∧ State.onlyWarp t s i.warp)))

/-- What reset leaves (R5, R92, R126, R196, R204, R388 to R394, R410, R411): nothing resident or in flight, and every register reads as the Reset
column of its table prints it; ISL_COHMODE.PLAIN alone reads 0 where its column prints 1, since State.reset stands after stage 3 (log 8). -/
def Obligations.ResetState : Prop :=
  let rd := State.reset.readReg
  (∀ r i, State.reset.reg r i = regReset r i) ∧
  (∀ i, rd .islLease i = 0x40011004 ∧ rd .optFocfg i = 0x00321445 ∧ rd .hbmErr i = 2 ^ 48 ∧ rd .pwrIsl i = 1100 + 2000 * 2 ^ 22 ∧ rd .pwrPanel i = 2800 ∧
    rd .islCohmode i = 0 ∧ rd .partBud i = 0xFFFFFFFF + 2 ^ 32 ∧ rd .partTok i = 0xFFFFFFFF ∧ rd .startStat i % 64 = 3 ∧ rd .lkpTupd i % 2 ^ 32 = 0 ∧
    rd .clkStat i / 2 ^ 8 % 2 ^ 24 = 1 ∧ rd .coreStat i / 4 % 2 ^ 53 = 64 * 2 ^ 22 + 4096 * 2 ^ 30 + 16 * 2 ^ 46 ∧
    (rd .optPstat i % 8 = 1 → rd .optPstat i / 2 ^ 4 = 0xFF + 8 * 2 ^ 12 + 2 ^ 16 + 128 * 2 ^ 20 + 64 * 2 ^ 28)) ∧
  (∀ p, rd .partCfg p = if p = 0 then 1 else 0) ∧ (∀ p n, n < 32 → rd .partSlice (32 * p + n) = if p = 0 then 0xFFFFF else 0) ∧
  (∀ p g, p < 128 → rd .tgpBud (128 * g + p) = if p = 0 then 0xFFFFFFFFFFFF else 0) ∧
  (∀ i, ∀ r ∈ [RegName.lkpQbase, .lkpQtail, .lkpQhead, .lkpQctl, .lkpGridctl, .lkpTstage, .mapkRqbase, .mapkRqtail, .mapkRqhead, .islNctr, .corePmc, .islPmc,
    .corePmsel, .islPmsel, .tgpAtt, .tgpAdrop, .tgpGwin, .tgpScnt, .islFqbase, .islFqtail, .islFqhead, .islFqstat, .islReplay, .partShare, .partToff,
    .startCtl], rd r i = 0) ∧ State.reset.issue = none ∧ State.reset.activeGauge = none ∧
  (∀ w, State.reset.warp w = Warp.absent) ∧ (∀ b, State.reset.block b = Block.absent) ∧ (∀ g, State.reset.grid g = Grid.absent) ∧
  (∀ b n p e acc gr w l, let x := Warp.start b n p w e acc gr
    l < w → (x.thread l).st = .active ∧ (x.thread l).pc = e ∧ (x.thread l).p = 0 ∧ (x.thread l).lstat = 0 ∧ x.tilew = 32 ∧ x.mode = 0 ∧
      x.srseed = 0 ∧ x.mark = 0 ∧ x.wfault = 0)

/-- Reset memory has the canonical form.
What an unlisted byte reads as is the model's choice (log 3). -/
def Obligations.ResetMemoryCanonical : Prop := MemOk State.reset

/-- Every step keeps memory in its canonical form: strictly rising addresses, no listed byte equal to what an unlisted address reads as.
What an unlisted byte reads as is the model's choice (log 3). -/
def Obligations.StepKeepsMemoryCanonical : Prop := ∀ s t : State, MemOk s → step s = .next t → MemOk t

/-- A gauge run is isolated (R225, R231, R233, R236): one step of it changes gauges, registers and that gauge's own memory only; nothing of a
warp, block, grid, message or cache, and no byte outside the gauge's memories, changes; and of the registers only those of the gauges. -/
def Obligations.GaugeRunIsolated : Prop := ∀ (s t : State) (g : Nat) (r : GaugeRun), s.activeGauge = some (g, r) → step s = .next t →
  { t with gauges := s.gauges, regs := s.regs, mem := s.mem } = s ∧
  (∀ k, k ≠ g → t.gauge k = s.gauge k) ∧
  (∀ a, a < gaugeAddr g 0 ∨ gaugeAddr (g + 1) 0 ≤ a → Memory.read t.mem a = Memory.read s.mem a) ∧
  ∀ (n : RegName) (k : Nat), k < 2 ^ 40 → gaugeIx g r.part < 2 ^ 40 → gaugeIx g r.att < 2 ^ 40 → (∀ p ∈ s.charged r.part, gaugeIx g p < 2 ^ 40) →
    n ≠ .tgpBud → n ≠ .tgpAdrop → n ≠ .tgpGwin → t.reg n k = s.reg n k

/-- A step runs the decoded instruction (R231, R240, R256, R397): the word at a gauge run's place; else the word, or two words, at the PC of the
group in progress, inside its block. A word that no instruction of the block begins stops the warp with ILLEGAL_ENCODING. Where neither is in progress the step is
one of the panel's own options, or the input at the head of the inputs: an event, a write through a partition's window, which takes effect only where
R397 lets it, or bytes stored into LPDDR6; which of them is the model's free choice (log 12). That a stop of the decoder names no lane is log 87. -/
def Obligations.StepRunsDecoded : Prop :=
  (∀ s g r i, s.activeGauge = some (g, r) → decodeGauge (BitVec.ofNat 32 (s.readMem (gaugeProgAddr g r.pc) 4)) = .ok i → step s = exec i s) ∧
  (∀ s i ins rest, s.activeGauge = none → s.issue = some i → decode (s.fetchBytes i) = .ok (ins, rest) →
    let b := s.block (s.warp i.warp).block
    s.fetchBytes i = Memory.readN s.mem (slotAddr b.island b.core i.pc.slot i.pc.ofs) 16 ∧
    let words := if rest = [] then 2 else 1
    (i.pc.ofs + words ≤ s.blockLimit i → step s = exec ins s) ∧
    (s.blockLimit i < i.pc.ofs + words → step s = .next (s.stopWarp i.warp 0x02 0 i.pc (s.ctx i).ovl 0 0))) ∧
  (∀ s i e, s.activeGauge = none → s.issue = some i → decode (s.fetchBytes i) = .error e →
    step s = .next (s.stopWarp i.warp 0x02 0 i.pc (s.ctx i).ovl 0 0)) ∧
  (∀ s, s.activeGauge = none → s.issue = none → s.inputs = [] → ∀ f, options s = [f] → step s = f s) ∧
  (∀ s, s.activeGauge = none → s.issue = none → s.inputs = [] → 1 < (options s).length → ∃ f ∈ options s, step s = f s.free.2) ∧
  (∀ s i rest, s.activeGauge = none → s.issue = none → s.inputs = i :: rest →
    if s.free.1 % ((options s).length + 1) = (options s).length then
      let s1 : State := { s.free.2 with inputs := rest }
      match i with
      | .event e => step s = exec e s1
      | .window p e => step s = match s1.throughWindow p e with
        | some e => exec e s1
        | none => .next s1
      | .lpddr a bs => ∃ t, step s = .next t ∧ { t with mem := s.mem } = s1 ∧ (∀ x, Memory.read t.mem x =
          if lpddrAddr a ≤ x ∧ x < lpddrAddr a + bs.length ∧ x < lpddrAddr (2 ^ 37) then bs.getD (x - lpddrAddr a) 0 else Memory.read s.mem x)
    else ∃ f ∈ options s, step s = f s.free.2)

/-- Words written out from the encodings of R232 and R245 to R253 decode to their instructions, with the bytes that follow left over. -/
def Obligations.WordsDecode : Prop := ∀ rest : List Byte,
  decode (bytesOf 8 0x0570040040FFFFFD ++ rest) = .ok (.iaddi ⟨7, 2, 1, 0, 0, 0xFFFFFD⟩, rest) ∧
  decode (bytesOf 8 0x40A01402004C4800 ++ rest) = .ok (.fadd ⟨10, 10, 8, 9, 4, 2, 4, 0⟩, rest) ∧
  decode (bytesOf 8 0x3071450100000001 ++ rest) = .ok (.sadd ⟨7, 5, 5, 0, 1, 1⟩, rest) ∧
  decode (bytesOf 8 0x17700C0040101E00 ++ bytesOf 8 0x00600000000000E8 ++ rest) =
    .ok (.lut3 ⟨7, 6, 1, 2, 0, 0, 15, 0, 3, 0, 0, 0xE8⟩, rest) ∧
  decode (bytesOf 8 0xB870000000000003 ++ rest) = .ok (.bar ⟨7, 0, 0, 0, 0, 0, 0, 3⟩, rest) ∧
  decode (bytesOf 8 0xC01FFFFD00000000 ++ rest) = .ok (.br ⟨1, 0xFFFFD, 0, 0⟩, rest) ∧
  decodeGauge 0x4401128F = .ok (.histLog 0 4 10 15) ∧ decodeGauge 0x50180003 = .ok (.gaugeBz 6 3) ∧ decodeGauge 0 = .ok .gaugeDone

/-- Umavi encoding and decoding agree (R240, R245 to R255): the words of every well-formed instruction, every operand at every value, decode
to it with the bytes that follow left over; and what a decoded instruction encodes to are the bytes it was read from.

Gauge encoding and decoding agree (R232): the word of every gauge instruction decodes to it, and a word that decodes is the word of its
instruction, so that no field of it is dropped. -/
def Obligations.EncodeDecodeAgree : Prop :=
  ((∀ (i : Instr) (rest : List Byte), i.WellFormed → (∃ x, encode i = some (.one x)) ∨ (∃ x y, encode i = some (.two x y)) →
    decode (encodeBytes i ++ rest) = .ok (i, rest)) ∧
  ∀ (bs rest : List Byte) (i : Instr), decode bs = .ok (i, rest) → encodeBytes i ++ rest = bs) ∧
  (∀ (i : Instr) (w : BitVec 32), decodeGauge w = .ok i ↔ encode i = some (.gauge w))

/-- The issue of a pipe (R27, R28, R193, R242): in a core clock that allows an issue, in which the pipe has made none, the warp that R194 chooses among the ready
ones, where its group can enter its block, has that group in progress; where none is ready nothing happens. A group put in progress is a whole group
of a warp that may issue there: all its Active, waking lanes of one PC and one call depth, with the helpers that follow them.

The order of issue (R30, R194): the group chosen is a ready one that none precedes, and so is the warp; a group passed over sixteen times
precedes one that is not, and an owed warp precedes one that is not.

Warps owed an issue and the spin floor (R42, R43, R194): 256 core clocks without issue, 48 on the floor, make a warp owed; a count of 64
puts a warp on the floor, and 16 µs of ITIME there take it off. -/
def Obligations.IssueOfAPipe : Prop :=
  (∀ (s : State) (island core pipe : Nat), s.issue = none →
  (s.gateOpen island = true → (∀ x ∈ s.issued, x.2.1 ≠ pipeIx island core pipe) →
    (s.readyWarps island core pipe = [] → exec (.warpIssueSelect island core pipe) s = .next s) ∧
    ∀ x u, chosenWarp (s.readyWarps island core pipe) = some x → x.group.entry = .go u →
      ∃ t i, exec (.warpIssueSelect island core pipe) s = .next t ∧ t.issue = some i ∧ i.warp = x.wid ∧ i.lanes = x.group.lanes ∧
        (t.warp x.wid).waited = 0 ∧ (t.warp x.wid).owed = none ∧ t.mem = s.mem) ∧
  ∃ t, exec (.warpIssueSelect island core pipe) s = .next t ∧ ∀ i, t.issue = some i → (s.warp i.warp).threads.length ≤ 32 →
    Group t i ∧ i.lanes ∈ (s.warp i.warp).groups ∧ i.warp ∈ s.pipeWarps island core pipe ∧ s.mayIssue i.warp = true ∧
    (∀ l ∈ i.lanes, ((t.warp i.warp).thread l).pc = i.pc ∧ ((t.warp i.warp).thread l).depth = i.depth) ∧
    (∀ l, l ∈ i.helpers ↔ l ∈ helpersOf (s.warp i.warp) i.lanes) ∧ t.mem = s.mem ∧ ∀ k, k ≠ i.warp → t.warp k = s.warp k) ∧
  ((∀ gs : List ReadyGroup, gs ≠ [] → ∃ g, chosenGroup gs = some g ∧ g ∈ gs ∧ ∀ h ∈ gs, h.before g = false) ∧
  (∀ ws : List ReadyWarp, ws ≠ [] → ∃ w, chosenWarp ws = some w ∧ w ∈ ws ∧ ∀ v ∈ ws, v.before w = false) ∧
  (∀ a b : ReadyGroup, a.starved = true → b.starved = false → a.before b = true) ∧
  (∀ a b : ReadyGroup, a.starved = b.starved → a.isHeld = false → b.isHeld = true → a.before b = true) ∧
  (∀ a b : ReadyGroup, a.starved = b.starved → a.isHeld = b.isHeld → b.depth < a.depth → a.before b = true) ∧
  (∀ a b : ReadyWarp, a.owed ≠ none → b.owed = none → a.before b = true) ∧
  ∀ a b : ReadyWarp, a.owed = none → b.owed = none → a.floor = false → b.floor = true → a.before b = true) ∧
  (∀ (s : State) (w : Nat),
  let x := s.warp w
  let b := s.block x.block
  (x.owed = none → (if x.floor then 48 else 256) ≤ x.waited → exec (.warpOwed w) s = .next (s.setWarp w { x with owed := some s.clk })) ∧
  (x.spinCount = 64 → x.floor = false → ∃ t, exec (.spinFloorFall w) s = .next t ∧
    t.warp w = { x with floor := true, floorAt := s.itime b.island } ∧ t.mem = s.mem ∧ ∀ k, k ≠ w → t.warp k = s.warp k) ∧
  (x.floor = true → x.floorAt + 16000 ≤ s.itime b.island → ∃ t, exec (.spinFloorTimeout w) s = .next t ∧
    t = s.setWarp w { x with spinCount := 0, watch := [], floor := false, owed := (if x.waited < 256 then none else x.owed) }))

/-- Late results return (R95, R99): a result whose answers are in and whose time has come writes its registers, full and not dead, its s register
or its b register, and leaves the pending list; one with a stale GEN writes nothing. A lane whose replay this completes, and which no other entry of the log parks, is Active
again (R376, R377). No byte of memory changes.

Waits end (R83, R216, R323, R343): a sleeping lane wakes at its time; the lanes of a `ldg.wait` whose words are still unwritten 65,536 ns after
its issue stop their warp with class 0x14 and are kept as one entry of its log (log 20), or stay in the entry they replay; a group at a reached counter
goes on past its `waitarr`, and at an overflowed one its warp stops with class 0x34; one whose translation was removed becomes an entry of the log that
is replayed (R155; log 136). -/
def Obligations.ResultsReturn : Prop :=
  (∀ (s : State) (id : Nat) (ev : Instr) (kinds : List PendKind) (p : Pend),
  (ev = .loadReturn id ∧ kinds = [.load, .loadWait, .scalarLoad, .atomic]) ∨ (ev = .divideReturn id ∧ kinds = [.divide]) ∨
  (ev = .specialFunctionReturn id ∧ kinds = [.special]) ∨ (ev = .accrdReturn id ∧ kinds = [.accrd]) ∨
  (ev = .keymapReturn id ∧ kinds = [.keymap]) ∨ (ev = .ldrecComplete id ∧ kinds = [.ldrec]) →
  s.pend.find? (fun p => p.id == id && kinds.contains p.kind) = some p → p.waiting = [] → p.due ≤ s.clk → (∀ x ∈ p.results, x.1 < 32) →
  ∃ t, exec ev s = .next t ∧ { t with warps := s.warps, pend := s.pend, now := s.now } = s ∧ t.pend = s.pend.filter (fun q => q.id != id) ∧
    (∀ k, k ≠ p.warp ∨ (s.warp p.warp).gen.toNat ≠ p.gen → t.warp k = s.warp k) ∧
    ((s.warp p.warp).gen.toNat = p.gen →
      (∀ l r, l < 32 → (t.warp p.warp).vreg l r = match (p.results.filter fun x => x.1 == l && x.2.1 == r).getLast? with
        | some x => ⟨x.2.2, true, false⟩
        | none => (s.warp p.warp).vreg l r) ∧
      (∀ r, (t.warp p.warp).sreg r = match p.lanes.head? with
        | some x => if p.kind = .scalarLoad ∧ r = p.dst then BitVec.ofNat 64 (p.value x) else (s.warp p.warp).sreg r
        | none => (s.warp p.warp).sreg r) ∧
      (∀ r, (t.warp p.warp).bufRec r = if p.kind = .ldrec ∧ r = p.dst then p.brec else (s.warp p.warp).bufRec r) ∧
      (t.warp p.warp).threads.length = (s.warp p.warp).threads.length ∧
      ∀ l, l < (s.warp p.warp).threads.length → (t.warp p.warp).thread l = { (s.warp p.warp).thread l with
        lstat := (p.flags.filter fun x => x.1 == l).foldl (fun f x => f ||| x.2) ((s.warp p.warp).thread l).lstat
        st := if ((s.warp p.warp).thread l).st = .parked ∧ l ∈ p.laneSet ∧
            (∃ k, p.entry = some k ∧ ∃ e ∈ (s.warp p.warp).log, e.num = k ∧ e.parksLane l = true) ∧
            ∀ e ∈ (t.warp p.warp).log, e.parksLane l = false then .active else ((s.warp p.warp).thread l).st })) ∧
  (∀ (s : State),
  (∀ w l k, ((s.warp w).thread l).wake = some k → k ≤ s.itime (s.block (s.warp w).block).island →
    exec (.sleepWake w l) s = .next (s.setWarp w ((s.warp w).modThread l fun t => { t with wake := none }))) ∧
  (∀ id p, s.pend.find? (fun p => p.id == id && p.kind == .loadWait) = some p → (s.warp p.warp).gen.toNat = p.gen →
    let qs := s.stillWaiting p
    id ∈ qs.map (fun q => q.id) → p.issueTime + 65536 ≤ s.itime (s.block (s.warp p.warp).block).island →
    ∃ t, exec (.onceWaitTimeout id) s = .next t ∧ t.mem = s.mem ∧ Stopped s t p.warp 0x14 ∧
      (p.entry = none → (t.warp p.warp).stopReplay = some p.id ∧ (t.warp p.warp).log = (s.warp p.warp).log ++ [p.gather qs]) ∧
      (∀ k, p.entry = some k → k ∈ (s.warp p.warp).log.map (fun e => e.num) →
        (t.warp p.warp).stopReplay = some k ∧ (t.warp p.warp).log.map (fun e => e.num) = (s.warp p.warp).log.map fun e => e.num) ∧
      t.pend = s.pend.filter fun q => !(qs.map fun q => q.id).contains q.id) ∧
  (∀ id x, s.waits.find? (fun x => x.id == id) = some x → x.stale = true → s.logTaken x.warp < 16 → s.boot.starting = false →
    ∃ t, exec (.waitarrRelease id) s = .next t ∧ t.mem = s.mem ∧ t.waits = s.waits.filter (fun y => y.id != id) ∧
      t.warp x.warp = { s.warp x.warp with log := (s.warp x.warp).log ++ [{ x.entry with replay := true }] }) ∧
  (∀ id x, s.waits.find? (fun x => x.id == id) = some x → x.stale = false →
    (∀ l ∈ x.lanes, s.outstanding x.warp l = []) → s.holders (s.block (s.warp x.warp).block).island (wordsOf x.pa 16) = [] →
    (bits (s.readMem x.pa 16) 126 126 = 0 →
      (bits (s.readMem x.pa 16) 63 63 = 1 ∨ (bits (s.readMem x.pa 16) 127 127 = 1 ∧ bits (s.readMem x.pa 16) 111 64 ≤ bits (s.readMem x.pa 16) 47 0)) →
      ∃ t, exec (.waitarrRelease id) s = .next t ∧ t.mem = s.mem ∧ t.waits = s.waits.filter (fun y => y.id != id) ∧
        t.warp x.warp = (s.warp x.warp).advance x.lanes 1) ∧
    (bits (s.readMem x.pa 16) 126 126 = 1 →
      ∃ t, exec (.waitarrRelease id) s = .next t ∧ t.mem = s.mem ∧ Stopped s t x.warp 0x34)))

/-- Engine commands run and end (R191, R347, R348, R358, R360, R366): a head command whose conditions have held for 4 core clocks starts; a
K-step on tiles of the right format rounds every element of its tile once, on tiles of another format the warp stops with class 0x42; a loop
that has made its K-steps, and a transfer whose packets are all answered, leave their queue; a command freed by a trigger goes on, once its record
is posted (R377, R379). A K-step that has begun ends, in HOLD and in a halt too (R349, R384). One event carries out one unit (log 31).

The operation of a K-step (R66, R358): each element of the destination tile becomes its old value, or zero at the first step of a loop that
zeroes, plus the 32 exact products, summed exactly and rounded once; of a binary64 loop in its pair of tiles. -/
def Obligations.EngineCommandsRun : Prop :=
  (∀ (s : State) (w : Nat) (c : Cmd),
  let b := s.block (s.warp w).block
  (∀ q, (s.warp w).headCmd q = some c →
    exec (.engineCommandStart w q) s = .next (if s.mayStart w c then s.startCmd w c else s)) ∧
  (∀ q e s1, (s.warp w).headCmd q = some c → s.mayStart w c = true → s.checkRank w c = (.ok e, s1) →
    (c.op = 0xE0 ∨ c.op = 0xE1 ∨ c.op = 0xE2 → c.sourceCounter = none → c.completion = none →
      ∃ t, exec (.engineCommandStart w q) s = .next t ∧ t.mem = s.mem ∧
        ∀ x ∈ (t.warp w).mq ++ (t.warp w).xq ++ (t.warp w).fq, x.id = c.id → x.running = true ∧ x.rankEntry = e) ∧
    (c.op = 0xE5 →
      ∃ t, exec (.engineCommandStart w q) s = .next t ∧ t.mem = s.mem ∧ (∃ p ∈ t.packets, p.kind = .notify ∧ p.cmd = c.id ∧ p.route = bits e 39 8) ∧
        ∀ x ∈ (t.warp w).mq ++ (t.warp w).xq ++ (t.warp w).fq, x.id ≠ c.id)) ∧
  (∀ q, (s.warp w).headCmd q = some c → s.mayStart w c = true →
    c.op = 0xD0 ∨ c.op = 0xD1 ∨ c.op = 0xD2 ∨ c.op = 0xD6 ∨ c.op = 0xE8 ∨ c.op = 0xE9 → c.completion = none →
    ∃ t, exec (.engineCommandStart w q) s = .next t ∧ t.mem = s.mem ∧
      ∀ x ∈ (t.warp w).mq ++ (t.warp w).xq ++ (t.warp w).fq, x.id = c.id → x.running = true) ∧
  ((s.warp w).loop = some c → c.begun = true → c.stepDue ≤ s.clk →
    (s.tagsOk b c (mlBofs c.sv c.k c.n).toNat = true →
      ∃ t, exec (.matrixKStep w) s = .next t ∧ t.mem = (s.kStep w c).mem ∧
        ∀ x ∈ (t.warp w).mq, x.id = c.id → ∃ y ∈ (s.warp w).mq, y.id = c.id ∧ x.k = y.nextStep.k ∧ x.n = y.nextStep.n ∧ x.m = y.nextStep.m ∧ x.begun = false) ∧
    (s.tagsOk b c (mlBofs c.sv c.k c.n).toNat = false →
      ∃ t, exec (.matrixKStep w) s = .next t ∧ Stopped s t w 0x42 ∧ ∀ x ∈ (t.warp w).mq, x.id ≠ c.id)) ∧
  (s.cmdOf c.id = some (w, c) → s.unitReady w c = true →
    ((c.op = 0xD1 ∨ c.op = 0xD2) ∧ c.completion = none ∨ c.op = 0xD6 ∧ c.n = 1 ∧ c.completion = none ∨
      c.op = 0xE8 ∧ c.bytes = (if fillDq c.w then 64 * c.sv.getD 2 0 else c.sv.getD 2 0) ∧ c.completion = none ∨
      c.op = 0xE9 ∧ c.bytes = 8 * c.sv.getD 1 0 ∧ c.completion = none ∨ c.op = 0xEA ∧ c.bytes = c.sv.getD 1 0 ∧ c.completion = none ∨
      c.op = 0xEB ∧ c.n ≠ 0 ∧ c.sourceCounter = none ∨
      (c.op = 0xE0 ∨ c.op = 0xE1 ∨ c.op = 0xE2) ∧ c.bytes = c.length ∧ c.inFlight = 0) →
    ∃ t, exec (.engineCommandEnd c.id) s = .next t ∧ t.mem = s.mem ∧ ∀ x ∈ (t.warp w).mq ++ (t.warp w).xq ++ (t.warp w).fq, x.id ≠ c.id) ∧
  (s.cmdOf c.id = some (w, c) → s.unitReady w c = true → c.op = 0xE8 → fillDq c.w = false → 2 ≤ fillMode c.w → c.bytes ≠ c.sv.getD 2 0 →
    let src := s.fillByte b (fillMode c.w == 2) (c.sv.getD 0 0 + c.bytes)
    let dst := s.fillByte b (fillMode c.w == 3) (c.sv.getD 1 0 + c.bytes)
    let k := min (256 - (c.sv.getD 1 0 + c.bytes) % 256) (c.sv.getD 2 0 - c.bytes)
    ∃ t, exec (.engineCommandEnd c.id) s = .next t ∧ t.mem = Memory.writeN s.mem dst (Memory.readN s.mem src k)) ∧
  (s.cmdOf c.id = some (w, c) → s.unitReady w c = true → c.op = 0xE1 → c.bytes ≠ c.length →
    ∃ t, exec (.engineCommandEnd c.id) s = .next t ∧ t.mem = s.mem ∧ t.packets = s.packets ++ [s.xferPacket w c s.fresh .getRequest]) ∧
  ∀ va, s.cmdOf c.id = some (w, c) → c.lineFault = some (va, 0) → s.warpUnposted w = false →
    ∃ t, exec (.engineLineRetry c.id) s = .next t ∧ t.mem = s.mem ∧
      ∀ x ∈ (t.warp w).mq ++ (t.warp w).xq ++ (t.warp w).fq, x.id = c.id → x.lineFault = none) ∧
  (∀ (s : State) (w : Nat) (c : Cmd) (i n : Nat), i < 32 → n < 32 →
  let x := s.warp w
  let b := s.block x.block
  let f := mlWfmt (mlFmt c.w)
  let f64 := mlFmt c.w == 11
  let ty := if f64 then 5 else 4
  let bs := Memory.readN s.mem (wbufByte b (mlBofs c.sv c.k c.n).toNat) (tileSize f (mlSp c.w))
  let row := if mlBypen c.w then s.bypRow b x c i else s.aRow b c i
  let old := if mlZero c.w && c.k == 0 then FVal.fin false 0 0 false else fdecode ty (s.tileElem b x f64 c.dest i n) false
  let t := s.kStep w c
  (f64 = true → x.acc.getD c.dest 0 ≠ x.acc.getD (c.dest + 1) 0) →
  t.tileElem b x f64 c.dest i n = (fround (exactSum (old ::
    List.zipWith (fun a y => (fmul a y).1) row ((List.range 32).map fun k => bElem f (mlSp c.w) bs k n)) 0).1 ty 0 false false 0).1 % 2 ^ (if f64 then 64 else 32) ∧
  ∀ a, (a < tileAddr b x c.dest 0 0 ∨ tileAddr b x c.dest 0 0 + 4096 ≤ a) →
    (f64 = true → a < tileAddr b x (c.dest + 1) 0 0 ∨ tileAddr b x (c.dest + 1) 0 0 + 4096 ≤ a) → Memory.read t.mem a = Memory.read s.mem a)

/-- Retirement (R39, R185): a warp with nothing outstanding retires and frees its tiles and guard slots; a block whose warps have retired and whose
reductions have drained counts towards its grid; a grid whose blocks are all done leaves its table, with the end report, code 0x01, where its
record asks for one, as does one that a fault or a request ends, once nothing of it runs; a pre-empted grid whose blocks are all saved is parked, or
held after a fault, and one that resumes stands in its table again. None of these goes on while a record of the grid waits to be posted (R379). -/
def Obligations.RetirementEndsGrids : Prop := ∀ s : State,
  (∀ w, let x := s.warp w
    x.threads ≠ [] → x.retired = false → s.warpBusy w = false → (s.block x.block).halting = false →
    exec (.warpRetire w) s = .next (s.setWarp w { x with retired := true, acc := [], g := [], gArm := [] })) ∧
  (∀ k, let b := s.block k
    b.warps ≠ [] → b.retired = false → b.saved = false → b.halting = false → (∀ w ∈ b.warps, (s.warp w).retired = true) →
    (s.flushBlock k).draining k = false → (s.flushBlock k).postRoom b = true →
    ∃ t, exec (.blockRetire k) s = .next t ∧ (t.grid b.grid).done = (s.grid b.grid).done + 1 ∧ t.mem = s.mem) ∧
  (∀ gid g, NMap.find? s.grids gid = some g → s.unposted g.island (recordOfGrid gid) = false → g.endCode = 0 → g.status = .inTable →
    g.done = recBits g.record 0 31 0 →
    let a := recBits g.record 14 47 4 * 16
    ∃ t, exec (.gridEnd gid) s = .next t ∧ NMap.find? t.grids gid = none ∧ (∀ e ∈ t.blocks, e.2.grid ≠ gid) ∧
      (a = 0 → t.mem = s.mem) ∧
      (a ≠ 0 → t.readMem (lpddrAddr a) 8 = recBits g.record 10 63 0 ∧ t.readMem (lpddrAddr a + 8) 1 = 1 ∧
        ∀ x, x < lpddrAddr a ∨ lpddrAddr a + 16 ≤ x → Memory.read t.mem x = Memory.read s.mem x)) ∧
  ∀ gid g, NMap.find? s.grids gid = some g → s.unposted g.island (recordOfGrid gid) = false →
    (g.endCode ≠ 0 → g.endCode ≠ 3 → s.gridQuiet gid = true →
      ∃ t, exec (.gridEnd gid) s = .next t ∧ NMap.find? t.grids gid = none ∧ ∀ e ∈ t.blocks, e.2.grid ≠ gid) ∧
    (g.endCode = 0 → g.status = .inTable → g.done ≠ recBits g.record 0 31 0 → g.preempting = true → s.allSaved gid = true →
      ∃ t, exec (.gridEnd gid) s = .next t ∧ t.mem = s.mem ∧ (t.grid gid).status = .parked ∧ (t.grid gid).preempting = false ∧
        (t.grid gid).clusters = []) ∧
    (g.endCode = 3 → g.status ≠ .held → s.allSaved gid = true →
      ∃ t, exec (.gridEnd gid) s = .next t ∧ (t.grid gid).status = .held ∧ (t.grid gid).preempting = false) ∧
    (g.endCode = 0 → g.status = .parked ∨ g.status = .held → g.preempting = true → s.tableTaken g.island < 64 →
      recBerm g.record ≤ s.bermFree g.part g.island →
      ∃ t, exec (.gridEnd gid) s = .next t ∧ t.mem = s.mem ∧ (t.grid gid).status = .inTable ∧ (t.grid gid).preempting = false)

/-- Launch queues (R179, R180): a tail inside the ring and not behind the old one is taken, before stage 3 alone; the base is ignored while the
ring holds records, and the control word where it would change the partition then.

Release and arrival (R180, R183, R187): the chosen head, where no cause applies, gives its grid a GID not in use, reports it in dword 15 of its
record with STATE 0x01, leaves its ring, whose HEAD moves on past it and past the refused records behind it, and sets out for its island; there the grid enters the table with its berm window zero.

Placement (R35, R37, R187, R188): the first waiting grid whose next blocks find room starts them, in ascending BLOCKID, each with a first
warp at its entry; a grid that waited 16 µs reserves its partition's cores, unless a grid of that partition has reserved them.
Records are released one a clock by the round-robin order; log 12 names the choice among due events. -/
def Obligations.LaunchAndPlacement : Prop :=
  (∀ (s : State) (q v : Nat),
  let n := s.qSize q
  let h := s.qHead q
  let dist (t : Nat) : Nat := (t + n - h % n) % n
  let old := s.reg .lkpQtail q
  let new := bits v 11 0
  (new < n → dist old ≤ dist new → s.boot.starting = true → exec (.lkpQtailWrite q v) s = .next (s.setReg .lkpQtail q new)) ∧
  (new < n → dist old ≤ dist new → s.boot.starting = false →
    exec (.lkpQtailWrite q v) s = .next (((s.setReg .lkpQtail q new).enqueueFrom q old (dist new - dist old)).serveQueue q)) ∧
  (¬ (new < n ∧ dist old ≤ dist new) → exec (.lkpQtailWrite q v) s = .next s) ∧
  exec (.lkpQbaseWrite q v) s = .next (if h = old then s.setReg .lkpQbase q (bits v 51 7 * 2 ^ 7) else s) ∧
  exec (.lkpQctlWrite q v) s = .next (if bits v 10 4 ≠ bits (s.reg .lkpQctl q) 10 4 ∧ h ≠ old then s else s.setReg .lkpQctl q (bits v 11 0)) ∧
  ∀ k ix, let r := s.recordAt (s.qSlot q ix)
    (s.enqueueFrom q ix (k + 1)) = ({ s with queueRecs := s.queueRecs ++ [(⟨q, ix, r, s.recordCause q r, false⟩ : QueuedRecord)] }.enqueueFrom q ((ix + 1) % n) k)) ∧
  (∀ s : State,
  (∀ q r, NMap.getD s.rr releaseClock 0 ≤ s.clk → s.nextQueue = some q → s.headRec q = some r → s.rankCause r.words = 0 → r.words.length = 16 →
    s.gidsInUse.length < 65535 →
    ∃ t, exec .recordRelease s = .next t ∧ s.nextGid ∉ s.gidsInUse ∧ 1 ≤ s.nextGid ∧ s.nextGid ≤ 65535 ∧
      (t.grid s.nextGid).status = .released ∧ (t.grid s.nextGid).record = r.words ∧ t.lastGid = s.nextGid ∧
      (∃ p ∈ t.packets, p.kind = .launchRec ∧ p.grid = s.nextGid ∧ p.record = r.words ∧ p.id = s.fresh) ∧
      let h := s.qHead q
      (∀ x ∈ s.queueRecs, x.queue = q → x.index = (h + 1) % s.qSize q → x.cause = 0) →
        t.readMem (s.qSlot q h + 120) 8 = 1 + s.nextGid * 2 ^ 16 ∧ t.reg .lkpQhead q = (h + 1) % s.qSize q ∧
        (∀ x ∈ t.queueRecs, ¬ (x.queue = q ∧ x.index = h)) ∧
        ∀ x, x < s.qSlot q h + 120 ∨ s.qSlot q h + 128 ≤ x → Memory.read t.mem x = Memory.read s.mem x) ∧
  (∀ gid p, s.packets.find? (fun p => p.kind == .launchRec && p.grid == gid &&
      (match p.place with | .atTarget n => n == (s.grid gid).island | _ => false)) = some p → (s.grid gid).status = .released →
    let g := s.grid gid
    let a := bermAddr g.island g.bermBase
    ∃ t, exec (.launchRecordArrival gid) s = .next t ∧ (t.grid gid).status = .inTable ∧ (t.grid gid).waitingSince = some (s.itime g.island) ∧
      t.packets = s.packets.filter (fun x => x.id != p.id) ∧
      ∀ x, Memory.read t.mem x = if a ≤ x ∧ x < a + recBits g.record 1 38 29 * 65536 then 0 else Memory.read s.mem x)) ∧
  (∀ (s : State) (island : Nat),
  ((∀ p ∈ s.waitingGrids island, s.fitNext p.1 p.2 = none) → exec (.blockPlacement island) s = .next s) ∧
  (∀ p fits, (s.waitingGrids island).find? (fun p => (s.fitNext p.1 p.2).isSome) = some p → s.fitNext p.1 p.2 = some fits →
    (∀ f ∈ fits.1, f.2.2 = false) → s.grid p.1 = p.2 →
    ∃ t, exec (.blockPlacement island) s = .next t ∧ (t.grid p.1).nextBlock = p.2.nextBlock + fits.1.length ∧
      (t.grid p.1).blocks.length = p.2.blocks.length + fits.1.length ∧ (t.grid p.1).clusters = fits.2 ∧
      p.1 ∉ (t.isl p.2.island).reservers) ∧
  (∀ p fits, (s.waitingGrids island).find? (fun p => (s.fitNext p.1 p.2).isSome) = some p → s.fitNext p.1 p.2 = some fits →
    let r := s.startAll p.1 p.2.nextBlock fits.1
    exec (.blockPlacement island) s = .next (if r.1 then (r.2.unreserve p.1).modGrid p.1 fun g => { g with clusters := fits.2 } else r.2)) ∧
  (∀ p, (s.table island).find? (fun p => !((s.isl island).reservers.any fun r => (s.grid r).part == p.2.part) &&
      match p.2.waitingSince with | some k => decide (k + 16000 ≤ s.itime island) | none => false) = some p →
    exec (.reservationTimeout island) s = .next (s.modIsl island fun x => { x with reservers := x.reservers ++ [p.1] })) ∧
  ∀ bid gid g n k pipe lanes slot tiles, let x := firstWarp bid gid g n k pipe lanes slot tiles
    x.sreg 4 = BitVec.ofNat 64 gid ∧ x.sreg 2 = BitVec.ofNat 64 (recBits g.record 0 31 0) ∧ x.warpNo = k ∧ x.acc = tiles ∧
    x.srseed = BitVec.ofNat 64 (mix64 (n * 32 + k)) ∧ ∀ l, l < lanes → (x.thread l).pc = ⟨slot, recBits g.record 3 28 16⟩)

/-- LKP_GRIDCTL, halt and restore (R186, R382, R386): an operation on a grid whose status admits it begins, with BUSY set, and another grid's
answers RES 1 where there is no such grid and RES 2 where its status does not admit the operation. A halt first raises GEN and makes one request packet
of each instruction whose results are outstanding, with its operands (R383), once no running command is inside a K-step or a B tile (R349), then saves;
the block whose turn it is is restored with its unit, each on the core found for it. -/
def Obligations.GridsArePreempted : Prop := ∀ (s : State) (gid : Nat) (g : Grid), s.gridctl = none →
  (NMap.find? s.grids gid = none → ∀ ev, ev = .gridPreempt gid ∨ ev = .gridResume gid ∨ ev = .gridEndRequest gid →
    ∃ t, exec ev s = .next t ∧ { t with regs := s.regs, now := s.now } = s ∧ bits (t.reg .lkpGridctl 0) 23 19 = 2 ∧ bits (t.reg .lkpGridctl 0) 15 0 = gid % 65536) ∧
  (NMap.find? s.grids gid = some g → ∀ ev,
    (ev = .gridPreempt gid ∧ ¬ (g.status = .inTable ∧ g.endCode = 0 ∧ g.preempting = false)) ∨
    (ev = .gridResume gid ∧ ¬ (g.status = .parked ∨ g.status = .held)) ∨ (ev = .gridEndRequest gid ∧ ¬ (g.endCode = 0 ∨ g.endCode = 3)) →
    ∃ t, exec ev s = .next t ∧ { t with regs := s.regs, now := s.now } = s ∧ bits (t.reg .lkpGridctl 0) 23 19 = 4 ∧ bits (t.reg .lkpGridctl 0) 15 0 = gid % 65536) ∧
  (NMap.find? s.grids gid = some g → g.status = .inTable → g.endCode = 0 → g.preempting = false →
    ∃ t, exec (.gridPreempt gid) s = .next t ∧ t.gridctl = some gid ∧ bits (t.reg .lkpGridctl 0) 23 19 = 1 ∧
      t.grid gid = { g with preempting := true } ∧ (∀ e ∈ t.blocks, e.2.grid = gid → e.2.halting = true) ∧ t.mem = s.mem ∧ t.warps = s.warps) ∧
  (NMap.find? s.grids gid = some g → g.endCode = 0 ∨ g.endCode = 3 →
    ∃ t, exec (.gridEndRequest gid) s = .next t ∧ t.gridctl = some gid ∧ (t.grid gid).endCode = 6 ∧
      (∀ e ∈ t.blocks, e.2.grid = gid → e.2.halting = true) ∧ t.mem = s.mem) ∧
  (NMap.find? s.grids gid = some g → g.status = .parked ∨ g.status = .held → bits (s.reg .partIpres (partIx g.part g.presIsland)) 5 5 = 0 →
    ∃ t, exec (.gridResume gid) s = .next t ∧ t.gridctl = some gid ∧ t.mem = s.mem ∧
      t.grid gid = { g with endCode := 0, endClass := 0, waitingSince := none, preempting := true }) ∧
  (∀ k, let b := s.block k
    let group := s.groupOf b
    b.halting = true → b.saved = false → (s.isl b.island).inHold = false → (s.grid b.grid).discards = false → b.haltStep = 0 →
    (∀ p ∈ group, ∀ w ∈ p.2.warps, s.writesOut w = false ∧ s.stoppedWork w = false ∧ (s.warp w).midUnit = false) →
    ∃ t, exec (.blockHalt k) s = .next t ∧ t.mem = s.mem ∧ (∀ p ∈ group, (t.block p.1).haltStep = 1) ∧
      ((group.flatMap fun p => p.2.warps).Nodup → ∀ p ∈ group, ∀ w ∈ p.2.warps, (t.warp w).gen = (s.warp w).gen + 1 ∧
        ∀ q ∈ s.pend, q.warp = w → q.gen = (s.warp w).gen.toNat → (∀ y ∈ t.pend, y.id ≠ q.id) ∧
          (q.kind ≠ .atomic → q.kind ≠ .ldrec → q.kind ≠ .load ∨ q.lanes ≠ [] ∨ q.writes ≠ [] → q.entry = none →
            ∃ y ∈ s.pend, y.inst = q.inst ∧ y.warp = w ∧ ∃ e ∈ (t.warp w).log, e.num = y.id ∧ e.words = y.words ∧ e.pc = y.pc ∧ e.brec = y.brec ∧
              e.seed = y.seed ∧ e.parkedLanes = false ∧ (y.who = [] → ∀ x ∈ q.ops, x ∈ e.ops ∧ x.1 ∈ e.lanes)))) ∧
  (∀ k, let b := s.block k
    let group := s.groupOf b
    b.halting = true → b.saved = false → (s.isl b.island).inHold = false → (s.grid b.grid).discards = false → b.haltStep = 1 →
    (∀ p ∈ group, (group.foldl (fun (s : State) p => s.modBlock p.1 fun x => { x with halting := true }) s).draining p.1 = false) →
    ∃ t, exec (.blockHalt k) s = .next t ∧ t.mem = s.mem ∧ ∀ p ∈ group, (t.block p.1).saved = true) ∧
  ∀ k l, s.awaitsRestore (s.block k) = true → s.turn (s.block k).island = some ((s.block k).grid, some k) → s.fitRestore (s.block k) = some l →
    ∃ t, exec (.contextRestore k) s = .next t ∧ (t.grid (s.block k).grid).clusters = l.2 ∧
      ((l.1.map fun x => x.1).Nodup → ∀ x ∈ l.1, (t.block x.1).saved = false ∧ (t.block x.1).core = x.2)

/-- Fault records and replays (R157, R377, R379): the oldest record on chip is written at the tail of its island's ring, unless that is full;
a trigger marks what waits for it; the oldest marked entry of a warp, where its pages allow its access, goes: it leaves the log at once, or with its result where
its lanes are parked and await one; a request packet is performed again from its operands; nothing is replayed while a record of the warp waits to be
posted. An access stalled at a page in TRANSIT parks after 65,536 ns, and a command waits at its line, each with a record of kind R and class 0x16. -/
def Obligations.FaultRecordsAndReplays : Prop := ∀ (s : State) (island : Nat), island < 24 →
  (∀ r rest, (s.isl island).onchip = r :: rest → r.length = 8 → s.fqFull island = false →
    let k := s.reg .islFqtail island % s.fqSize island
    let a := lpddrAddr (bits (s.reg .islFqbase island) 47 6 * 64 + 64 * k)
    ∃ t, exec (.faultRecordPost island) s = .next t ∧ (∀ d, d < 8 → t.readMem (a + 8 * d) 8 = (r.getD d 0).toNat) ∧
      (∀ x, x < a ∨ a + 64 ≤ x → Memory.read t.mem x = Memory.read s.mem x) ∧
      t.reg .islFqtail island = (k + 1) % s.fqSize island ∧ (t.isl island).onchip.take rest.length = rest ∧
      (t.isl island).onchip.length = rest.length + min (64 - rest.length) (s.isl island).waitPost.length ∧
      (t.isl island).waitPost = (s.isl island).waitPost.drop (64 - rest.length) ∧ t.warps = s.warps) ∧
  (s.fqFull island = true → exec (.faultRecordPost island) s = .next s) ∧
  (∀ v, exec (.islFqheadWrite island v) s = .next (s.setReg .islFqhead island (bits v 15 0))) ∧
  (∀ v, exec (.islFqbaseWrite island v) s = .next (if s.reg .islFqhead island = s.reg .islFqtail island then
    s.setReg .islFqbase island (bits v 51 6 * 2 ^ 6) else s)) ∧
  (∀ (asid : Option Nat) (ev : Instr), (asid = none ∧ ev = .replayAll island) ∨ (∃ k, asid = some (k % 4096) ∧ ev = .replayAsid island k) →
    ∃ t, exec ev s = .next t ∧ t.mem = s.mem ∧ t.pend = s.pend ∧
      ∀ w, if (s.block (s.warp w).block).island = island ∧ (asid = none ∨ asid = some (s.warpAsid w)) then
          (t.warp w).log = (s.warp w).log.map (fun (e : LogEntry) => if e.waits then { e with replay := true } else e) ∧
          ∀ c ∈ (t.warp w).mq ++ (t.warp w).xq ++ (t.warp w).fq, ∀ va k, c.lineFault = some (va, k) → k = 0
        else t.warp w = s.warp w) ∧
  (∀ w n, (s.warp w).stopped = true ∨ (∀ e ∈ (s.warp w).log, e.num = n → e.replay = false) ∨
    (∃ e ∈ (s.warp w).log, e.replay = true ∧ e.num < n) → exec (.accessReplay w n) s = .next s) ∧
  (∀ w n e, (s.warp w).log.find? (fun e => e.num == n) = some e → e.replay = true → (s.warp w).stopped = false →
    (s.block (s.warp w).block).halting = false → (s.block (s.warp w).block).saved = false →
    (∀ x ∈ (s.warp w).log, x.replay = true → n ≤ x.num) → s.warpUnposted w = false →
    exec (.accessReplay w n) s = .next (s.replayAny w n) ∧
    let op := (e.words.getD 0 0).toNat / 2 ^ 56
    op ≠ 0xE3 → op ≠ 0xE4 →
    (e.access w = none →
      ∃ t, exec (.accessReplay w n) s = .next t ∧ t.mem = s.mem ∧ (t.warp w).log = (s.warp w).log.filter (fun x => x.num != n) ∧
        let out (l : Nat) : LaneOut :=
          let o := packetLane s (s.packetCtx w e) e l
          if e.operand l 6 = 1 then zeroOut o else o
        let res := e.lanes.flatMap fun l => splitVals l (out l)
        ∀ l r, l < 32 → (∀ k ∈ e.lanes, k < 32) → (t.warp w).vreg l r =
          match (res.filter fun x => x.1 == l && x.2.1 == r).getLast? with
          | some x => ⟨x.2.2, true, false⟩
          | none => (s.warp w).vreg l r) ∧
    ∀ a, e.access w = some a → MayGo s a → (∀ r ∈ (s.resolveAll a a.lanes).1, ∃ f pa, r.2 = .ok f pa) →
      (∀ x ∈ (s.warp w).log, x.num = n → x = e) → e.going = [] →
      ∃ t, exec (.accessReplay w n) s = .next t ∧
        ((e.parkedLanes && a.returns) = false → (t.warp w).log = (s.warp w).log.filter fun x => x.num != n) ∧
        ((e.parkedLanes && a.returns) = true → a.kind ≠ .scalar →
          (∃ r ∈ (s.resolveAll a a.lanes).1, (s.resolveAll a a.lanes).2.helperZero a r = false) →
          ∃ x ∈ (t.warp w).log, x.num = n ∧ x.replay = false ∧
            ∀ r ∈ (s.resolveAll a a.lanes).1, (s.resolveAll a a.lanes).2.helperZero a r = false → r.1.lane ∈ x.going ∧ r.1.lane ∈ x.lanes)) ∧
  (∀ id x, s.stalls.find? (fun x => x.id == id) = some x →
    let b := s.block (s.warp x.warp).block
    (s.itime b.island < x.since + 65536 → exec (.transitTimeout id) s = .next s) ∧
    let e : LogEntry := { x.entry with lanes := x.entry.lanes.filter fun l => !x.helpers.contains l }
    let posted (t : State) : Prop :=
      ∃ r, ((t.isl b.island).onchip ++ (t.isl b.island).waitPost).getLast? = some r ∧ recBits r 0 7 0 = 0x16 ∧ recBits r 0 15 8 = 1
    (x.since + 65536 ≤ s.itime b.island → s.cmdOf id = none → e.lanes ≠ [] →
      ∃ t, exec (.transitTimeout id) s = .next t ∧ t.mem = s.mem ∧ t.stalls = s.stalls.filter (fun y => y.id != id) ∧ posted t ∧
        (∃ y ∈ (t.warp x.warp).log, y.num = e.num ∧ y.parkedLanes = true ∧ ∀ l ∈ e.lanes, l ∈ y.lanes) ∧
        ∀ l ∈ e.parks, l < (s.warp x.warp).threads.length → ((t.warp x.warp).thread l).st = .parked) ∧
    ∀ w c, x.since + 65536 ≤ s.itime b.island → s.cmdOf id = some (w, c) →
      ∃ t, exec (.transitTimeout id) s = .next t ∧ t.mem = s.mem ∧ (x.warp = w → posted t) ∧
        ∀ y ∈ (t.warp w).mq ++ (t.warp w).xq ++ (t.warp w).fq, y.id = id → y.lineFault = some (x.va, 0x16))

/-- Requests at a slice (R128 to R130, R132, R136, R139, R140): a request that nothing keeps from its words is served: a shared or exclusive
lease is granted with the words as they stand, a write, atomic or drain performs its operations in order and stamps the words, a write-back is
written, at both frames of a dual-home window, a mirrored write reaches the new frame (as one event: log 137), a recall takes the core's exclusive
spans. One that must wait is queued. Of a store, what the core holds EX or PV by now is written in place and the rest goes to the slice; words held PV
are written back first. An atomic that was to run near runs in place where the core holds its words by now, and goes far in HOLD or in a dual-home
window. -/
def Obligations.SliceRequests : Prop := ∀ (s : State) (id : Nat),
  let ownPv (m : Msg) : Prop := ∃ r ∈ s.spans, r.island = m.island ∧ r.core = m.core ∧ r.st = .pv ∧ overlaps r.words m.words = true
  let away (m : Msg) : Prop := m.ops ≠ [] ∧ m.words = opWords m.ops ∧ ∀ o ∈ m.ops, s.ownRec m.island m.core (wordsOf o.pa o.bytes) = none
  (∀ m, s.msg? id .gets = some m → s.ready m = true →
    (s.getsFree m = true →
      let hold := (s.isl m.island).inHold
      let e := if hold then s.itime m.island else s.itime m.island + s.leaseLen m.island m.cls
      ∃ t r, exec (.gets id) s = .next t ∧ t.mem = s.mem ∧ t.msg? id .data = some r ∧ r.cells = cellsOf s.mem m.words ∧ r.words = m.words ∧
        r.asker = m.asker ∧ r.expiry = e ∧ r.keep = (if hold then [] else if m.ptype = 2 then m.words.filter s.written else m.words) ∧
        ∀ w ∈ m.words, (t.dirWord m.island w).wts = (s.dirWord m.island w).wts ∧
          (t.dirWord m.island w).rts = if hold then (s.dirWord m.island w).rts else max (s.dirWord m.island w).rts e) ∧
    (s.unwrittenWait m = true → exec (.gets id) s = .next s) ∧
    (s.unwrittenWait m = false → s.getsFree m = false → exec (.gets id) s = .next (s.enqueue m false))) ∧
  (∀ m ev, (ev = .getx id ∧ s.ready m = true ∧ m.arr = none ∧ s.ownsAll m.island m.core m.ops = false ∧ m.solo = false) ∨
      (ev = .queuedGetxGrant id ∧ m.arr.isSome = true ∧ s.ready m = true) →
    s.msg? id .getx = some m → s.mustFar m.island m.words = false → s.getxFree m = true →
    ∃ t r, exec ev s = .next t ∧ t.mem = s.mem ∧ t.msg? id .xdata = some r ∧ r.cells = cellsOf s.mem m.words ∧ r.words = m.words ∧
      r.expiry = s.itime m.island + s.leaseLen m.island m.cls ∧ ∀ w ∈ m.words, (t.dirWord m.island w).holder = some m.core) ∧
  (∀ m, s.msg? id .getx = some m → s.mustFar m.island m.words = true →
    (m.arr = none → s.ready m = true → exec (.getx id) s = .next (s.goFar m)) ∧
    (m.arr.isSome = true → s.ready m = true → id < s.fresh → ∃ t r, exec (.queuedGetxGrant id) s = .next t ∧ t.mem = s.mem ∧
      t.msg? id .atom = some r ∧ r.ops = m.ops ∧ r.words = opWords m.ops ∧ r.arr = m.arr ∧
      (¬ ownPv { m with words := opWords m.ops } → t.spans = s.spans) ∧
      (ownPv { m with words := opWords m.ops } → ∀ x ∈ t.msgs, x.kind = .wback → x.island = m.island → x.core = m.core →
        overlaps x.words (opWords m.ops) = true → x.id ∈ r.after) ∧
      ∀ x ∈ t.spans, x.island = m.island → x.core = m.core → x.st = .pv → overlaps x.words (opWords m.ops) = false)) ∧
  (∀ m, s.msg? id .getx = some m → s.ready m = true → m.arr = none → s.mustFar m.island m.words = false → s.ownsAll m.island m.core m.ops = true →
    ∃ t, exec (.getx id) s = .next t ∧ t.mem = s.mem ∧ (∀ x ∈ t.msgs, x.id ≠ id) ∧
      ∀ r, r.st ≠ .sh → (r ∈ t.spans ↔ r ∈ (s.runOwned m.island m.core true m.ops).1.spans)) ∧
  (∀ m ev, (ev = .sliceWrite id ∧ m.kind = .write ∧ s.ready m = true ∧ m.arr = none ∧ away m ∧ ¬ ownPv m) ∨
      (ev = .farAtom id ∧ m.kind = .atom ∧ s.ready m = true ∧ m.arr = none ∧ ¬ ownPv m) ∨
      (ev = .drainEntry id ∧ m.kind = .drain ∧ m.acq = false ∧ s.ready m = true) ∨
      (ev = .queuedWritePerform id ∧ (m.kind = .write ∨ m.kind = .atom ∨ m.kind = .drain) ∧ m.arr.isSome = true ∧ s.ready m = true) →
    s.msgs.filter (fun x => x.id == id) = [m] → id < s.fresh →
    (s.writeFree m = true →
      ∃ t, exec ev s = .next t ∧ t.mem = (runOps s.mem m.ops).1 ∧ (∀ w ∈ m.words, (t.dirWord m.island w).wts = s.itime m.island) ∧
        (s.windowOf (m.words.headD 0) = none →
          (m.kind = .write → ∃ r, t.msg? id .wack = some r ∧ r.cells = cellsOf t.mem m.words) ∧
          (m.kind = .atom → ∃ r, t.msg? id .aack = some r ∧ r.olds = (runOps s.mem m.ops).2.1) ∧
          (m.kind = .drain → ∃ r, t.msg? id .drain = some r ∧ r.acq = true ∧ r.cells = cellsOf t.mem m.words)) ∧
        ((s.windowOf (m.words.headD 0)).isSome = true → ∃ r, t.msg? id .mirror = some r)) ∧
    (s.writeFree m = false →
      ∃ t r, exec ev s = .next t ∧ t.mem = s.mem ∧ t.msg? id m.kind = some r ∧ r.arr.isSome = true ∧ r.ops = m.ops ∧ r.words = m.words)) ∧
  (∀ m ev, (ev = .sliceWrite id ∧ m.kind = .write ∧ away m) ∨ (ev = .farAtom id ∧ m.kind = .atom) →
    s.msgs.filter (fun x => x.id == id) = [m] → id < s.fresh → s.ready m = true → m.arr = none → ownPv m →
    ∃ t r, exec ev s = .next t ∧ t.mem = s.mem ∧ t.msg? id m.kind = some r ∧ r.ops = m.ops ∧
      (∀ x ∈ t.msgs, x.kind = .wback → x.island = m.island → x.core = m.core → overlaps x.words m.words = true → x.id ∈ r.after) ∧
      ∀ x ∈ t.spans, x.island = m.island → x.core = m.core → x.st = .pv → overlaps x.words m.words = false) ∧
  (∀ m, s.msg? id .write = some m → s.ready m = true → m.arr = none → s.ownsAll m.island m.core m.ops = false →
    let owned := m.ops.filter fun o => (s.ownRec m.island m.core (wordsOf o.pa o.bytes)).isSome
    let rest := m.ops.filter fun o => (s.ownRec m.island m.core (wordsOf o.pa o.bytes)).isNone
    let m' := { m with ops := rest, words := opWords rest }
    exec (.sliceWrite id) s = .next (((s.runOwned m.island m.core false owned).1.setMsg m').toSlice m')) ∧
  (∀ m, s.msg? id .write = some m → s.ready m = true → m.arr = none → s.ownsAll m.island m.core m.ops = true →
    ∃ t, exec (.sliceWrite id) s = .next t ∧ t.mem = s.mem ∧ (∀ x ∈ t.msgs, x.id ≠ id) ∧ t.spans = (s.runOwned m.island m.core false m.ops).1.spans ∧
      ∀ o r, m.ops = [o] → s.ownRec m.island m.core (wordsOf o.pa o.bytes) = some r → ∀ x ∈ t.spans, x.id = r.id → x.data = (runOps r.data [o]).1) ∧
  (∀ m, s.msg? id .wback = some m → s.ready m = true →
    let ws := (m.cells.map fun c => c.1 / 4).eraseDups
    s.tsFree m.island m.ptype ws = true → s.mirrorFree m.ptype ws = true →
    ∃ t, exec (.wback id) s = .next t ∧ t.msgs = s.msgs.filter (fun x => x.id != id) ∧
      t.mem = (({ s with mem := Memory.writeCells s.mem m.cells } : State).mirrorNow ws).mem ∧
      ((∀ w ∈ ws, s.windowOf w = none) → t.mem = Memory.writeCells s.mem m.cells ∧
        (∀ c ∈ m.cells, (t.dirWord m.island (c.1 / 4)).wts = s.itime m.island) ∧
        (m.solo = true → ∀ w ∈ m.words, (t.dirWord m.island w).holder ≠ some m.core))) ∧
  (∀ m, s.msg? id .mirror = some m → s.mirrorFree m.ptype m.words = true →
    ∃ t r, exec (.mirrorWrite id) s = .next t ∧ t.msg? id (if m.since = 0 then .wack else if m.since = 2 then .drain else .aack) = some r ∧
      (∀ d, (∀ w ∈ m.words, s.windowOf w = some d ∧ d.there w ∉ m.words) →
        ∀ w ∈ m.words, t.readMem (4 * d.there w) 4 = s.readMem (4 * w) 4) ∧
      ∀ x, (∀ w ∈ m.words, ∀ d, s.windowOf w = some d → x < 4 * d.there w ∨ 4 * d.there w + 4 ≤ x) → Memory.read t.mem x = Memory.read s.mem x) ∧
  ∀ m, s.msg? id .recall = some m → s.ready m = true →
    ∃ t, exec (.recall id) s = .next t ∧ t.mem = s.mem ∧
      ∀ r ∈ t.spans, r.island = m.island → r.core = m.core → r.st = .ex → overlaps r.words m.words = false

/-- Answers at the L1 and its registers (R125 to R129, R131 to R134, R140): an answer reaches what asked, which waits for it no longer; the core's
copy takes the values of a drain performed (R89; log 14); a lease that
has run out goes; plain mode and PREDCLR empty the predictors, and an atomic issued in the core clock of the change runs as before it; ISL_LEASE takes lengths of 1 to 64. -/
def Obligations.CoherenceAnswers : Prop := ∀ (s : State) (id : Nat),
  (∀ m ev, (ev = .dataMsg id ∧ s.msg? id .data = some m) ∨ (ev = .aack id ∧ s.msg? id .aack = some m) → s.ready m = true → id < s.fresh →
    ∃ t, exec ev s = .next t ∧ t.mem = s.mem ∧ (∀ x ∈ t.msgs, x.id ≠ id) ∧
      ∀ p x, m.asker = some p → s.pend.find? (fun x => x.id == p) = some x →
        ∃ y, t.pend.find? (fun x => x.id == p) = some y ∧ y.waiting = x.waiting.filter (fun k => k != id) ∧
          (m.kind = .data → y.got = copyWords x.got m.cells m.words) ∧
          (m.kind = .aack → x.kind = .atomic → x.size = 4 → y.writes = x.writes ++ m.olds.map fun o => (o.1, x.dst, BitVec.ofNat 32 o.2))) ∧
  (∀ m, s.msg? id .xdata = some m → s.ready m = true → id < s.fresh → m.words ≠ [] →
    (s.itime m.island + 2 < m.expiry → s.mustFar m.island m.words = false →
      ∃ t, exec (.xdata id) s = .next t ∧ t.mem = s.mem ∧ (∀ x ∈ t.msgs, x.id ≠ id) ∧
        ∀ p, m.asker = some p → ∀ y ∈ t.pend, y.id = p → id ∉ y.waiting) ∧
    (m.expiry ≤ s.itime m.island + 2 ∨ s.mustFar m.island m.words = true →
      ∃ t r, exec (.xdata id) s = .next t ∧ t.mem = s.mem ∧ t.pend = s.pend ∧ t.msg? id .atom = some r ∧ r.ops = m.ops ∧ r.words = opWords m.ops)) ∧
  (∀ m, s.msg? id .wack = some m → s.ready m = true →
    ∃ t, exec (.wack id) s = .next t ∧ t.mem = s.mem ∧ t.msgs = s.msgs.filter fun x => x.id != id) ∧
  (∀ m, s.msg? id .drain = some m → s.ready m = true → m.acq = true → id < s.fresh →
    ∃ t, exec (.drainEntry id) s = .next t ∧ t.mem = s.mem ∧ t.spans = (s.updateCopy m).spans ∧ ∀ x ∈ t.msgs, x.id ≠ id) ∧
  (∀ r, s.spans.find? (fun r => r.id == id) = some r → r.usable s = false →
    ∃ t, exec (.leaseLapse id) s = .next t ∧ t.mem = s.mem ∧ t.spans = s.spans.filter fun x => x.id != id) ∧
  (∀ island v, ∃ t, exec (.cohmodePlainWrite island v) s = .next t ∧ t.mem = s.mem ∧ t.reg .islCohmode island = v % 2 ∧
    ((s.now.plain.any fun x => x.1 == island) = false → t.plainMode island = (s.reg .islCohmode island % 2 == 1)) ∧
    ∀ k, k < 160 → (t.core island k).predictor =
      if v % 2 = 1 ∧ s.reg .islCohmode island % 2 = 0 then [] else (s.core island k).predictor) ∧
  (∀ island, ∃ t, exec (.predclr island) s = .next t ∧ { t with cores := s.cores, now := s.now } = s ∧ ∀ k, k < 160 → (t.core island k).predictor = []) ∧
  ∀ island v, ∃ t, exec (.islLeaseWrite island v) s = .next t ∧ t.mem = s.mem ∧
    ∀ k, k < 4 → let x := bits v (8 * k + 6) (8 * k)
      bits (t.reg .islLease island) (8 * k + 6) (8 * k) = if 1 ≤ x ∧ x ≤ 64 then x else bits (s.reg .islLease island) (8 * k + 6) (8 * k)

/-- Routers and links (R16, R163, R201, R202, R204 to R208): a packet goes to the port of its next hop, or is delivered where its route ends, or comes
back as an error notice of class 0x30 where that port is absent, fenced or FAILED, or, after a fibre, where a later hop is; a packet of at most 256
payload bytes that enters the panel is routed as any other, one of the control die's software once node 24's copy of its rank's entry, the whole route
and its windows admit it (the form of what enters and what software is told of a refusal: log 117); one is sent where its class has the allowance; each count of a port changes as its event says, and without light
allowances and replay buffer stand. -/
def Obligations.PacketsMove : Prop := ∀ s : State,
  (∀ (id : Nat) (p : Packet), s.packet? id = some p →
  let h := routeHop p.route p.hop
  let ends (n : Nat) : Prop := 8 ≤ p.hop ∨ h = 15 ∨ (n = 24 ∧ 0 < p.hop)
  let opened (n : Nat) : Prop := (p.crossed = true → s.topo.routeOk p.route (8 - p.hop) n = true) ∧
    s.topo.portCode n h % 4 ≠ 0 ∧ bit (s.topo.portCode n h) 2 = false ∧ (s.port n h).st ≠ .failed ∧ (s.port n h).st ≠ .absent
  (∀ n, p.place = .atRouter n →
    (ends n → exec (.routerForward (.packet id)) s = .next (s.setPacket { p with place := .atTarget n })) ∧
    (¬ ends n → opened n → exec (.routerForward (.packet id)) s = .next (s.setPacket { p with place := .outPort n h, hop := p.hop + 1 })) ∧
    (¬ ends n → ¬ opened n →
      ∃ t q, exec (.routerForward (.packet id)) s = .next t ∧ t.mem = s.mem ∧ t.packets = s.packets.filter (fun x => x.id != p.id) ++ [q] ∧
        q.kind = .errorNotice ∧ q.cls = 0x30 ∧ q.place = .atRouter n ∧ q.route = backRoute p.back ∧ q.id = s.fresh)) ∧
  (∀ n q m far, p.place = .onLink n q → farEnd n q = some (m, far) → (s.resent n q).any (fun f => f.2 == p.id + 1) = false →
    m = 24 ∨ s.topo.live m = true →
    ∃ t, exec (.routerForward (.packet id)) s = .next t ∧ t.mem = s.mem ∧
      (ends m → t.packet? id = some { p with back := far :: p.back, place := .atTarget m }) ∧
      (¬ ends m → opened m → t.packet? id = some { p with back := far :: p.back, place := .outPort m h, hop := p.hop + 1 })) ∧
  (∀ n q, p.place = .onLink n q → (s.resent n q).any (fun f => f.2 == p.id + 1) = true → exec (.routerForward (.packet id)) s = .next s) ∧
  (∀ n q x, p.place = .outPort n q → NMap.find? s.ports (portIx n q) = some x → x.st ≠ .absent →
    (s.maySend n q p = false → exec (.packetSend id) s = .next s) ∧
    (s.maySend n q p = true →
      ∃ t, exec (.packetSend id) s = .next t ∧ t.mem = s.mem ∧
        t.packet? id = some { p with place := if (farEnd n q).isSome then .onLink n q else .offPanel n q } ∧
        (t.port n q).rply.length = x.rply.length + p.flits ∧
        (t.port n q).allowq = (if p.kind.isResponse then x.allowq else x.allowq - p.flits) ∧
        (t.port n q).allowr = (if p.kind.isResponse then x.allowr - p.flits else x.allowr)))) ∧
  (∀ (o : OutPacket) kind, outRequests[o.kind]? = some kind →
    let p := outRequest o s.fresh kind
    let ends : Prop := 8 ≤ p.hop ∨ routeHop p.route p.hop = 15 ∨ (o.node = 24 ∧ 0 < p.hop)
    let small : Prop := o.payload.length ≤ 256 ∧ (o.len ≤ 256 ∨ o.kind = 3)
    let e := NMap.getD s.ranks (rankKey o.job 24 p.rank) 0
    let made : Packet := { p with hop := 0, back := [] }
    let s1 := ({ s with fresh := s.fresh + 1 } : State).addPacket made
    let room (w ofs n : Nat) : Prop := winOk (s.window o.job 24 w) = true ∧ ofs + n ≤ winSize (s.window o.job 24 w)
    let rooms : Prop := room o.win o.ofs o.len ∧ (o.tcen = true → room o.tcwin o.tcofs 16)
    (¬ small → exec (.routerForward (.entering o)) s = .next s) ∧
    (o.port = none → o.node = 24 → o.kind < 2 → small →
      let bad (cls : Nat) : Prop := ∃ t, exec (.routerForward (.entering o)) s = .next t ∧ t.mem = s.mem ∧ (∀ x ∈ t.packets, x.id ≠ s.fresh) ∧
        t.returned = s.returned ++ [(o.answers, cls, p.payload)]
      (s.nranksOf o.job ≤ p.rank ∨ rankOk e = false → bad 0x31) ∧
      (p.rank < s.nranksOf o.job → rankOk e = true →
        (bit e 6 = true → exec (.routerForward (.entering o)) s = .next (s1.setPacket { made with place := .retryWait 0, res := 2 ^ 32 })) ∧
        (bit e 6 = false → s.topo.routeOk (bits e 39 8) 8 24 = false → bad 0x30) ∧
        (bit e 6 = false → s.topo.routeOk (bits e 39 8) 8 24 = true → ¬ rooms → bad 0x32) ∧
        (bit e 6 = false → s.topo.routeOk (bits e 39 8) 8 24 = true → rooms →
          exec (.routerForward (.entering o)) s = .next (s1.routeFrom { made with route := bits e 39 8, res := bits e 39 8 } 24)))) ∧
    (∀ q, o.port = some q → o.node < 24 → farEnd o.node q = none → (s.port o.node q).lit = true → small → ends →
      ∃ t, exec (.routerForward (.entering o)) s = .next t ∧ t.mem = s.mem ∧
        t.packet? s.fresh = some { p with back := q :: o.back, place := .atTarget o.node })) ∧
  ∀ n q x, NMap.find? s.ports (portIx n q) = some x →
    (∀ cls flits, ∃ t, exec (.allowanceReturn n q cls flits) s = .next t ∧ { t with ports := s.ports } = s ∧
      (t.port n q).allowq = (if cls = 0 ∧ x.lit = true then max x.allowq (min (x.allowq + flits) (128 - s.farFlits n q false)) else x.allowq) ∧
      (t.port n q).allowr = (if cls = 0 ∨ x.lit = false then x.allowr else max x.allowr (min (x.allowr + flits) (64 - s.farFlits n q true)))) ∧
    (∀ k, let got := min k (x.rply.length - (s.resent n q).length)
      (got = 0 ∨ x.lit = false → exec (.flitAcknowledge n q k) s = .next s) ∧
      (0 < got → x.lit = true → ∃ t, exec (.flitAcknowledge n q k) s = .next t ∧ { t with ports := s.ports, packets := s.packets } = s ∧
        t.port n q = x.acked got)) ∧
    (∀ k seq, ∃ t, exec (.codewordError n ⟨q, k, seq⟩) s = .next t ∧ { t with ports := s.ports } = s ∧
      (k = 2 → t.port n q = { x with corr := min 0xFFFFFF (x.corr + 1) }) ∧
      (k ≠ 2 → t.port n q = { x with uncorr := if k = 0 then min 0xFFFF (x.uncorr + 1) else x.uncorr, asked := some (x.asked.getD (seq % 4096)) })) ∧
    (∀ k, ∃ t, exec (.replayRequest n q k) s = .next t ∧ t.mem = s.mem ∧ t.packets = s.packets ∧
      { t.port n q with asked := x.asked } = { x with replays := min 0xFFFF (x.replays + 1), stuck := x.stuck + 1 } ∧
      ∀ m, farEnd n q = some m → (t.port m.1 m.2).asked = none) ∧
    (x.stuck < 16 → exec (.replayLimit n q) s = .next s)

/-- Port states (R205): each event takes a port from the state it stands in to the next, keeps the far end's identity over DARK and RELOCK, and
is ignored in any other state, but for what its command bit reads in this core clock (log 118); the drain marker is due at DRAIN and sent after it; a
port that trains with fewer than 4 sources fails. -/
def Obligations.PortStates : Prop := ∀ (s : State) (n q : Nat) (x : Port), NMap.find? s.ports (portIx n q) = some x →
  let far := (x.farNode, x.farPort, x.farPanel)
  let onWay := s.packets.any fun p => p.place == .onLink n q
  let takes (ev : Instr) (on : Prop) (y : Port) : Prop :=
    (on → ∃ t, exec ev s = .next t ∧ t.mem = s.mem ∧ t.packets = s.packets ∧ t.port n q = y) ∧
    (¬ on → ∃ t, exec ev s = .next t ∧ { t with now := s.now } = s)
  let now := s.gaugeTime n
  takes (.drain n q) (x.st = .up) { x with mgmtQ := x.mgmtQ ++ [1], markerSent := true, st := .draining, since := now } ∧
  (x.mgmtQ.contains 1 = true → ∃ t, exec (.drainMarker n q) s = .next t ∧ { t with ports := s.ports } = s ∧ t.port n q = x.sendMgmt) ∧
  (x.mgmtQ.contains 1 = false → takes (.drainMarker n q) (x.st = .draining ∧ onWay = false ∧ s.mgmtArrived n q 1 = true)
    { x.mgmtDone 1 with markerSent := false }) ∧
  takes (.drainMarkerAck n q) (x.st = .draining ∧ x.markerSent = false ∧ x.rply = [] ∧ (s.isl n).inHold = false)
    { x with st := .drained, since := now } ∧
  takes (.dark n q) (x.st = .drained) { x with heldFar := some far, st := .dark, since := now } ∧
  takes (.relock n q) (x.st = .dark ∨ x.st = .failed) { x with st := .relock, since := now } ∧
  takes (.lightLoss n q) (x.st = .up) { x with heldFar := some far, stuck := 0, st := .relock, since := now } ∧
  takes (.replayLimit n q) (x.st = .up ∧ 16 ≤ x.stuck) { x with heldFar := some far, stuck := 0, st := .relock, since := now } ∧
  (∃ t, exec (.clrerr n q) s = .next t ∧ { t with ports := s.ports, now := s.now } = s ∧
    t.port n q = { x with corr := 0, uncorr := 0, replays := 0, fover := 0 }) ∧
  (∀ a b c, let f := (a % 32, b % 16, c % 65536)
    (x.st ≠ .relock → exec (.portTrained n q a b c) s = .next s) ∧
    (x.st = .relock → maskCount x.wlmask < 4 → ∃ t, exec (.portTrained n q a b c) s = .next t ∧ (t.port n q).st = .failed) ∧
    (x.st = .relock → 4 ≤ maskCount x.wlmask → x.heldFar.getD far = f →
      ∃ t, exec (.portTrained n q a b c) s = .next t ∧ t.packets = s.packets ∧
        t.port n q = Port.sendMgmt { x with asked := none, st := .up, since := now }) ∧
    (x.st = .relock → 4 ≤ maskCount x.wlmask → x.heldFar.getD far ≠ f → x.rply = [] →
      ∃ t, exec (.portTrained n q a b c) s = .next t ∧ t.packets = s.packets ∧
        t.port n q = Port.sendMgmt { x with farNode := f.1, farPort := f.2.1, farPanel := f.2.2, heldFar := some f, asked := none
                                            allowq := 128, allowr := 64, st := .up, since := now }) ∧
    (x.st = .relock → x.heldFar.getD far ≠ f → x.rply ≠ [] →
      ∃ t, exec (.portTrained n q a b c) s = .next t ∧ (t.port n q).st = .failed)) ∧
  (x.st = .dark → x.since + 1000000 * max 1 x.darkmax ≤ now → ∃ t, exec (.darkmaxExpiry n q) s = .next t ∧ (t.port n q).st = .failed) ∧
  (x.st ≠ .dark ∨ now < x.since + 1000000 * max 1 x.darkmax → exec (.darkmaxExpiry n q) s = .next s) ∧
  (x.st = .relock → x.since + 1000000 ≤ now → ∃ t, exec (.relockTimeout n q) s = .next t ∧ (t.port n q).st = .failed) ∧
  (x.st ≠ .relock ∨ now < x.since + 1000000 → exec (.relockTimeout n q) s = .next s)

/-- Wavelengths (R199, R200, R211): a source that has failed by its errors or by its light begins a change where it carries data, or fails a port left
with fewer than four; an unused spare only falls; a failure during a change waits; a change is asked for, acknowledged and made, in that order; a
lit source ages (its weight: log 135), and a failed one keeps its hours; neither end of a link takes a failed source of its own into service. -/
def Obligations.WavelengthsChange : Prop := ∀ (s : State) (n q : Nat) (x : Port), NMap.find? s.ports (portIx n q) = some x → n < 25 → q < 12 →
  (∀ k e, s.errorsHigh n q k e = false → s.lightLow n q k = false → exec (.sourceFailure n q ⟨k, e⟩) s = .next s) ∧
  (∀ k e, x.st ≠ .absent → k < 9 → x.failedSources.contains k = false → s.errorsHigh n q k e = true ∨ s.lightLow n q k = true →
    ∃ t, exec (.sourceFailure n q ⟨k, e⟩) s = .next t ∧ (t.port n q).failedSources = x.failedSources ++ [k] ∧ t.boot.replace = true ∧ t.mem = s.mem ∧
      (x.change = none → bit x.wlmask k = true → 4 < x.usable → (t.port n q).change = some (k, 0) ∧ (t.port n q).wlmask = x.wlmask) ∧
      (x.change = none → bit x.wlmask k = true → x.usable ≤ 4 → x.st ≠ .failed → (t.port n q).st = .failed) ∧
      (x.change = none → bit x.wlmask k = false → (t.port n q).spare = (x.spare && k != 8) ∧ (t.port n q).wlmask = x.wlmask) ∧
      (x.change.isSome = true → (t.port n q).changeQueue = x.changeQueue ++ [k] ∧ (t.port n q).wlmask = x.wlmask)) ∧
  (∀ k, x.change = some (k, 0) →
    (s.mgmtArrived n q 2 = false → exec (.wavelengthChangeRequest n q) s = .next s) ∧
    (s.mgmtArrived n q 2 = true → ∃ t, exec (.wavelengthChangeRequest n q) s = .next t ∧ { t with ports := s.ports } = s ∧
      (t.port n q).change = some (k, 1))) ∧
  (∀ k, x.change = some (k, 1) →
    ((∃ m, farEnd n q = some m ∧ s.mgmtArrived m.1 m.2 3 = false) → exec (.wavelengthChangeAck n q) s = .next s) ∧
    ((∀ m, farEnd n q = some m → s.mgmtArrived m.1 m.2 3 = true) → ∃ t, exec (.wavelengthChangeAck n q) s = .next t ∧ { t with ports := s.ports } = s ∧
      (t.port n q).change = some (k, 2) ∧ (t.port n q).dataHeld = true)) ∧
  (∀ k, x.change = some (k, 2) → x.changeQueue = [] → 4 ≤ maskCount (x.without k).wlmask →
    (∀ m, farEnd n q = some m → 4 ≤ maskCount ((s.port m.1 m.2).takeMask (x.without k).wlmask).wlmask) →
    ∃ t, exec (.wavelengthChangeComplete n q) s = .next t ∧ t.mem = s.mem ∧
      t.port n q = { x.without k with change := none, dataHeld := false, fover := min 0xFF (x.fover + 1) } ∧
      (∀ m z, farEnd n q = some m → NMap.find? s.ports (portIx m.1 m.2) = some z →
        t.port m.1 m.2 = z.takeMask (x.without k).wlmask ∧ ∀ w ∈ z.failedSources, bit (t.port m.1 m.2).wlmask w = false) ∧
      (bit x.wlmask k = true → (t.port n q).spare = false ∧
        (t.port n q).wlmask = setBits (setBits x.wlmask k k 0) 8 8 (if x.spare || (bit x.wlmask 8 && k != 8) then 1 else 0))) ∧
  ∀ k a b, k < 9 → x.st ≠ .absent → let ix := laserIx n q k
    (x.failedSources.contains k = true → exec (.laserAgeingRefresh n q k a b) s = .next (s.setReg .optLasa ix (a % 2 ^ 40))) ∧
    (x.failedSources.contains k = false →
      let s' := if x.st ≠ .dark ∧ x.st ≠ .failed ∧ bit x.wlmask k = true then s.ageLaser ix (bits a 39 32) else s
      ∃ t, exec (.laserAgeingRefresh n q k a b) s = .next t ∧ t.mem = s.mem ∧ t.reg .optLasa ix = a % 2 ^ 40 ∧
        t.reg .optLasb ix = s'.lasb ix (b / 2 ^ 32) ∧ t.boot.lit = s'.boot.lit ∧ t.boot.aged = s'.boot.aged)

/-- Packets at their target (R87, R365 to R367, R218): where the window admits the bytes and their pages the access, a put's payload is
written, then its counter gains the bytes, then a completion returns; a get returns the bytes; a `ratom` performs its operation once and
returns the old value; a notify adds to its counter or is refused. A window that does not admit the bytes answers with class 0x32. -/
def Obligations.PacketsAtTargets : Prop := ∀ (s : State) (id : Nat) (p : Packet) (n : Nat),
  let answered (t0 t : State) (kind : PacketKind) (bs : List Byte) : Prop := t.mem = t0.mem ∧ ∃ q, q.kind = kind ∧ q.payload = bs ∧
    q.place = .atRouter n ∧ q.route = backRoute p.back ∧ q.id = t0.fresh ∧ t.packets = t0.packets.filter (fun x => x.id != id) ++ [q]
  let added (t0 t : State) (kind : PacketKind) (bs : List Byte) : Prop :=
    (p.tcen = false → answered t0 t kind bs) ∧
    (∀ c va t1 ps, p.tcen = true → t0.targetWindow p n p.tcwin p.tcofs 16 = some (c, va) → t0.ctrUpdate c va (ctrAdd p.len) = .ok t1 ps →
      answered t1 t kind bs)
  let admits (t0 t1 : State) : Prop := (p.tcen = false ∧ t1 = t0) ∨
    (∃ c va ps, p.tcen = true ∧ t0.targetWindow p n p.tcwin p.tcofs 16 = some (c, va) ∧ (t0.engResolve c .counter [(va, 16)]).1 = .ok t1 ps)
  (s.atTarget id .putData = some (p, n) → p.ret = true → ∃ t, exec (.putPacketAtTarget id) s = .next t ∧ added s t .completion []) ∧
  (∀ c va s1 ps1 s2 s3 ps, s.atTarget id .putData = some (p, n) → p.ret = false →
    s.targetWindow p n p.win p.ofs p.payload.length = some (c, va) → (s.engResolve c .write [(va, p.payload.length)]).1 = .ok s1 ps1 →
    admits s1 s2 → s2.engAccess c .write [(va, p.payload.length)] = .ok s3 ps →
    let w := (s3.engWrite c .write ps p.payload).setPacket { p with ret := true, since := none }
    ∃ t, exec (.putPacketAtTarget id) s = .next t ∧ added w t .completion []) ∧
  (∀ c va s1 ps, s.atTarget id .getRequest = some (p, n) → s.targetWindow p n p.win p.ofs p.len = some (c, va) →
    s.engAccess c .read [(va, p.len)] = .ok s1 ps →
    ∃ t, exec (.getRequestAtTarget id) s = .next t ∧ answered s1 t .getData (s1.engBytes ps)) ∧
  (s.atTarget id .ratomReq = some (p, n) → p.payload ≠ [] → ∃ t, exec (.ratomAtTarget id) s = .next t ∧ added s t .ratomResult p.payload) ∧
  (∀ c va s1 ps1 s2 s3 ps, s.atTarget id .ratomReq = some (p, n) → p.payload = [] →
    s.targetWindow p n p.win p.ofs p.len = some (c, va) → (s.engResolve c .ratom [(va, p.len)]).1 = .ok s1 ps1 →
    admits s1 s2 → s2.engAccess c .ratom [(va, p.len)] = .ok s3 ps →
    let old := s3.engBytes ps
    let w := ((match p.op.new (valueOf old) with
      | some v => s3.engWrite c .ratom ps (bytesOf p.len v)
      | none => s3).farSeen c ps).setPacket { p with payload := old, since := none }
    ∃ t, exec (.ratomAtTarget id) s = .next t ∧ added w t .ratomResult old) ∧
  (∀ ev kind size, (ev = .putPacketAtTarget id ∧ kind = .putData ∧ size = p.payload.length ∧ p.ret = false) ∨
      (ev = .getRequestAtTarget id ∧ kind = .getRequest ∧ size = p.len) ∨ (ev = .ratomAtTarget id ∧ kind = .ratomReq ∧ size = p.len ∧ p.payload = []) →
    s.atTarget id kind = some (p, n) → s.targetWindow p n p.win p.ofs size = none →
    ∃ t q, exec ev s = .next t ∧ t.mem = s.mem ∧ t.packets = s.packets.filter (fun x => x.id != p.id) ++ [q] ∧ q.kind = .errorNotice ∧ q.cls = 0x32) ∧
  (s.atTarget id .notify = some (p, n) → n < 24 →
    let v := s.reg .islNctr (nctrIx n p.ofs)
    (bit v 47 = true ∧ bits v 46 40 = p.part →
      ∃ t, exec (.notifyAddition id) s = .next t ∧ t.mem = s.mem ∧ t.packets = s.packets.filter (fun x => x.id != id) ∧
        bits (t.reg .islNctr (nctrIx n p.ofs)) 31 0 = min (2 ^ 32 - 1) (bits v 31 0 + p.len)) ∧
    (¬ (bit v 47 = true ∧ bits v 46 40 = p.part) →
      ∃ t q, exec (.notifyAddition id) s = .next t ∧ t.mem = s.mem ∧ t.packets = s.packets.filter (fun x => x.id != id) ++ [q] ∧
        q.kind = .errorNotice ∧ q.cls = 0x32)) ∧
  ∀ island counter v, ∃ t, exec (.islNctrWrite island counter v) s = .next t ∧ t.mem = s.mem ∧
    let a := s.reg .islNctr (nctrIx island counter)
    let b := t.reg .islNctr (nctrIx island counter)
    bits b 31 0 = bits v 31 0 ∧ bits b 47 40 = bits v 47 40 ∧ bit b 32 = (bit a 32 && !s.clears .islNctr (nctrIx island counter) 32 v)

/-- Answers at their source (R207, R214, R366, R367, R381): a completion or a get's bytes, once written, are counted and end a packet of their
command; a `ratom`'s s register takes the old value, unless the warp's GEN has changed (R99); an error notice stops its warp with the class it
carries, even where the warp of a `notify` has left since; a retry notice takes the packet back, and 16 µs later it is sent again; a transfer of software
whose rank was HELD starts anew. RES is written whatever the counter's access then answers. Software of the control-die cores has its answers returned (R16). -/
def Obligations.AnswersAtSources : Prop := ∀ (s : State) (id : Nat) (p : Packet) (n : Nat),
  let ended (t0 t : State) : Prop := t.mem = t0.mem ∧ t.packets = t0.packets.filter (fun x => x.id != id) ∧
    ∀ q, q = 0 ∨ q = 1 ∨ q = 2 → ((t.warp p.warp).queue q).map (fun c => (c.id, c.inFlight)) =
      ((t0.warp p.warp).queue q).map fun c => (c.id, if c.id = p.cmd then c.inFlight - 1 else c.inFlight)
  (∀ kind ev, (kind = .completion ∧ ev = .sourceCounterAdvance id) ∨ (kind = .getData ∧ ev = .getDataReturn id) ∨
      (kind = .ratomResult ∧ ev = .ratomResultReturn id) ∨ (kind = .errorNotice ∧ ev = .errorNotice id ∧ p.ofResp = false) →
    s.atTarget id kind = some (p, n) → p.origin = 2 →
    exec ev s = .next (s.toSoftware p (if kind = .errorNotice then p.cls else 0))) ∧
  (s.atTarget id .completion = some (p, n) → p.origin = 0 → p.scen = false → ∃ t, exec (.sourceCounterAdvance id) s = .next t ∧ ended s t) ∧
  (∀ w c s1 ps, s.atTarget id .completion = some (p, n) → p.origin = 0 → p.scen = true → s.cmdOf p.cmd = some (w, c) → c.lineFault = none →
    s.ctrUpdate (s.sourceSite p n) p.scva (ctrAdd p.len) = .ok s1 ps → ∃ t, exec (.sourceCounterAdvance id) s = .next t ∧ ended s1 t) ∧
  (∀ w c s1 ps, s.atTarget id .getData = some (p, n) → p.origin = 0 → s.cmdOf p.cmd = some (w, c) → c.lineFault = none → p.ret = false → p.scen = false →
    s.engAccess (s.warpSite w) .write (cutAt 256 ((recVA c.brec.toNat ((c.sv.getD 2 0 : Nat) : Int) + (p.ofs - xferRofs c.sv)) % 2 ^ 48)
      p.payload.length 3) = .ok s1 ps →
    ∃ t, exec (.getDataReturn id) s = .next t ∧ t.mem = (s1.engWrite (s.warpSite w) .write ps p.payload).mem ∧ ∀ x ∈ t.packets, x.id ≠ id) ∧
  (∀ w c, s.atTarget id .ratomResult = some (p, n) → p.origin = 0 → s.cmdOf p.cmd = some (w, c) → p.scen = false →
    ∃ t, exec (.ratomResultReturn id) s = .next t ∧ t.mem = s.mem ∧ t.packets = s.packets.filter (fun x => x.id != id) ∧
      ∀ r, (t.warp w).sreg r = if p.ret = true ∧ p.gen = (s.warp w).gen.toNat ∧ r = p.res then BitVec.ofNat 64 (valueOf p.payload) else (s.warp w).sreg r) ∧
  (∀ w c, s.atTarget id .ratomResult = some (p, n) → p.origin = 0 → s.cmdOf p.cmd = some (w, c) → p.ret = true → p.gen = (s.warp w).gen.toNat →
    ∃ t, exec (.ratomResultReturn id) s = .next t ∧ (t.warp w).sreg p.res = BitVec.ofNat 64 (valueOf p.payload)) ∧
  (s.atTarget id .errorNotice = some (p, n) → p.ofResp = false → p.origin = 0 → p.record = [] → (NMap.find? s.grids p.grid).isSome = true →
    (NMap.find? s.warps p.warp).isSome = true → (s.block (s.warp p.warp).block).saved = false → p.scen = false → (s.warp p.warp).stopped = false →
    ∀ w, (w = p.warp ∧ s.cmdOf p.cmd = none) ∨ (∃ c, s.cmdOf p.cmd = some (w, c)) → p.cls < 256 →
    ∃ t, exec (.errorNotice id) s = .next t ∧ t.mem = s.mem ∧ t.packets = s.packets.filter (fun x => x.id != id) ∧ Stopped s t w p.cls) ∧
  (∀ g, s.atTarget id .errorNotice = some (p, n) → p.ofResp = false → p.origin = 0 → p.record = [] → NMap.find? s.grids p.grid = some g →
    NMap.find? s.warps p.warp = none → g.endCode = 0 → p.cls < 256 →
    ∃ t r, exec (.errorNotice id) s = .next t ∧ t.mem = s.mem ∧ t.packets = s.packets.filter (fun x => x.id != id) ∧
      ((t.isl g.island).onchip ++ (t.isl g.island).waitPost).getLast? = some r ∧ recBits r 0 7 0 = p.cls ∧ recBits r 0 15 8 = 2 ∧
      (p.issuer.1 < 256 → p.issuer.2.1 < 256 → recBits r 0 47 32 = p.grid % 65536) ∧ (t.grid p.grid).endClass = p.cls) ∧
  (s.atTarget id .retryNotice = some (p, n) → (p.origin = 0 ∧ (s.cmdOf p.cmd).isSome = true) ∨ p.origin = 2 →
    ∃ t q, exec (.retryNotice id) s = .next t ∧ t.packet? id = some q ∧ q.place = .retryWait (s.gaugeTime n + 16000) ∧ q.src = n ∧
      q.payload = p.payload ∧ q.kind = if p.cls = 1 then .putData else if p.cls = 2 then .getRequest else .ratomReq) ∧
  (∀ k, s.packet? id = some p → p.place = .retryWait k → ¬ (p.origin = 2 ∧ p.res = 2 ^ 32) →
    exec (.retryResend id) s = .next (if k ≤ s.gaugeTime p.src then s.setPacket { p with place := .atRouter p.src } else s)) ∧
  (∀ k, s.packet? id = some p → p.place = .retryWait k → p.origin = 2 → p.res = 2 ^ 32 → exec (.retryResend id) s = .next (s.softStart p)) ∧
  ∀ job island rank v, ∃ t, exec (.rankEntryWrite job island rank v) s = .next t ∧ t.mem = s.mem ∧
    NMap.getD t.ranks (rankKey job island (rank % 65536)) 0 = v % 2 ^ 64 ∧ rank % 65536 < t.nranksOf job

/-- The Map Keeper (R137, R139, R148, R152 to R156, R158): the request at a ring's head whose operation is an event's is refused with its cause, or has
its effect: pages are mapped, unmapped or given new permissions or a new type (with every frame that an alias ties to theirs), frames move in the
stretches that their largest pages make (log 37), address spaces come and go; its answer then
enters dwords 6 and 7 of the record and HEAD advances. -/
def Obligations.MapKeeperServes : Prop := ∀ (s : State) (p island : Nat), p < 128 → island < 24 →
  let ops : List (Instr × Nat) := [(.map p island, 1), (.unmap p island, 2), (.protect p island, 3), (.chtype p island, 4),
    (.migrate p island, 5), (.asidget p island, 6), (.asidput p island, 7)]
  let asked (op : Nat) (s1 : State) (r : List Word) : Prop := s.boot.starting = false ∧
    s.mapJobs.find? (fun j => j.part == p && j.island == island) = none ∧ s.rqHead p island ≠ s.rqTail p island ∧ reqOp r = op ∧
    ∃ site va ps, s.rqSite p island = (site, va) ∧ s.engAccess site .read [(va, 64)] = .ok s1 ps ∧
      r = (List.range 8).map fun k => BitVec.ofNat 64 (fieldAt (s1.engBytes ps) (8 * k) 8)
  let waits (op : Nat) (j : MapJob) : Prop := s.boot.starting = false ∧
    s.mapJobs.find? (fun j => j.part == p && j.island == island) = some j ∧ j.op = op
  let due (t : State) (d6 d7 : Nat) : Prop := ∃ j ∈ t.mapJobs, j.part = p ∧ j.island = island ∧ j.answer = true ∧ j.dword6 = d6 ∧ j.dword7 = d7
  let aligned (ms : List MapEntry) : Prop := ∀ m ∈ ms, m.pa % 8 = 0
  (∀ x ∈ ops, ∀ s1 r, asked x.2 s1 r → s1.reqCause p island r ≠ 0 →
    ∃ t, exec x.1 s = .next t ∧ { t with mapJobs := s1.mapJobs } = s1 ∧ due t (0x70 + s1.reqCause p island r * 2 ^ 8) 0) ∧
  (∀ x ∈ ops, ∀ j site va s1 ps, waits x.2 j → j.answer = true → s.rqSite p island = (site, va) →
    s.engAccess site .write [(va + 48, 16)] = .ok s1 ps →
    ∃ t, exec x.1 s = .next t ∧ t.mem = (s1.engWrite site .write ps (bytesOf 8 j.dword6 ++ bytesOf 8 j.dword7)).mem ∧
      t.reg .mapkRqhead (partIx p island) = (s1.rqHead p island + 1) % s1.rqSize p island ∧
      ∀ y ∈ t.mapJobs, ¬ (y.part = p ∧ y.island = island)) ∧
  (∀ s1 r, asked 1 s1 r → s1.reqCause p island r = 0 →
    ∃ t, exec (.map p island) s = .next t ∧ due t 1 0 ∧ t.maps.map (fun m => (m.island, m.asid, m.va, m.sizeLog)) =
      s1.maps.map (fun m => (m.island, m.asid, m.va, m.sizeLog)) ++ (reqPages r (reqVa r)).map fun a => (island, reqAsid r, a, reqLog r)) ∧
  (∀ s1 r, asked 2 s1 r → s1.reqCause p island r = 0 →
    let ms := s1.reqMaps island r
    ∃ t, exec (.unmap p island) s = .next t ∧ t.maps = s1.maps.filter (fun m => !ms.contains m) ∧ ∀ m ∈ ms, t.leafOf m = 0) ∧
  (∀ s1 r, asked 3 s1 r → s1.reqCause p island r = 0 → aligned (s1.reqMaps island r) →
    ∃ t, exec (.protect p island) s = .next t ∧ t.maps = s1.maps ∧
      ∀ m ∈ s1.reqMaps island r, t.leafOf m = setBits (s1.leafOf m) 8 6 (reqRwx r)) ∧
  (∀ s1 r, asked 4 s1 r → s1.reqCause p island r = 0 → aligned s1.maps →
    ∃ t, exec (.chtype p island) s = .next t ∧ t.maps = s1.maps ∧ ∀ f ∈ s1.tiedFrames island (s1.reqMaps island r),
      ∀ m ∈ s1.mapsOf island f.pa f.size, leafTransit (t.leafOf m) = true) ∧
  (∀ s1 r, asked 5 s1 r → s1.reqCause p island r = 0 → aligned s1.maps →
    let gs := s1.stretches island (s1.tiedFrames island (s1.reqMaps island r))
    ∃ t, exec (.migrate p island) s = .next t ∧ t.dual = (s1.openWindows p island (reqIsland r) gs).dual ∧ t.maps = s1.maps ∧
      ((∀ g ∈ gs, s1.framesIn island g.pa g.size = [Frame.mk (reqIsland r) g.pa g.size g.part]) → t.dual.length = s1.dual.length + gs.length)) ∧
  (∀ s1 r, asked 6 s1 r → s1.reqCause p island r = 0 →
    ∃ t a gen, exec (.asidget p island) s = .next t ∧ a < 4096 ∧ NMap.find? s1.asids (island * 4096 + a) = none ∧
      NMap.find? t.asids (island * 4096 + a) = some (p, gen) ∧ due t 1 (a + gen * 4096)) ∧
  (∀ s1 r, asked 7 s1 r → s1.reqCause p island r = 0 →
    ∃ t, exec (.asidput p island) s = .next t ∧ t.maps = s1.maps.filter fun m => !(m.island == island && m.asid == reqAsid r)) ∧
  (∀ j, waits 2 j ∨ waits 7 j → j.answer = false →
    (s.dropSpans island j.frames).framesQuiet island j.frames = true →
    ∃ t, exec (if j.op = 2 then .unmap p island else .asidput p island) s = .next t ∧ t.mem = s.mem ∧ due t j.dword6 j.dword7 ∧
      (j.op = 7 → NMap.find? t.asids (island * 4096 + j.asid) = none)) ∧
  (∀ j, waits 3 j → j.answer = false → (s.cleanSpans island j.frames).framesQuiet island j.frames = true →
    ∃ t, exec (.protect p island) s = .next t ∧ t.mem = s.mem ∧ due t j.dword6 j.dword7) ∧
  (∀ j, waits 4 j → j.answer = false → aligned s.maps →
    let s1 := s.dropSpans island j.frames
    s1.msgsQuiet island j.frames = true → s1.rtsPassed island j.frames = true →
    (s1.redNames island j.frames = true → exec (.chtype p island) s = .next (s1.drainFrames island j.frames)) ∧
    (s1.redNames island j.frames = false → ∃ t, exec (.chtype p island) s = .next t ∧ due t j.dword6 j.dword7 ∧ ∀ m ∈ s.maps, m.island = island → m.pa ∈ j.leaves →
      leafTransit (t.leafOf m) = false ∧ bits (t.leafOf m) 5 2 = bits j.leaf 5 2 ∧ bits (t.leafOf m) 18 11 = bits j.leaf 18 11)) ∧
  (∀ j, waits 5 j → j.answer = false → (∀ d ∈ s.dual, ¬ (d.part = p ∧ d.island = island)) →
    ∃ t, exec (.migrate p island) s = .next t ∧ t.mem = s.mem ∧ due t j.dword6 j.dword7)

/-- Rings and windows of the Map Keeper (R139, R152): RQTAIL takes an index ahead of it in the ring, RQBASE is ignored while records wait; a window is
copied a word at a time, once ITIME at the new home admits the write, but where a mirrored write went before, and is switched once it is copied and
quiet; the old home's floors keep the rts of the words that leave. -/
def Obligations.RingsAndWindows : Prop := ∀ s : State,
  (∀ p island v, let n := s.rqSize p island
    let h := s.rqHead p island
    let dist (x : Nat) : Nat := (x + n - h % n) % n
    exec (.mapkRqtailWrite p island v) s = .next (if v % 65536 < n ∧ dist (s.rqTail p island) ≤ dist (v % 65536) then
      s.setReg .mapkRqtail (partIx p island) (v % 65536) else s)) ∧
  (∀ p island v, exec (.mapkRqbaseWrite p island v) s = .next (if s.rqHead p island = s.rqTail p island then
    s.setReg .mapkRqbase (partIx p island) (bits v 47 6 * 2 ^ 6 + bits v 63 48 * 2 ^ 48) else s)) ∧
  (∀ k d, s.dual[k]? = some d → 4 * d.copied < d.size →
    let a := hbmAddr d.island d.oldPa + 4 * d.copied
    let b := hbmAddr d.newIsland d.newPa + 4 * d.copied
    let free := s.tsFree d.newIsland (s.frameType d.island (d.oldPa, d.size)) [b / 4]
    (d.mirrored.contains (a / 4) = false → free = false → exec (.mapkCopy k d.copied) s = .next s) ∧
    (d.mirrored.contains (a / 4) = true ∨ free = true →
      ∃ t, exec (.mapkCopy k d.copied) s = .next t ∧ t.dual[k]? = some { d with copied := d.copied + 1 } ∧
        t.readMem b 4 = (if d.mirrored.contains (a / 4) then s.readMem b 4 else s.readMem a 4) ∧
        (d.mirrored.contains (a / 4) = false → (t.dirWord d.newIsland (b / 4)).wts = s.itime d.newIsland) ∧
        ∀ x, x < b ∨ b + 4 ≤ x → Memory.read t.mem x = Memory.read s.mem x)) ∧
  ∀ k d, s.dual[k]? = some d → d.size ≤ 4 * d.copied → s.boot.starting = false →
    (s.dropSpans d.island [(d.oldPa, d.size)]).framesQuiet d.island [(d.oldPa, d.size)] = true →
    ∃ t, exec (.switchMessage k) s = .next t ∧ t.dual = s.dual.eraseIdx k ∧
      (∀ e ∈ t.dir, wordIn d.island [(d.oldPa, d.size)] e.1 = false) ∧
      ∀ e ∈ s.dir, wordIn d.island [(d.oldPa, d.size)] e.1 = true → e.2.rts ≤ (t.dirWord d.island e.1).rts ∧
        ∀ w, wordIn d.newIsland [(d.newPa, d.size)] w = true → e.2.rts ≤ (t.dirWord d.newIsland w).rts

/-- Clocks and tables (R141, R162, R171, R172, R174): an island that loses its reference enters HOLD with every descendant, the children of a forwarder
whose transmit side fails with theirs, every island with node 24's reference; one leaves HOLD at its parent's reference, PTIME at panel time and ITIME never set back; a staged or built table is asked of every verifier; where one rejects it, the attempt is aborted with its node and cause, and made again, fenced, or
given up (log 133); it is in force, each core with the width it has had (log 106), at its commit instant, 2 µs after all accepted. A GO written during a
start does nothing (log 127), and its bit reads 1 in its own core clock (log 118). -/
def Obligations.ClocksAndTables : Prop := ∀ s : State,
  (∀ n side, n ≠ 24 → s.topo.live n = false → exec (.referenceLoss ⟨n, side⟩) s = .next s) ∧
  (∀ n side, n ≠ 24 → s.topo.live n = true → side ≠ 1 → ∃ t, exec (.referenceLoss ⟨n, side⟩) s = .next t ∧ t.mem = s.mem ∧
    (t.isl n).reference = false ∧ (side = 2 → (t.isl n).rxFailed = true) ∧
    ∀ k, k < 24 → if s.topo.live k = true ∧ s.descends n 9 k = true then (t.isl k).inHold = true ∧ (t.isl k).orphan = true
      else k = n ∨ t.isl k = s.isl k) ∧
  (∀ n, n ≠ 24 → s.topo.live n = true → ∃ t, exec (.referenceLoss ⟨n, 1⟩) s = .next t ∧ t.mem = s.mem ∧ (t.isl n).txFailed = true ∧
    ∀ c ∈ s.clockChildren n, (t.isl c).reference = false ∧
      ∀ k, k < 24 → s.topo.live k = true → s.descends c 9 k = true → (t.isl k).inHold = true ∧ (t.isl k).orphan = true) ∧
  (∀ side, ∃ t, exec (.referenceLoss ⟨24, side⟩) s = .next t ∧ t.mem = s.mem ∧ t.rootLost = true ∧
    ∀ k, k < 24 → s.topo.live k = true → (t.isl k).inHold = true ∧ (t.isl k).orphan = true) ∧
  exec (.islandRelock 24) s = .next { s with rootLost := false } ∧
  (∀ n, n ≠ 24 → (s.isl n).inHold = true → s.topo.live n = true → s.boot.starting = false → s.hasReference n = true →
    ∃ t, exec (.islandRelock n) s = .next t ∧ t.mem = s.mem ∧ (t.isl n).inHold = false ∧ (t.isl n).lock = true ∧ (t.isl n).ptime = s.cdItime ∧
      (t.isl n).itime = max (s.isl n).itime s.cdItime ∧ (t.isl n).fast = decide (s.cdItime < (s.isl n).itime)) ∧
  (∀ n, (s.isl n).fast = true → (s.isl n).itime ≤ (s.isl n).ptime →
    exec (.itimeCatchUp n) s = .next (s.setIsl n { s.isl n with fast := false })) ∧
  ((∃ n, n < 24 ∧ s.topo.live n = true ∧ (s.isl n).reference = false) → s.update = none → s.boot.starting = false → s.rootLost = false →
    ∃ t u, exec .reroot s = .next t ∧ t.mem = s.mem ∧ t.update = some u ∧ u.table.tver = s.boot.lastTver + 1 ∧ u.answers = [] ∧
      u.commitAt = none ∧ bits (t.reg .lkpTupd 0) 2 0 = 2) ∧
  (∀ v, bit v 0 = true → s.update = none → s.boot.starting = false →
    ∃ t u, exec (.lkpTstageGo v) s = .next t ∧ t.mem = s.mem ∧ t.update = some u ∧ u.asked = s.verifiers ∧ u.answers = [] ∧
      u.bytes = Memory.readN s.mem (lpddrAddr (bits v 47 6 * 2 ^ 6)) 1808 ∧ bits (t.reg .lkpTupd 0) 2 0 = 1) ∧
  (∀ v, bit v 0 = false ∨ s.update.isSome = true ∨ s.boot.starting = true →
    let s1 := s.setReg .lkpTstage 0 (bits v 47 6 * 2 ^ 6)
    exec (.lkpTstageGo v) s = .next (if bit v 0 = true then s1.command .lkpTstage 0 0 else s1)) ∧
  (∀ u n fault, s.update = some u → n ∈ u.asked →
    let cause := if s.boot.keyed.contains n then s.tableCause u.bytes u.fencing else 1
    ∃ t, exec (.tableVerify ⟨n, fault⟩) s = .next t ∧ { t with update := s.update, regs := s.regs } = s ∧
      t.update = some { u with
        asked := u.asked.filter (fun k => k != n), answers := u.answers ++ [(n, if cause = 0 ∧ fault = true then 6 else cause)] }) ∧
  (∀ u, s.update = some u → (∀ a ∈ u.answers, a.2 = 0) → u.answers ≠ [] → u.asked = [] → u.commitAt = none →
    ∃ t, exec .tableAnswer s = .next t ∧ t.mem = s.mem ∧ t.update = some { u with commitAt := some (s.cdItime + 2000) } ∧
      bits (t.reg .lkpTupd 0) 2 0 = 3) ∧
  (∀ u a, s.update = some u → u.answers.find? (fun a => a.2 != 0) = some a →
    ∃ t, exec .tableAnswer s = .next t ∧ { t with update := s.update, regs := s.regs } = s ∧ t.update = some { u with asked := [], answers := [] } ∧
      bits (t.reg .lkpTupd 0) 2 0 = 4 ∧ bits (t.reg .lkpTupd 0) 4 3 = bits (s.reg .lkpTupd 0) 4 3 ∧
      bits (t.reg .lkpTupd 0) 12 8 = a.1 % 32 ∧ bits (t.reg .lkpTupd 0) 23 16 = a.2 % 256) ∧
  (∀ u, s.update = some u → u.answers = [] → u.asked = [] → u.commitAt = none →
    let tries := bits (s.reg .lkpTupd 0) 4 3
    let node := bits (s.reg .lkpTupd 0) 12 8
    (tries < 3 → ∃ t, exec .tableAnswer s = .next t ∧ t.mem = s.mem ∧ bits (t.reg .lkpTupd 0) 2 0 = 2 ∧ bits (t.reg .lkpTupd 0) 4 3 = tries + 1 ∧
      t.update = some { u with asked := s.verifiers.filter fun n => !u.fencing || n == 24 || u.table.live n }) ∧
    (tries = 3 → s.fencingFor u node = none → exec .tableAnswer s = .next (s.giveUp u) ∧ (s.giveUp u).mem = s.mem ∧
      ∀ v, (s.giveUp u).update = some v → v.answers = [] ∧ v.commitAt = none ∧ v.table.tver = s.boot.lastTver + 1) ∧
    ∀ x, tries = 3 → s.fencingFor u node = some x → ∃ t v, exec .tableAnswer s = .next t ∧ t.mem = s.mem ∧ t.update = some v ∧ v.fencing = true ∧
      v.table = { x with tver := s.boot.lastTver + 1 } ∧ v.answers = [] ∧ v.commitAt = none) ∧
  ∀ u k, s.update = some u → u.commitAt = some k →
    (s.cdItime < k → exec .tableCommit s = .next s) ∧
    (k ≤ s.cdItime → ∃ t, exec .tableCommit s = .next t ∧ t.boot.lastTver = u.table.tver ∧
      t.topo = { s.keepWidths u.table with digest := (u.bytes.drop 1664).take 48 } ∧ t.meas 2 = sha384 (s.meas 2 ++ (u.bytes.drop 1664).take 48))

/-- Partitions (R388 to R399): each register of a partition takes a write that keeps its rule, and no other; a period boundary gives a bucket its
ALLOT and banks what was left, up to CAPP allotments. -/
def Obligations.PartitionRegisters : Prop := ∀ (s : State) (p island v : Nat), 0 < p → p < 128 → island < 24 →
  let a := bits v 10 4
  let cfg := s.reg .partCfg p
  let parentOk : Prop := a = 0 ∨ (a ≠ p ∧ s.partValid a = true ∧ s.parent a = 0)
  let fits (t : State) : Prop := ∀ n, n < 24 → t.sharesFit a n = true
  let shared := s.setReg .partShare (partIx p island) (bits v 15 0 + bits v 29 16 * 2 ^ 16 + bits v 41 32 * 2 ^ 32)
  (s.partValid p = true → exec (.partCfgWrite p v) s = .next (if bit v 0 = true ∨ s.partUsed p = true then s else s.setReg .partCfg p (setBits cfg 0 0 0))) ∧
  (s.partValid p = false → bit v 0 = false → exec (.partCfgWrite p v) s = .next (s.setReg .partCfg p (a * 2 ^ 4))) ∧
  (s.partValid p = false → bit v 0 = true → parentOk → fits (s.setReg .partCfg p (1 + a * 2 ^ 4)) →
    ∃ t, exec (.partCfgWrite p v) s = .next t ∧ t.reg .partCfg p = 1 + a * 2 ^ 4 ∧ t.pmeas p = List.replicate 48 0 ∧ t.mem = s.mem) ∧
  (s.partValid p = false → bit v 0 = true → ¬ (parentOk ∧ fits (s.setReg .partCfg p (1 + a * 2 ^ 4))) →
    exec (.partCfgWrite p v) s = .next s) ∧
  (let old := s.clmask p island
   let new := bits v 19 0
   let clash := ∃ k, k < 20 ∧ bit new k = true ∧ bit old k = false ∧ ((∃ q ∈ s.childrenOf (s.parent p), q ≠ p ∧ bit (s.clmask q island) k = true) ∨
     (s.parent p ≠ 0 ∧ bit (s.clmask (s.parent p) island) k = false))
   (s.sliceBusy p island = true ∨ clash → exec (.partSliceWrite p island v) s = .next s) ∧
   (s.sliceBusy p island = false → ¬ clash → ∃ t, exec (.partSliceWrite p island v) s = .next t ∧ t.mem = s.mem ∧
     t.reg .partSlice (partIx p island) = bits v 20 0 ∧
     ∀ c ∈ s.childrenOf p, c ≠ p → bits (t.reg .partSlice (partIx c island)) 19 0 = bits (s.reg .partSlice (partIx c island)) 19 0 &&& new)) ∧
  exec (.partSliceWrite 0 island v) s = .next (if s.sliceBusy 0 island then s else s.setReg .partSlice (partIx 0 island) (bits v 20 20 * 2 ^ 20)) ∧
  exec (.partShareWrite p island v) s = .next (if shared.sharesFit p island && shared.sharesFit (s.parent p) island then shared else s) ∧
  (let u := s.part p island
   let cap := if s.parent p = 0 then 0xFFFFFFFF else bits (s.reg .partBud (partIx (s.parent p) island)) 31 0
   ∃ t, exec (.partBudWrite p island v) s = .next t ∧ t.mem = s.mem ∧
     t.reg .partBud (partIx p island) = min cap (bits v 31 0) + bits v 35 32 * 2 ^ 32 ∧
     (t.part p island).bank = if bits v 35 32 < bits (s.reg .partBud (partIx p island)) 35 32 then min u.bank (bits v 35 32 * u.allot) else u.bank) ∧
  exec (.partToffWrite p v) s = .next (s.setReg .partToff p (v % 2 ^ 64)) ∧
  (∀ n, n < 24 → exec (.partPresWrite p 24 n v) s = .next (s.setReg .partIpres (partIx p n) (bits v 5 0))) ∧
  (∀ n, n < 160 → let k := bits v 7 0
    s.topo.live island = true → k < 160 → s.coreCode island k ≠ 3 → bit (s.clmask p island) (k / 8) = true →
    ∃ t, exec (.partPresWrite p island n v) s = .next t ∧ t.mem = s.mem ∧ t.reg .partPres (presIx p island n) = bits v 8 0) ∧
  ∃ t, exec (.budgetPeriodBoundary island) s = .next t ∧ { t with parts := s.parts } = s ∧
    let u := s.part p island
    let b := s.reg .partBud (partIx p island)
    t.part p island = { u with allot := bits b 31 0, cur := bits b 31 0, bank := min (min (u.bank + u.cur) (bits b 35 32 * bits b 31 0)) 0xFFFFFFFF }

/-- The root of trust (R263 to R267, R401 to R403): requests for a report queue once, the oldest is answered with the report's body and its signature;
with the attestation key of this start; keys are enrolled until they are locked, and the lock extends ROT_MEAS3; a refused image leaves nothing behind, a loaded one is listed with
its islands' numbers and extends its partition's measurement. -/
def Obligations.RootOfTrust : Prop := ∀ s : State,
  (∀ p, p ≥ 128 ∨ s.partValid p = false → exec (.attestationRequest p) s = .next s) ∧
  (∀ p, p < 128 → s.partValid p = true → exec (.attestationRequest p) s = .next (if s.boot.atReqs.contains p then s.command .rotAtreq p 0
    else { s.command .rotAtreq p 0 with boot := { s.boot with atReqs := s.boot.atReqs ++ [p] } })) ∧
  (∀ p rest, s.boot.atReqs = p :: rest → ∃ t, exec .attestationReport s = .next t ∧ { t with boot := s.boot } = s ∧ t.boot.atReqs = rest ∧
    NMap.find? t.boot.atBuf p = some (s.reportBody p ++ pad 96 (Config.sign s.boot.attKey (sha384 (s.reportBody p))))) ∧
  (∀ k key, ∃ t, exec (.imageKeyEnrol k key) s = .next t ∧ { t with boot := s.boot } = s ∧
    t.boot.keys = if k < 8 ∧ s.boot.keyLock = false then NMap.set s.boot.keys k key else s.boot.keys) ∧
  (s.boot.keyLock = true → exec .imageKeyLock s = .next s) ∧
  (s.boot.keyLock = false → ∃ t, exec .imageKeyLock s = .next t ∧ { t with boot := s.boot } = s ∧ t.boot.keyLock = true ∧
    t.meas 3 = sha384 (s.meas 3 ++ s.boot.keys.flatMap fun k => bytesOf 1 k.1 ++ bytesOf 96 k.2)) ∧
  ∀ p island asid job image, let ev : Instr := .belyelImageLoad ⟨p, island, asid, job⟩ image
    (s.imgOk p image = false ∨ s.topo.live island = false → exec ev s = .next s) ∧
    (s.imgOk p image = true → s.topo.live island = true →
      (s.loadImage p island asid job image = none → exec ev s = .next s) ∧
      ∀ t, s.loadImage p island asid job image = some t →
        exec ev s = .next { t with boot := { t.boot with pmeas := NMap.set t.boot.pmeas p (sha384 (s.pmeas p ++ sha384 image)) } } ∧
        ∃ l, t.images = s.images ++ [l] ∧ l.part = p ∧ l.island = island ∧ l.asid = asid ∧ l.job = job ∧
          ∀ x ∈ l.ovls, x.2.1 ∈ lowestFree (s.ovlsLoaded island asid) 0 (imgRecords image 24 12 2 16).length)

/-- The gauge's own events (R226 to R231, R235 to R239): an event is offered to the attachments it matches; the queue's head begins a run with its
payload, names and time in h0 to h2 and the rest 0, or is dropped for budget; an ended run fires its triggers in the order of their issue: `ntfy` adds
to its counter, `irq` posts its vector and sets IPEND unless it stands, `frz` freezes the ring; an attachment is enabled once its program is verified; windows and budgets keep their rules. -/
def Obligations.GaugeEvents : Prop := ∀ (s : State) (g n v : Nat), g < 25 → n < 128 →
  let x := s.gauge g
  let ix := gaugeIx g n
  (∀ code unit part payload, (gaugeCodes g).contains code = true → n < 16 → attMatches (s.reg .tgpAtt ix) code unit part = true →
    ∃ t, exec (.gaugeEvent g code unit part payload) s = .next t ∧ t.mem = s.mem ∧ ((t.gauge g).att n).count = (x.att n).count + 1) ∧
  (∀ e rest, x.run = none → x.queue = e :: rest →
    let r := s.reg .tgpAtt (gaugeIx g e.att)
    let part := bits r 7 1
    ((∀ p ∈ s.charged part, 64 ≤ s.gaugeLeft g p) →
      ∃ t run, exec (.gaugeRunStart g) s = .next t ∧ t.mem = s.mem ∧ (t.gauge g).run = some run ∧ (t.gauge g).queue = rest ∧
        run.pc = bits r 31 20 ∧ run.part = part ∧ run.att = e.att ∧ run.executed = 0 ∧ run.triggers = [] ∧ run.get 0 = e.payload % 2 ^ 64 ∧
        run.get 1 = (e.code + e.unit * 2 ^ 8 + (e.part.getD 0) * 2 ^ 16 + (if e.part.isNone then 2 ^ 23 else 0) + e.att * 2 ^ 24) % 2 ^ 64 ∧
        (bit r 34 = false → run.get 2 = e.time % 2 ^ 64) ∧ ∀ k : BitVec 4, 2 < k.toNat → run.get k = 0) ∧
    ((∃ p ∈ s.charged part, s.gaugeLeft g p < 64) →
      ∃ t, exec (.gaugeRunStart g) s = .next t ∧ t.mem = s.mem ∧ (t.gauge g).run = none ∧ (t.gauge g).queue = rest)) ∧
  (∀ r, x.run = some r → x.ending = true → r.triggers = [] →
    exec (.gaugeRunEnd g) s = .next (s.setGauge g { x with run := none, ending := false })) ∧
  (∀ r, x.run = some r → x.ending = true →
    exec (.gaugeRunEnd g) s = .next (r.triggers.foldl (fun s t => s.fireTrigger g r t) (s.setGauge g { x with run := none, ending := false }))) ∧
  (∀ r : GaugeRun, r.att < 16 → r.part < 128 →
    (∀ c k, let i := if g = 24 then bits c 16 12 else g
      let w := s.reg .islNctr (nctrIx i (bits c 11 0))
      bit w 47 = true → bits w 46 40 = r.part →
        bits ((s.fireTrigger g r (.ntfy c k)).reg .islNctr (nctrIx i (bits c 11 0))) 31 0 = min (2 ^ 32 - 1) (bits w 31 0 + k)) ∧
    (∀ v, bit (s.reg .tgpAtt (gaugeIx g r.att)) 35 = true → s.fireTrigger g r (.irq v) = s) ∧
    (∀ v, bit (s.reg .tgpAtt (gaugeIx g r.att)) 35 = false → (s.fireTrigger g r (.irq v)).interrupts = s.interrupts ++ [(g, r.att, v)] ∧
      bit ((s.fireTrigger g r (.irq v)).reg .tgpAtt (gaugeIx g r.att)) 35 = true) ∧
    bit ((s.fireTrigger g r .frz).reg .tgpGwin (gaugeIx g r.part)) 24 = true) ∧
  (∀ r, x.run = some r → x.ending = true →
    ∃ t, exec (.gaugeRunEnd g) s = .next t ∧ t.mem = s.mem ∧ (t.gauge g).run = none ∧ (t.gauge g).ending = false ∧
      (Trigger.frz ∈ r.triggers → r.part < 128 → bit (t.reg .tgpGwin (gaugeIx g r.part)) 24 = true)) ∧
  (bit (s.reg .tgpAtt ix) 0 = true → exec (.tgpAttEnable g n v) s = .next (s.setReg .tgpAtt ix (s.ipendW1c ix v))) ∧
  (n < 16 → bit (s.reg .tgpAtt ix) 0 = false →
    ∃ t, exec (.tgpAttEnable g n v) s = .next t ∧ t.mem = s.mem ∧ ((t.gauge g).att n).verifying = true ∧
      bits (t.reg .tgpAtt ix) 32 1 = bits v 32 1 ∧ bit (t.reg .tgpAtt ix) 0 = false) ∧
  (n < 16 → (x.att n).verifying = true →
    let r := s.reg .tgpAtt ix
    let ok := verifyWalk s g (bits r 31 20) 64 0 [0] && !(bit r 34 && sharedCode (bits r 15 8))
    ∃ t, exec (.tgpAttVerifyEnd g n) s = .next t ∧ t.mem = s.mem ∧ ((t.gauge g).att n).verifying = false ∧ bit (t.reg .tgpAtt ix) 0 = (ok || bit r 0) ∧
      bit (t.reg .tgpAtt ix) 33 = !ok) ∧
  (n < 16 → ∃ t, exec (.tgpAttDisable g n v) s = .next t ∧ t.mem = s.mem ∧ bit (t.reg .tgpAtt ix) 0 = false ∧
    (t.gauge g).queue = x.queue.filter (fun e => e.att != n) ∧ (t.gauge g).held = x.held.filter fun h => h.2.att != n) ∧
  exec (.ipendClear g n) s = .next (s.setReg .tgpAtt ix (if (regKey .tgpAtt ix, 35) ∈ s.now.w1c then s.reg .tgpAtt ix
    else setBits (s.reg .tgpAtt ix) 35 35 0)) ∧
  (let clash := ∃ p, p < 128 ∧ p ≠ n ∧ windowsOverlap v (s.reg .tgpGwin (gaugeIx g p)) = true
   (64 < bits v 5 0 + bits v 14 8 ∨ clash → exec (.tgpGwinWrite g n v) s = .next s) ∧
   (bits v 5 0 + bits v 14 8 ≤ 64 → ¬ clash → ∃ t, exec (.tgpGwinWrite g n v) s = .next t ∧ t.mem = s.mem ∧
     let w := t.reg .tgpGwin ix
     bits w 5 0 = bits v 5 0 ∧ bits w 14 8 = bits v 14 8 ∧ bits w 21 16 = bits v 21 16 ∧ bits w 47 32 = 0)) ∧
  exec (.tgpBudWrite g 0 v) s = .next s ∧
  (0 < n → let cap := if s.parent n = 0 then 0xFFFFFF else bits (s.reg .tgpBud (gaugeIx g (s.parent n))) 23 0
    ∃ t, exec (.tgpBudWrite g n v) s = .next t ∧ { t with regs := s.regs } = s ∧ bits (t.reg .tgpBud ix) 23 0 = min cap (bits v 23 0) ∧
      bits (t.reg .tgpBud ix) 47 24 = bits (s.reg .tgpBud ix) 47 24) ∧
  (0 < n → ∃ t, exec (.gaugeBudgetPeriod g) s = .next t ∧ t.mem = s.mem ∧ bits (t.reg .tgpBud ix) 47 24 = bits (s.reg .tgpBud ix) 23 0) ∧
  ∀ p a b, ∃ t, exec (.gaugeMemoryWrite ⟨p, g⟩ a [b]) s = .next t ∧ { t with mem := s.mem } = s ∧
    ∀ x, Memory.read t.mem x = if x = gaugeAddr g a ∧ s.gaugeReach p g a = true ∧ (a < 2 ^ 18 ∨ s.progCovered g ((a - 2 ^ 18) / 4) = false) then b
      else Memory.read s.mem x

/-- Starts (R173, R175, R402, R404 to R407): a start requested during another is ignored, but a cold one wins over a warm one of the same clock; a start ends every grid, keeps memory unless power comes on,
and goes through its stages: the firmware that a recovery gave, else the one it finds, verified (log 140) and an attestation key made, the clocks in HOLD,
at least 21 islands that pass, the first table, then full function. Its command bit reads 1 in the core clock of the write (log 118). -/
def Obligations.StartsAndStages : Prop := ∀ s : State,
  let begun (t : State) (kind : Nat) : Prop := t.boot.starting = true ∧ t.boot.stage = 0 ∧ t.boot.kind = kind ∧ t.boot.fail = false ∧
    t.grids = [] ∧ t.warps = [] ∧ t.blocks = [] ∧ t.packets = [] ∧ t.msgs = [] ∧ t.boot.meas = [] ∧ t.boot.keys = [] ∧ t.boot.saved = s.boot.saved
  (∃ t, exec .powerOn s = .next t ∧ begun t 0 ∧ t.mem = []) ∧
  let wins := s.boot.kind = 1 ∧ s.boot.stage = 0 ∧ s.boot.begun = s.clk
  (s.boot.starting = true → exec .startWarm s = .next (s.command .startCtl 0 0) ∧ (¬ wins → exec .startCold s = .next (s.command .startCtl 0 1))) ∧
  (s.boot.starting = false → ∃ t, exec .startWarm s = .next t ∧ begun t 1 ∧ t.mem = s.mem) ∧
  (s.boot.starting = false ∨ wins →
    ∃ t, exec .startCold s = .next t ∧ begun t 0 ∧
      ∀ x, (∀ g, g < 25 → x < gaugeAddr g 0 ∨ gaugeAddr g 0 + 2 ^ 18 ≤ x) → Memory.read t.mem x = Memory.read s.mem x) ∧
  (∀ image sites dead, s.boot.starting = true → s.boot.stage = 0 → s.boot.fail = false →
    let img := if s.boot.image = [] then image else s.boot.image
    ∃ t, exec (.stage0 ⟨image, sites, dead⟩) s = .next t ∧ { t with boot := s.boot } = s ∧
      (firmwareOk img = true → t.boot.stage = 1 ∧ t.boot.fail = false ∧ t.boot.sites = sites ∧ t.boot.dead = dead ∧
        t.meas 0 = sha384 (s.meas 0 ++ sha384 img) ∧ t.boot.attKey = Config.attestationKey Config.deviceKey (t.meas 0)) ∧
      (firmwareOk img = false → t.boot.stage = 0 ∧ t.boot.fail = true ∧ t.boot.kind = 2)) ∧
  (∀ image, s.boot.starting = true → s.boot.fail = true → s.boot.kind = 2 → ∃ t, exec (.firmwareRecovery image) s = .next t ∧ begun t 0 ∧
    t.boot.image = image) ∧
  (s.boot.starting = true → s.boot.stage = 1 → ∃ t, exec .stage1 s = .next t ∧ t.boot.stage = 2 ∧ t.cdItime = 0 ∧ t.mem = s.mem ∧
    ∀ n, n < 24 → (t.isl n).itime = 0 ∧ (t.isl n).ptime = 0 ∧ ((t.isl n).powered = true → (t.isl n).inHold = true) ∧
      ((t.isl n).powered = true ↔ n ∈ (stage1Tree s.boot.sites s.boot.dead).map Prod.fst)) ∧
  (∀ results, s.boot.starting = true → s.boot.stage = 2 → s.boot.fail = false →
    let k := ((List.range 24).filter fun n => (s.isl n).powered && (results.find? fun r => r.site == n).any fun r => r.pass).length
    ∃ t, exec (.stage2 results) s = .next t ∧ t.mem = s.mem ∧ (21 ≤ k → t.boot.stage = 3 ∧ t.boot.fail = false) ∧
      (k < 21 → t.boot.stage = 2 ∧ t.boot.fail = true ∧ t.boot.replace = true) ∧
      ((∃ n ∈ s.boot.sites, n < 24 ∧ (s.isl n).powered = false) → t.boot.replace = true)) ∧
  (s.boot.starting = true → s.boot.stage = 3 →
    (s.topo.tver = 0 → s.update = none → ∃ t u, exec .stage3 s = .next t ∧ t.update = some u ∧ u.table.tver = s.boot.lastTver + 1 ∧ t.mem = s.mem) ∧
    (s.topo.tver ≠ 0 → ∃ t, exec .stage3 s = .next t ∧ t.boot.starting = false ∧
      ∀ n, n < 24 → t.reg .islCohmode n = 0 ∧ (s.topo.live n = true → (t.isl n).inHold = false)))

/-- Degraded operation and registers as software writes them (R5, R6, R106, R196, R223, R408 to R411): errors count, the reads that meet one receive
poison, and they fence or retire what fails; power control makes one step of clock or gate; a register's RW bits take a write. -/
def Obligations.HostAndPower : Prop := ∀ s : State,
  exec .replaceRequestClear s = .next (if (regKey .startStat 0, 7) ∈ s.now.w1c then s else { s with boot := { s.boot with replace := false } }) ∧
  (∀ island a, island < 24 → let ix := eightIx island (hbmStack a)
    let w := hbmAddr island (a % hbmSize) / 4
    (∃ t, exec (.hbmUncorrectable island ⟨a, false⟩) s = .next t ∧ t.mem = s.mem ∧
      bits (t.reg .hbmErr ix) 47 32 = min 0xFFFF (bits (s.reg .hbmErr ix) 47 32 + 1) ∧
      bits (t.reg .hbmErr ix) 31 0 = bits (s.reg .hbmErr ix) 31 0 ∧ t.warps = s.warps ∧
      ∀ p ∈ s.pend, ∀ m ∈ s.msgs, m.carriesRead = true → m.island = island → w ∈ m.words → m.asker = some p.id → ∀ l ∈ p.readers m w,
        ∃ q ∈ t.pend, q.id = p.id ∧ l ∈ q.bad ∧ (l, flagPoison) ∈ q.flags) ∧
    ∃ t, exec (.hbmUncorrectable island ⟨a, true⟩) s = .next t ∧ { t with regs := s.regs } = s ∧
      bits (t.reg .hbmErr ix) 31 0 = min 0xFFFFFFFF (bits (s.reg .hbmErr ix) 31 0 + 1) ∧ bits (t.reg .hbmErr ix) 63 32 = bits (s.reg .hbmErr ix) 63 32) ∧
  (∀ island k, exec (.coreSoftError island k false) s = .next s) ∧
  (∀ island k, island < 24 → k < 160 → s.coreCode island k ≠ 3 → (island, k) ∉ s.retireCores →
    ∃ t, exec (.coreSoftError island k true) s = .next t ∧ t.mem = s.mem ∧ t.boot.replace = true ∧ t.reg .coreStat (coreIx island k) = 1 ∧
      ((island, k) ∈ t.retireCores ∨ t.update.isSome = true)) ∧
  (∀ island power temp, island < 24 → let v := s.reg .pwrIsl island
    ∃ t, exec (.powerControlAction island power temp) s = .next t ∧ t.mem = s.mem ∧
      let w := t.reg .pwrIsl island
      bits w 10 0 = bits v 10 0 ∧ bits w 21 11 = power % 2048 ∧ (bits v 33 22 ≤ 2000 → bits w 41 34 = temp % 256) ∧
      (105 < temp → bits v 33 22 = 1000 → bits w 33 22 = 1000 ∧ bits w 45 43 = min 4 (bits v 45 43 + 1)) ∧
      (105 < temp → 1000 < bits v 33 22 → bits v 33 22 ≤ 2000 → bits w 33 22 < bits v 33 22 ∧ bits w 45 43 = bits v 45 43)) ∧
  (∀ island k v, exec (.coreDrainWrite island k v) s = .next (s.setReg .coreStat (coreIx island k) (bits v 2 2))) ∧
  ∀ ix v,
    (∀ r, r = .corePmc ∨ r = .islPmc → ∃ t, exec (.registerWrite r ix v) s = .next t ∧ { t with now := s.now } = s.setReg r ix (bits v 47 0) ∧
      t.now.written.contains (regKey r ix) = true) ∧
    exec (.registerWrite .corePmsel ix v) s = .next (s.setReg .corePmsel ix (bits v 7 0)) ∧
    exec (.registerWrite .islPmsel ix v) s = .next (s.setReg .islPmsel ix (bits v 7 0)) ∧
    exec (.registerWrite .pwrPanel ix v) s = .next (s.setReg .pwrPanel ix (bits v 15 0)) ∧
    exec (.registerWrite .optFocfg ix v) s = .next (s.setReg .optFocfg ix (bits v 12 0 + bits v 23 16 * 2 ^ 16)) ∧
    exec (.registerWrite .pwrIsl ix v) s = .next (s.setReg .pwrIsl ix (setBits (s.reg .pwrIsl ix) 10 0 (bits v 10 0))) ∧
    exec (.registerWrite .startCtl ix v) s = (if bit v 1 then exec .startCold s else if bit v 0 then exec .startWarm s else .next s) ∧
    exec (.registerWrite .lkpTstage ix v) s = exec (.lkpTstageGo v) s ∧
    exec (.registerWrite .tgpAtt ix v) s = (if bit v 0 then exec (.tgpAttEnable (ix / 128) (ix % 128) v) s
      else exec (.tgpAttDisable (ix / 128) (ix % 128) v) s) ∧
    exec (.registerWrite .partToff ix v) s = exec (.partToffWrite ix v) s ∧
    exec (.registerWrite .islFqhead ix v) s = exec (.islFqheadWrite ix v) s ∧
    ∀ r, r ∈ [RegName.rotCert, .corePipe, .islDstat, .lkpQhead, .mapkRqhead, .clkStat, .lkpTupd, .optPstat, .optPerr, .optPfar, .optLasa, .optLasb,
        .tgpAdrop, .tgpScnt, .islFqtail, .islFqstat, .partTok, .rotMeas, .rotPmeas, .hbmErr] →
      exec (.registerWrite r ix v) s = .next s

end
end

