-- ==== Sys2Proof/Laws/Maps.lean ====
section
/-!
SUPPORT. Laws of the sparse maps: what a read of a map gives after a write, a removal, or a change of one entry.
-/
namespace Sys2Proof.NMap

variable {α : Type}

@[simp] theorem find_nil (k : Nat) : find? ([] : NMap α) k = none := rfl

/-- A read after a write. -/
theorem find_set (m : NMap α) (k j : Nat) (a : α) : find? (set m k a) j = if k = j then some a else find? m j := by
  induction m with
  | nil => simp [set, find?]
  | cons p m ih =>
    obtain ⟨i, b⟩ := p
    simp only [set]
    split
    · subst i; simp only [find?]; split <;> simp_all
    · split
      · simp only [find?]
      · simp only [find?, ih]; split <;> split <;> simp_all

@[simp] theorem find_set_same (m : NMap α) (k : Nat) (a : α) : find? (set m k a) k = some a := by simp [find_set]

theorem find_set_ne (m : NMap α) {k j : Nat} (a : α) (h : k ≠ j) : find? (set m k a) j = find? m j := by simp [find_set, h]

theorem getD_set (m : NMap α) (k j : Nat) (a d : α) : getD (set m k a) j d = if k = j then a else getD m j d := by
  simp only [getD, find_set]; split <;> rfl

@[simp] theorem getD_set_same (m : NMap α) (k : Nat) (a d : α) : getD (set m k a) k d = a := by simp [getD_set]

theorem getD_set_ne (m : NMap α) {k j : Nat} (a d : α) (h : k ≠ j) : getD (set m k a) j d = getD m j d := by simp [getD_set, h]

/-- A read after a removal. -/
theorem find_erase (m : NMap α) (k j : Nat) : find? (erase m k) j = if k = j then none else find? m j := by
  induction m with
  | nil => simp [erase]
  | cons p m ih =>
    obtain ⟨i, b⟩ := p
    by_cases hi : i = k
    · subst hi
      have : erase ((i, b) :: m) i = erase m i := by simp [erase]
      rw [this, ih]; simp only [find?]; split <;> rfl
    · have : erase ((i, b) :: m) k = (i, b) :: erase m k := by simp [erase, hi]
      rw [this]; simp only [find?, ih]; split <;> split <;> simp_all

theorem getD_erase (m : NMap α) (k j : Nat) (d : α) : getD (erase m k) j d = if k = j then d else getD m j d := by
  simp only [getD, find_erase]; split <;> rfl

/-- A read after an entry that is listed has been changed. -/
theorem find_modify (m : NMap α) (k j : Nat) (f : α → α) :
    find? (modify m k f) j = if k = j then (find? m j).map f else find? m j := by
  induction m with
  | nil => simp [modify]
  | cons p m ih =>
    obtain ⟨i, b⟩ := p
    simp only [modify]
    split
    · subst i; simp only [find?]; split <;> simp_all
    · simp only [find?, ih]; split <;> split <;> simp_all

end Sys2Proof.NMap
end

