-- ==== Sys2Proof/Laws/Warp.lean ====
section
/-!
SUPPORT. What each operation on a warp does to its v registers, its threads and everything else.
-/
namespace Sys2Proof.Machine

/-! ### Keys of v registers -/

theorem vkey_eq {l r l' r' : Nat} (h : l < 32) (h' : l' < 32) : 32 * r + l = 32 * r' + l' ↔ r = r' ∧ l = l' := by omega

/-! ### Agreement but for registers, threads and the spin detector -/

theorem Warp.sameBut_refl (w : Warp) : Warp.sameBut w w := rfl

theorem Warp.sameBut_trans {x y w : Warp} (h1 : Warp.sameBut x y) (h2 : Warp.sameBut y w) : Warp.sameBut x w := by
  unfold Warp.sameBut at *; rw [← h2, ← h1]

theorem Warp.setThread_same (w : Warp) (l : Nat) (t : Thread) : Warp.sameBut (w.setThread l t) w := rfl
theorem Warp.setVreg_same (w : Warp) (l r : Nat) (x : VReg) : Warp.sameBut (w.setVreg l r x) w := rfl
theorem Warp.spinReset_same (w : Warp) : Warp.sameBut w.spinReset w := rfl

theorem Warp.writeV_same (w : Warp) (l r : Nat) (x : BitVec 32) : Warp.sameBut (w.writeV l r x) w := by
  unfold Warp.writeV; simp only; split <;> rfl

theorem Warp.writeVs_same (n : Nat) : ∀ (w : Warp) (l r x : Nat), Warp.sameBut (w.writeVs l r n x) w := by
  induction n with
  | zero => intro w l r x; rfl
  | succ n ih => intro w l r x; exact Warp.sameBut_trans (ih _ _ _ _) (Warp.writeV_same _ _ _ _)

theorem Warp.writeP_same (w : Warp) (l k : Nat) (b : Bool) : Warp.sameBut (w.writeP l k b) w := by
  unfold Warp.writeP; simp only; split <;> rfl

theorem Warp.setFlags_same (w : Warp) (l : Nat) (f : BitVec 32) : Warp.sameBut (w.setFlags l f) w := by
  unfold Warp.setFlags; split <;> rfl

theorem Warp.killV_same (n : Nat) : ∀ (w : Warp) (l r : Nat), Warp.sameBut (w.killV l r n) w := by
  induction n with
  | zero => intro w l r; rfl
  | succ n ih => intro w l r; exact Warp.sameBut_trans (ih _ _ _) (Warp.setVreg_same _ _ _ _)

theorem Warp.emptyV_same (n : Nat) : ∀ (w : Warp) (l r : Nat), Warp.sameBut (w.emptyV l r n) w := by
  induction n with
  | zero => intro w l r; rfl
  | succ n ih => intro w l r; exact Warp.sameBut_trans (ih _ _ _) (Warp.setVreg_same _ _ _ _)

/-- A fold of steps that each agree agrees. -/
theorem Warp.foldl_same {α : Type} (f : Warp → α → Warp) (h : ∀ w a, Warp.sameBut (f w a) w) (xs : List α) :
    ∀ w, Warp.sameBut (xs.foldl f w) w := by
  induction xs with
  | nil => intro w; rfl
  | cons a xs ih => intro w; exact Warp.sameBut_trans (ih _) (h _ _)

theorem Warp.writeLane_same (w : Warp) (l : Nat) (b : Bool) (o : LaneOut) : Warp.sameBut (w.writeLane l b o) w := by
  unfold Warp.writeLane
  have h1 := Warp.foldl_same (fun w x => w.writeVs l x.1 x.2.1 x.2.2) (fun w _ => Warp.writeVs_same _ _ _ _ _) o.vals w
  have h2 := Warp.foldl_same (fun (w : Warp) (x : Nat × Bool) => w.writeP l x.1 x.2) (fun w _ => Warp.writeP_same _ _ _ _) o.preds
    (o.vals.foldl (fun w x => w.writeVs l x.1 x.2.1 x.2.2) w)
  cases b
  · exact Warp.sameBut_trans (Warp.setFlags_same _ _ _) (Warp.sameBut_trans h2 h1)
  · exact Warp.sameBut_trans h2 h1

theorem Warp.advance_same (w : Warp) (ls : List Nat) (n : Nat) : Warp.sameBut (w.advance ls n) w := by
  unfold Warp.advance
  apply Warp.foldl_same
  intro w l; simp only; split <;> rfl

theorem Warp.lastUse_same (w : Warp) (c : Ctx) (u : Usage) : Warp.sameBut (w.lastUse c u) w := by
  unfold Warp.lastUse
  apply Warp.foldl_same
  intro w x; split
  · exact Warp.foldl_same _ (fun w l => Warp.killV_same _ _ _ _) _ _
  · rfl

theorem Warp.poisonFlags_same (w : Warp) (c : Ctx) (u : Usage) (m : List Nat) : Warp.sameBut (w.poisonFlags c u m) w := by
  unfold Warp.poisonFlags
  exact Warp.foldl_same _ (fun w l => Warp.setFlags_same _ _ _) _ _

/-! ### Threads -/

theorem Warp.thread_setThread (w : Warp) (l k : Nat) (t : Thread) :
    (w.setThread l t).thread k = if l = k ∧ l < w.threads.length then t else w.thread k := by
  unfold Warp.setThread Warp.thread
  simp only [List.getD_eq_getElem?_getD, List.getElem?_set]
  by_cases h : l = k
  · subst h
    by_cases h2 : l < w.threads.length
    · simp [h2]
    · simp [h2]
  · simp [h]

theorem Warp.length_setThread (w : Warp) (l : Nat) (t : Thread) : (w.setThread l t).threads.length = w.threads.length := by
  simp [Warp.setThread]

@[simp] theorem Warp.threads_setVreg (w : Warp) (l r : Nat) (x : VReg) : (w.setVreg l r x).threads = w.threads := rfl
@[simp] theorem Warp.threads_spinReset (w : Warp) : w.spinReset.threads = w.threads := rfl
@[simp] theorem Warp.v_setThread (w : Warp) (l : Nat) (t : Thread) : (w.setThread l t).v = w.v := rfl
@[simp] theorem Warp.v_spinReset (w : Warp) : w.spinReset.v = w.v := rfl

@[simp] theorem Warp.threads_writeV (w : Warp) (l r : Nat) (x : BitVec 32) : (w.writeV l r x).threads = w.threads := by
  unfold Warp.writeV; simp only; split <;> rfl

@[simp] theorem Warp.threads_writeVs (n : Nat) : ∀ (w : Warp) (l r x : Nat), (w.writeVs l r n x).threads = w.threads := by
  induction n with
  | zero => intro w l r x; rfl
  | succ n ih => intro w l r x; simp [Warp.writeVs, ih]

@[simp] theorem Warp.threads_killV (n : Nat) : ∀ (w : Warp) (l r : Nat), (w.killV l r n).threads = w.threads := by
  induction n with
  | zero => intro w l r; rfl
  | succ n ih => intro w l r; simp [Warp.killV, ih]

@[simp] theorem Warp.threads_emptyV (n : Nat) : ∀ (w : Warp) (l r : Nat), (w.emptyV l r n).threads = w.threads := by
  induction n with
  | zero => intro w l r; rfl
  | succ n ih => intro w l r; simp [Warp.emptyV, ih]

/-- A fold of steps that keep the threads keeps them. -/
theorem Warp.foldl_threads {α : Type} (f : Warp → α → Warp) (h : ∀ w a, (f w a).threads = w.threads) (xs : List α) :
    ∀ w, (xs.foldl f w).threads = w.threads := by
  induction xs with
  | nil => intro w; rfl
  | cons a xs ih => intro w; simp [ih, h]

/-- A fold of steps that keep the v registers keeps them. -/
theorem Warp.foldl_v {α : Type} (f : Warp → α → Warp) (h : ∀ w a, (f w a).v = w.v) (xs : List α) : ∀ w, (xs.foldl f w).v = w.v := by
  induction xs with
  | nil => intro w; rfl
  | cons a xs ih => intro w; simp [ih, h]

@[simp] theorem Warp.threads_lastUse (w : Warp) (c : Ctx) (u : Usage) : (w.lastUse c u).threads = w.threads := by
  unfold Warp.lastUse
  apply Warp.foldl_threads
  intro w x; split
  · exact Warp.foldl_threads _ (fun w l => Warp.threads_killV _ _ _ _) _ _
  · rfl

@[simp] theorem Warp.v_writeP (w : Warp) (l k : Nat) (b : Bool) : (w.writeP l k b).v = w.v := by
  unfold Warp.writeP; simp only; split <;> rfl

@[simp] theorem Warp.v_setFlags (w : Warp) (l : Nat) (f : BitVec 32) : (w.setFlags l f).v = w.v := by
  unfold Warp.setFlags; split <;> rfl

@[simp] theorem Warp.v_advance (w : Warp) (ls : List Nat) (n : Nat) : (w.advance ls n).v = w.v := by
  unfold Warp.advance; apply Warp.foldl_v; intro w l; simp only; split <;> rfl

@[simp] theorem Warp.v_poisonFlags (w : Warp) (c : Ctx) (u : Usage) (m : List Nat) : (w.poisonFlags c u m).v = w.v := by
  unfold Warp.poisonFlags; exact Warp.foldl_v _ (fun w l => Warp.v_setFlags _ _ _) _ _

theorem Warp.thread_of_threads {x w : Warp} (h : x.threads = w.threads) (l : Nat) : x.thread l = w.thread l := by
  unfold Warp.thread; rw [h]

theorem Warp.vreg_of_v {x w : Warp} (h : x.v = w.v) (l r : Nat) : x.vreg l r = w.vreg l r := by
  unfold Warp.vreg; rw [h]

/-! ### v registers -/

theorem Warp.vreg_setVreg (w : Warp) (l r l' r' : Nat) (x : VReg) (h : l < 32) (h' : l' < 32) :
    (w.setVreg l r x).vreg l' r' = if l = l' ∧ r = r' then x else w.vreg l' r' := by
  unfold Warp.setVreg Warp.vreg
  rw [NMap.getD_set]
  by_cases e : l = l' ∧ r = r'
  · obtain ⟨rfl, rfl⟩ := e; simp
  · rw [if_neg e, if_neg]; rw [vkey_eq h h']; omega

theorem Warp.vreg_writeV (w : Warp) (l r l' r' : Nat) (x : BitVec 32) (h : l < 32) (h' : l' < 32) :
    (w.writeV l r x).vreg l' r' = if l = l' ∧ r = r' then ⟨x, true, false⟩ else w.vreg l' r' := by
  unfold Warp.writeV
  simp only
  split
  · exact Warp.vreg_setVreg w l r l' r' _ h h'
  · rw [Warp.vreg_of_v (Warp.v_spinReset _)]; exact Warp.vreg_setVreg w l r l' r' _ h h'

/-- Consecutive registers take the value's 32-bit parts, the lowest first (R54). -/
theorem Warp.vreg_writeVs (n : Nat) : ∀ (w : Warp) (l r x l' r' : Nat), l < 32 → l' < 32 →
    (w.writeVs l r n x).vreg l' r' =
      if l = l' ∧ r ≤ r' ∧ r' < r + n then ⟨BitVec.ofNat 32 (x / 2 ^ (32 * (r' - r))), true, false⟩ else w.vreg l' r' := by
  induction n with
  | zero => intro w l r x l' r' h h'; rw [if_neg (by omega)]; rfl
  | succ n ih =>
    intro w l r x l' r' h h'
    simp only [Warp.writeVs]
    rw [ih _ _ _ _ _ _ h h', Warp.vreg_writeV _ _ _ _ _ _ h h']
    by_cases e : l = l'
    · subst e
      by_cases e2 : r = r'
      · subst e2; have hn : ¬ r + 1 ≤ r := by omega
        simp [hn]
      · by_cases e3 : r + 1 ≤ r' ∧ r' < r + 1 + n
        · rw [if_pos ⟨rfl, e3⟩, if_pos ⟨rfl, by omega⟩]
          congr 2
          rw [Nat.div_div_eq_div_mul, ← Nat.pow_add]
          congr 2; omega
        · rw [if_neg (by rintro ⟨_, h⟩; exact e3 h), if_neg (by omega), if_neg (by omega)]
    · simp [e]

theorem Warp.vreg_killV (n : Nat) : ∀ (w : Warp) (l r l' r' : Nat), l < 32 → l' < 32 →
    (w.killV l r n).vreg l' r' = if l = l' ∧ r ≤ r' ∧ r' < r + n then { w.vreg l' r' with dead := true } else w.vreg l' r' := by
  induction n with
  | zero => intro w l r l' r' h h'; rw [if_neg (by omega)]; rfl
  | succ n ih =>
    intro w l r l' r' h h'
    simp only [Warp.killV]
    rw [ih _ _ _ _ _ h h', Warp.vreg_setVreg _ _ _ _ _ _ h h']
    by_cases e : l = l'
    · subst e
      by_cases e2 : r = r'
      · subst e2; simp
      · by_cases e3 : r + 1 ≤ r' ∧ r' < r + 1 + n
        · rw [if_pos ⟨rfl, e3⟩, if_neg (by omega), if_pos ⟨rfl, by omega⟩]
        · rw [if_neg (by omega), if_neg (by omega), if_neg (by omega)]
    · simp [e]

theorem Warp.vreg_emptyV (n : Nat) : ∀ (w : Warp) (l r l' r' : Nat), l < 32 → l' < 32 →
    (w.emptyV l r n).vreg l' r' = if l = l' ∧ r ≤ r' ∧ r' < r + n then { w.vreg l' r' with full := false } else w.vreg l' r' := by
  induction n with
  | zero => intro w l r l' r' h h'; rw [if_neg (by omega)]; rfl
  | succ n ih =>
    intro w l r l' r' h h'
    simp only [Warp.emptyV]
    rw [ih _ _ _ _ _ h h', Warp.vreg_setVreg _ _ _ _ _ _ h h']
    by_cases e : l = l'
    · subst e
      by_cases e2 : r = r'
      · subst e2; simp
      · by_cases e3 : r + 1 ≤ r' ∧ r' < r + 1 + n
        · rw [if_pos ⟨rfl, e3⟩, if_neg (by omega), if_pos ⟨rfl, by omega⟩]
        · rw [if_neg (by omega), if_neg (by omega), if_neg (by omega)]
    · simp [e]

end Sys2Proof.Machine
end

