-- ==== Sys2Proof/Laws/Lane.lean ====
section
/-!
SUPPORT. What an issue does, said once: how the checks decide it, what a lane instruction leaves in every register, predicate, flag and
PC of its warp, and that it leaves everything else.
-/
namespace Sys2Proof.Machine

/-! ### How the checks decide an issue -/

theorem Check.andThen_go {a b : Check} (ha : a = .go) (hb : b = .go) : a.andThen b = .go := by rw [ha]; exact hb
theorem Check.andThen_next {a b r : Check} (ha : a = .go) (hb : b = r) : a.andThen b = r := by rw [ha]; exact hb
theorem Check.andThen_stop {a b : Check} {c : Nat} {ls : List Nat} {x y : Nat} (ha : a = .stop c ls x y) : a.andThen b = .stop c ls x y := by
  rw [ha]; rfl

theorem issueOut_go {s : State} {i : Issue} {chk : Ctx → Check} {k : Ctx → Out} (hi : s.issue = some i) (hc : chk (s.ctx i) = .go) :
    issueOut s chk k = k (s.ctx i) := by simp [issueOut, hi, hc]

theorem issueOut_wait {s : State} {i : Issue} {chk : Ctx → Check} {k : Ctx → Out} (hi : s.issue = some i) (hc : chk (s.ctx i) = .wait) :
    issueOut s chk k = .next { s with issue := none, held := true } := by simp [issueOut, hi, hc, State.notReady, State.endIssue]

theorem issueOut_stop {s : State} {i : Issue} {chk : Ctx → Check} {k : Ctx → Out} {c : Nat} {ls : List Nat} {a b : Nat}
    (hi : s.issue = some i) (hc : chk (s.ctx i) = .stop c ls a b) :
    issueOut s chk k = .next (s.stopWarp i.warp c (laneMask ls) i.pc (s.ctx i).ovl a b) := by simp only [issueOut, hi, hc]; rfl

theorem issueOut_none {s : State} {chk : Ctx → Check} {k : Ctx → Out} (hi : s.issue = none) : issueOut s chk k = .fault .noIssueGroup := by
  simp [issueOut, hi]

theorem issueWith_go {s : State} {i : Issue} {chk : Ctx → Check} {k : Ctx → State} (hi : s.issue = some i) (hc : chk (s.ctx i) = .go) :
    issueWith s chk k = .next (k (s.ctx i)).endIssue := issueOut_go hi hc

@[simp] theorem ctx_wid (s : State) (i : Issue) : (s.ctx i).wid = i.warp := rfl
@[simp] theorem ctx_i (s : State) (i : Issue) : (s.ctx i).i = i := rfl
@[simp] theorem ctx_w (s : State) (i : Issue) : (s.ctx i).w = s.warp i.warp := rfl

theorem warp_setWarp (s : State) (w k : Nat) (x : Warp) : (s.setWarp w x).warp k = if w = k then x else s.warp k := by
  simp [State.warp, State.setWarp, NMap.getD_set]

@[simp] theorem warp_setWarp_same (s : State) (w : Nat) (x : Warp) : (s.setWarp w x).warp w = x := by simp [warp_setWarp]

@[simp] theorem warp_endIssue (s : State) (k : Nat) : s.endIssue.warp k = s.warp k := rfl

/-- Setting one warp and ending the issue changes nothing else. -/
theorem onlyWarp_setWarp (s : State) (w : Nat) (x : Warp) : State.onlyWarp (s.setWarp w x).endIssue s w :=
  ⟨rfl, rfl, fun k h => by simp [warp_setWarp, Ne.symm h]⟩

/-! ### Registers after each part of an issue -/

theorem foldl_lane (f : Warp → Nat → Warp) (P : Warp → Prop) (ls : List Nat) (h : ∀ w l, P w → P (f w l)) (w : Warp) (hw : P w) :
    P (ls.foldl f w) := by
  induction ls generalizing w with
  | nil => exact hw
  | cons a ls ih => exact ih _ (h _ _ hw)

theorem Warp.vreg_kills (ls : List Nat) (r n : Nat) (h : ∀ l ∈ ls, l < 32) : ∀ (w : Warp) (l r' : Nat), l < 32 →
    (ls.foldl (fun w l => w.killV l r n) w).vreg l r' =
      if l ∈ ls ∧ r ≤ r' ∧ r' < r + n then { w.vreg l r' with dead := true } else w.vreg l r' := by
  induction ls with
  | nil => intro w l r' _; simp
  | cons a ls ih =>
    intro w l r' hl
    rw [List.foldl_cons, ih (fun x hx => h x (List.mem_cons_of_mem _ hx)) _ _ _ hl, Warp.vreg_killV _ _ _ _ _ _ (h a (List.mem_cons_self)) hl]
    by_cases e : a = l
    · subst e; by_cases e2 : r ≤ r' ∧ r' < r + n
      · simp [e2]
      · simp only [e2, and_false, if_false]
    · have : ¬ l = a := fun h => e h.symm
      simp [e, this]

theorem Warp.vreg_lastUse_aux (lanes : List Nat) (h : ∀ l ∈ lanes, l < 32) (srcs : List (Nat × Nat × Nat)) :
    ∀ (w : Warp) (l r : Nat), l < 32 →
    (srcs.foldl (fun w x => if 4 ≤ x.2.2 then lanes.foldl (fun w l => w.killV l x.1 x.2.1) w else w) w).vreg l r =
      if lanes.contains l && srcs.any (fun y => 4 ≤ y.2.2 && y.1 ≤ r && r < y.1 + y.2.1) then { w.vreg l r with dead := true }
      else w.vreg l r := by
  induction srcs with
  | nil => intro w l r _; simp
  | cons y srcs ih =>
    intro w l r hl
    rw [List.foldl_cons, ih _ _ _ hl]
    by_cases h4 : 4 ≤ y.2.2
    · rw [if_pos h4, Warp.vreg_kills _ _ _ h _ _ _ hl]
      rw [List.any_cons]
      cases srcs.any (fun y => 4 ≤ y.2.2 && y.1 ≤ r && r < y.1 + y.2.1) <;> by_cases hm : l ∈ lanes <;> by_cases hr : y.1 ≤ r <;>
        by_cases hr2 : r < y.1 + y.2.1 <;> simp [hm, hr, hr2, h4]
    · rw [if_neg h4, List.any_cons]
      cases srcs.any (fun y => 4 ≤ y.2.2 && y.1 ≤ r && r < y.1 + y.2.1) <;> simp [h4]

theorem Warp.vreg_lastUse (w : Warp) (c : Ctx) (u : Usage) (h : ∀ l ∈ c.i.lanes ++ c.i.helpers, l < 32) (l r : Nat) (hl : l < 32) :
    (w.lastUse c u).vreg l r =
      if c.i.lanes.contains l || c.i.helpers.contains l then markedV u r (w.vreg l r) else w.vreg l r := by
  unfold Warp.lastUse
  rw [Warp.vreg_lastUse_aux _ h _ _ _ _ hl]
  have : (c.i.lanes ++ c.i.helpers).contains l = (c.i.lanes.contains l || c.i.helpers.contains l) := by simp
  rw [this]
  unfold markedV
  cases (c.i.lanes.contains l || c.i.helpers.contains l) <;> cases u.srcs.any (fun y => 4 ≤ y.2.2 && y.1 ≤ r && r < y.1 + y.2.1) <;> simp

theorem Warp.vreg_vals (vals : List (Nat × Nat × Nat)) (l : Nat) (h : l < 32) : ∀ (w : Warp) (l' r : Nat), l' < 32 →
    (vals.foldl (fun w x => w.writeVs l x.1 x.2.1 x.2.2) w).vreg l' r = if l = l' then wroteV vals r (w.vreg l' r) else w.vreg l' r := by
  induction vals with
  | nil => intro w l' r _; simp [wroteV]
  | cons y vals ih =>
    intro w l' r h'
    rw [List.foldl_cons, ih _ _ _ h', Warp.vreg_writeVs _ _ _ _ _ _ _ h h']
    by_cases e : l = l'
    · subst e; simp [wroteV]
    · simp [e]

@[simp] theorem Warp.v_preds (preds : List (Nat × Bool)) (l : Nat) (w : Warp) :
    (preds.foldl (fun (w : Warp) (x : Nat × Bool) => w.writeP l x.1 x.2) w).v = w.v :=
  Warp.foldl_v _ (fun _ _ => Warp.v_writeP _ _ _ _) _ _

theorem Warp.vreg_writeLane (w : Warp) (l : Nat) (b : Bool) (o : LaneOut) (h : l < 32) (l' r : Nat) (h' : l' < 32) :
    (w.writeLane l b o).vreg l' r = if l = l' then wroteV o.vals r (w.vreg l' r) else w.vreg l' r := by
  rw [← Warp.vreg_vals o.vals l h w l' r h']
  apply Warp.vreg_of_v
  unfold Warp.writeLane
  cases b <;> simp

/-- A pass over lanes, each once, each of which acts on its own registers only. -/
theorem Warp.vreg_lanes (f : Warp → Nat → Warp) (g : Nat → Nat → VReg → VReg) (ls : List Nat)
    (hf : ∀ w l, l ∈ ls → ∀ l' r, l' < 32 → (f w l).vreg l' r = if l = l' then g l r (w.vreg l' r) else w.vreg l' r) (hn : ls.Nodup) :
    ∀ (w : Warp) (l r : Nat), l < 32 → (ls.foldl f w).vreg l r = if ls.contains l then g l r (w.vreg l r) else w.vreg l r := by
  induction ls with
  | nil => intro w l r _; simp
  | cons a ls ih =>
    intro w l r hl
    obtain ⟨ha, hn⟩ := List.nodup_cons.mp hn
    rw [List.foldl_cons, ih (fun w l h => hf w l (List.mem_cons_of_mem _ h)) hn _ _ _ hl, hf w a List.mem_cons_self _ _ hl]
    by_cases e : a = l
    · subst e; simp [ha]
    · have : ¬ l = a := fun h => e h.symm
      simp [e, this]

/-- A pass over lanes, each once, each of which acts on its own thread only. -/
theorem Warp.thread_lanes (f : Warp → Nat → Warp) (g : Nat → Thread → Thread) (ls : List Nat) (n : Nat)
    (hlen : ∀ w l, (f w l).threads.length = w.threads.length)
    (hf : ∀ w l, l ∈ ls → w.threads.length = n → ∀ l', l' < n → (f w l).thread l' = if l = l' then g l (w.thread l') else w.thread l') (hn : ls.Nodup) :
    ∀ (w : Warp), w.threads.length = n → ∀ l, l < n → (ls.foldl f w).thread l = if ls.contains l then g l (w.thread l) else w.thread l := by
  induction ls with
  | nil => intro w _ l _; simp
  | cons a ls ih =>
    intro w hw l hl
    obtain ⟨ha, hn⟩ := List.nodup_cons.mp hn
    rw [List.foldl_cons, ih (fun w l h => hf w l (List.mem_cons_of_mem _ h)) hn _ (by rw [hlen, hw]) _ hl, hf w a List.mem_cons_self hw _ hl]
    by_cases e : a = l
    · subst e; simp [ha]
    · have : ¬ l = a := fun h => e h.symm
      simp [e, this]

theorem foldl_length (f : Warp → Nat → Warp) (hlen : ∀ w l, (f w l).threads.length = w.threads.length) (ls : List Nat) :
    ∀ w, (ls.foldl f w).threads.length = w.threads.length := by
  induction ls with
  | nil => intro w; rfl
  | cons a ls ih => intro w; rw [List.foldl_cons, ih, hlen]

/-! ### Threads after each part of an issue -/

@[simp] theorem Warp.length_setFlags (w : Warp) (l : Nat) (f : BitVec 32) : (w.setFlags l f).threads.length = w.threads.length := by
  unfold Warp.setFlags; split
  · rfl
  · exact Warp.length_setThread _ _ _

@[simp] theorem Warp.length_writeP (w : Warp) (l k : Nat) (b : Bool) : (w.writeP l k b).threads.length = w.threads.length := by
  unfold Warp.writeP; simp only; split
  · exact Warp.length_setThread _ _ _
  · rw [Warp.threads_spinReset]; exact Warp.length_setThread _ _ _

theorem Warp.thread_setFlags (w : Warp) (l : Nat) (f : BitVec 32) (k : Nat) (hk : k < w.threads.length) :
    (w.setFlags l f).thread k = if l = k then { w.thread k with lstat := (w.thread k).lstat ||| f } else w.thread k := by
  unfold Warp.setFlags
  by_cases hf : f = 0
  · subst hf; simp
  · rw [if_neg hf]; unfold Warp.modThread
    rw [Warp.thread_setThread]
    by_cases e : l = k
    · subst e; simp [hk]
    · simp [e]

theorem Warp.thread_writeP (w : Warp) (l k : Nat) (b : Bool) (j : Nat) (hj : j < w.threads.length) :
    (w.writeP l k b).thread j = if l = j then { w.thread j with p := writePred (w.thread j).p k b } else w.thread j := by
  unfold Warp.writeP; simp only
  have key : ∀ x : Warp, x.threads = (w.setThread l { w.thread l with p := writePred (w.thread l).p k b }).threads →
      x.thread j = if l = j then { w.thread j with p := writePred (w.thread j).p k b } else w.thread j := by
    intro x hx
    rw [Warp.thread_of_threads hx, Warp.thread_setThread]
    by_cases e : l = j
    · subst e; simp [hj]
    · simp [e]
  split
  · exact key _ rfl
  · exact key _ (Warp.threads_spinReset _)

theorem Warp.thread_preds (preds : List (Nat × Bool)) (l : Nat) : ∀ (w : Warp) (j : Nat), j < w.threads.length →
    (preds.foldl (fun (w : Warp) (x : Nat × Bool) => w.writeP l x.1 x.2) w).thread j =
      if l = j then { w.thread j with p := wroteP preds (w.thread j).p } else w.thread j := by
  induction preds with
  | nil => intro w j _; simp [wroteP]
  | cons y preds ih =>
    intro w j hj
    rw [List.foldl_cons, ih _ _ (by simpa using hj), Warp.thread_writeP _ _ _ _ _ hj]
    by_cases e : l = j
    · subst e; simp [wroteP]
    · simp [e]

@[simp] theorem Warp.length_preds (preds : List (Nat × Bool)) (l : Nat) : ∀ w : Warp,
    (preds.foldl (fun (w : Warp) (x : Nat × Bool) => w.writeP l x.1 x.2) w).threads.length = w.threads.length := by
  induction preds with
  | nil => intro w; rfl
  | cons y preds ih => intro w; rw [List.foldl_cons, ih]; simp

@[simp] theorem Warp.threads_vals (vals : List (Nat × Nat × Nat)) (l : Nat) (w : Warp) :
    (vals.foldl (fun w x => w.writeVs l x.1 x.2.1 x.2.2) w).threads = w.threads :=
  Warp.foldl_threads _ (fun _ _ => Warp.threads_writeVs _ _ _ _ _) _ _

theorem Warp.length_writeLane (w : Warp) (l : Nat) (b : Bool) (o : LaneOut) : (w.writeLane l b o).threads.length = w.threads.length := by
  unfold Warp.writeLane; cases b <;> simp

/-- What a lane's results make of its thread (R31, R104). -/
def wroteT (helper : Bool) (o : LaneOut) (t : Thread) : Thread :=
  { t with p := wroteP o.preds t.p, lstat := if helper then t.lstat else t.lstat ||| o.flags }

theorem Warp.thread_writeLane (w : Warp) (l : Nat) (b : Bool) (o : LaneOut) (j : Nat) (hj : j < w.threads.length) :
    (w.writeLane l b o).thread j = if l = j then wroteT b o (w.thread j) else w.thread j := by
  unfold Warp.writeLane
  have hv : ∀ x : Warp, x.threads = w.threads → x.thread j = w.thread j := fun x h => Warp.thread_of_threads h j
  cases b
  · simp only [Bool.false_eq_true, if_false]
    rw [Warp.thread_setFlags _ _ _ _ (by simpa using hj), Warp.thread_preds _ _ _ _ (by simpa using hj), hv _ (by simp)]
    by_cases e : l = j
    · simp [e, wroteT]
    · simp [e]
  · simp only [if_true]
    rw [Warp.thread_preds _ _ _ _ (by simpa using hj), hv _ (by simp)]
    by_cases e : l = j
    · simp [e, wroteT]
    · simp [e]

/-- What moving on makes of a thread (R240). -/
def movedT (n : Nat) (t : Thread) : Thread := if t.st == .active then { t with pc := { t.pc with ofs := t.pc.ofs + n } } else t

theorem Warp.thread_advance (w : Warp) (ls : List Nat) (n : Nat) (hn : ls.Nodup) (j : Nat) (hj : j < w.threads.length) :
    (w.advance ls n).thread j = if ls.contains j then movedT n (w.thread j) else w.thread j := by
  unfold Warp.advance
  refine Warp.thread_lanes _ (fun _ => movedT n) ls w.threads.length ?_ ?_ hn w rfl j hj
  · intro w l; simp only; split
    · exact Warp.length_setThread _ _ _
    · rfl
  · intro x l _ hx k hk
    simp only [movedT]
    by_cases e : l = k
    · subst e
      by_cases ha : (x.thread l).st == .active
      · rw [if_pos ha, Warp.thread_setThread]; simp [ha, hx, hk]
      · rw [if_neg ha]; simp [ha]
    · by_cases ha : (x.thread l).st == .active
      · rw [if_pos ha, Warp.thread_setThread]; simp [e]
      · rw [if_neg ha]; simp [e]

theorem contains_filter (m : List Nat) (p : Nat → Bool) (j : Nat) : (m.filter p).contains j = (m.contains j && p j) := by
  rw [Bool.eq_iff_iff]; simp [List.mem_filter]

/-- Each listed lane's thread is changed once. -/
theorem Warp.thread_each (f : Nat → Thread → Thread) (ls : List Nat) (hn : ls.Nodup) (w : Warp) (l : Nat) (hl : l < w.threads.length) :
    (ls.foldl (fun w k => w.modThread k (f k)) w).thread l = if ls.contains l then f l (w.thread l) else w.thread l := by
  refine Warp.thread_lanes _ f ls w.threads.length (fun w l => Warp.length_setThread _ _ _) ?_ hn w rfl l hl
  intro x k _ hx j hj
  refine (Warp.thread_setThread x k j _).trans ?_
  by_cases e : k = j
  · subst e; simp [hx, hj]
  · simp [e]

theorem Warp.thread_modThreads (f : Thread → Thread) (ls : List Nat) (hn : ls.Nodup) (w : Warp) (l : Nat) (hl : l < w.threads.length) :
    (w.modThreads ls f).thread l = if ls.contains l then f (w.thread l) else w.thread l := Warp.thread_each (fun _ => f) ls hn w l hl

theorem Warp.length_each (f : Nat → Thread → Thread) (ls : List Nat) (w : Warp) :
    (ls.foldl (fun w k => w.modThread k (f k)) w).threads.length = w.threads.length :=
  foldl_length _ (fun _ _ => Warp.length_setThread _ _ _) _ _

/-- Changing threads changes nothing else. -/
theorem Warp.each_eq (f : Nat → Thread → Thread) (ls : List Nat) : ∀ w : Warp,
    ls.foldl (fun w k => w.modThread k (f k)) w = { w with threads := (ls.foldl (fun w k => w.modThread k (f k)) w).threads } := by
  induction ls with
  | nil => intro w; rfl
  | cons a ls ih => intro w; rw [List.foldl_cons]; exact (ih _).trans rfl

theorem Warp.thread_poisonFlags (w : Warp) (c : Ctx) (u : Usage) (m : List Nat) (hn : m.Nodup) (j : Nat) (hj : j < w.threads.length) :
    (w.poisonFlags c u m).thread j =
      if m.contains j && u.srcs.any (fun x => isDead c.w j x.1 x.2.1) then { w.thread j with lstat := (w.thread j).lstat ||| flagPoison }
      else w.thread j := by
  unfold Warp.poisonFlags
  rw [Warp.thread_lanes (fun w l => w.setFlags l flagPoison) (fun _ t => { t with lstat := t.lstat ||| flagPoison }) _ w.threads.length
    (fun w l => Warp.length_setFlags w l _) (fun x l _ hx k hk => Warp.thread_setFlags x l _ k (by omega)) (hn.filter _) w rfl j hj,
    contains_filter]

theorem Warp.length_poisonFlags (w : Warp) (c : Ctx) (u : Usage) (m : List Nat) : (w.poisonFlags c u m).threads.length = w.threads.length := by
  unfold Warp.poisonFlags; exact foldl_length _ (fun w l => Warp.length_setFlags w l _) _ _

theorem Warp.length_advance (w : Warp) (ls : List Nat) (n : Nat) : (w.advance ls n).threads.length = w.threads.length := by
  unfold Warp.advance
  apply foldl_length
  intro w l; simp only; split
  · exact Warp.length_setThread _ _ _
  · rfl

/-! ### A lane instruction, an exchange -/

/-- The warp of an issue before it writes: flags for dead reads, then the last-use marks (R98). -/
def marked (c : Ctx) (u : Usage) (g : BitVec 4) (pz : Nat → Bool) : Warp :=
  (((c.members g).filter pz).foldl (fun w l => w.setFlags l flagPoison) c.w).lastUse c u

/-- The warp of an issue before its group moves on. -/
def wroteLanes (c : Ctx) (u : Usage) (g : BitVec 4) (pz : Nat → Bool) (mem hlp : Nat → LaneOut) : Warp :=
  (c.helpers g).foldl (fun w l => w.writeLane l true (hlp l))
    ((c.members g).foldl (fun w l => w.writeLane l false (mem l)) (marked c u g pz))

theorem members_mem {s : State} {i : Issue} {g : BitVec 4} {l : Nat} (h : l ∈ (s.ctx i).members g) : l ∈ i.lanes :=
  (List.mem_filter.mp h).1

theorem helpers_mem {s : State} {i : Issue} {g : BitVec 4} {l : Nat} (h : l ∈ (s.ctx i).helpers g) : l ∈ i.helpers :=
  (List.mem_filter.mp h).1

/-- No lane is both an admitted member and an admitted helper. -/
theorem members_helpers {s : State} {i : Issue} {g : BitVec 4} {l : Nat} (h : Group s i) (hm : ((s.ctx i).members g).contains l = true) :
    ((s.ctx i).helpers g).contains l = false := by
  have h1 := members_mem (List.contains_iff_mem.mp hm)
  rw [Bool.eq_false_iff]; intro h2
  exact h.apart l (helpers_mem (List.contains_iff_mem.mp h2)) h1

theorem marked_same (c : Ctx) (u : Usage) (g : BitVec 4) (pz : Nat → Bool) : Warp.sameBut (marked c u g pz) c.w :=
  Warp.sameBut_trans (Warp.lastUse_same _ _ _) (Warp.foldl_same _ (fun _ _ => Warp.setFlags_same _ _ _) _ _)

theorem wroteLanes_same (c : Ctx) (u : Usage) (g : BitVec 4) (pz : Nat → Bool) (mem hlp : Nat → LaneOut) :
    Warp.sameBut (wroteLanes c u g pz mem hlp) c.w :=
  Warp.sameBut_trans (Warp.foldl_same _ (fun _ _ => Warp.writeLane_same _ _ _ _) _ _)
    (Warp.sameBut_trans (Warp.foldl_same _ (fun _ _ => Warp.writeLane_same _ _ _ _) _ _) (marked_same _ _ _ _))

theorem length_marked (c : Ctx) (u : Usage) (g : BitVec 4) (pz : Nat → Bool) : (marked c u g pz).threads.length = c.w.threads.length := by
  unfold marked; rw [Warp.threads_lastUse, foldl_length _ (fun w l => Warp.length_setFlags w l _)]

theorem length_wroteLanes (c : Ctx) (u : Usage) (g : BitVec 4) (pz : Nat → Bool) (mem hlp : Nat → LaneOut) :
    (wroteLanes c u g pz mem hlp).threads.length = c.w.threads.length := by
  unfold wroteLanes
  rw [foldl_length _ (fun _ _ => Warp.length_writeLane _ _ _ _), foldl_length _ (fun _ _ => Warp.length_writeLane _ _ _ _), length_marked]

/-- A group's lanes and its helpers are numbered below 32. -/
theorem Group.lt {s : State} {i : Issue} (h : Group s i) : ∀ l ∈ i.lanes ++ i.helpers, l < 32 := by
  intro l hm; rcases List.mem_append.mp hm with hm | hm
  · exact (h.lanes l hm).1
  · exact (h.helpers l hm).1

theorem vreg_marked {s : State} {i : Issue} (h : Group s i) (u : Usage) (g : BitVec 4) (pz : Nat → Bool) (l r : Nat) (hl : l < 32) :
    (marked (s.ctx i) u g pz).vreg l r =
      if i.lanes.contains l || i.helpers.contains l then markedV u r ((s.warp i.warp).vreg l r) else (s.warp i.warp).vreg l r := by
  unfold marked
  rw [Warp.vreg_lastUse _ _ _ h.lt _ _ hl, Warp.vreg_of_v (Warp.foldl_v _ (fun _ _ => Warp.v_setFlags _ _ _) _ _)]
  rfl

theorem vreg_wroteLanes {s : State} {i : Issue} (h : Group s i) (u : Usage) (g : BitVec 4) (pz : Nat → Bool) (mem hlp : Nat → LaneOut)
    (l r : Nat) (hl : l < 32) : (wroteLanes (s.ctx i) u g pz mem hlp).vreg l r = laneReg s i g u mem hlp l r := by
  unfold wroteLanes
  rw [Warp.vreg_lanes _ (fun l r x => wroteV (hlp l).vals r x) _
      (fun w l hm l' r hl' => Warp.vreg_writeLane w l true _ (h.helpers l (helpers_mem hm)).1 l' r hl') (h.onceH.filter _) _ _ _ hl,
    Warp.vreg_lanes _ (fun l r x => wroteV (mem l).vals r x) _
      (fun w l hm l' r hl' => Warp.vreg_writeLane w l false _ (h.lanes l (members_mem hm)).1 l' r hl') (h.once.filter _) _ _ _ hl,
    vreg_marked h u g pz l r hl]
  unfold laneReg
  dsimp only
  by_cases hm : ((s.ctx i).members g).contains l = true
  · rw [members_helpers h hm, hm]; simp
  · rw [Bool.not_eq_true] at hm; rw [hm]; simp

theorem thread_marked {s : State} {i : Issue} (h : Group s i) (u : Usage) (g : BitVec 4) (pz : Nat → Bool) (l : Nat)
    (hl : l < (s.warp i.warp).threads.length) :
    (marked (s.ctx i) u g pz).thread l = if ((s.ctx i).members g).contains l && pz l then
      { (s.warp i.warp).thread l with lstat := ((s.warp i.warp).thread l).lstat ||| flagPoison } else (s.warp i.warp).thread l := by
  unfold marked
  rw [Warp.thread_of_threads (Warp.threads_lastUse _ _ _), ← contains_filter]
  exact Warp.thread_lanes (fun w l => w.setFlags l flagPoison) (fun _ t => { t with lstat := t.lstat ||| flagPoison }) _
    (s.warp i.warp).threads.length (fun w l => Warp.length_setFlags w l _) (fun x l _ hx k hk => Warp.thread_setFlags x l _ k (by omega))
    ((h.once.filter _).filter _) _ rfl l hl

theorem thread_wroteLanes {s : State} {i : Issue} (h : Group s i) (u : Usage) (g : BitVec 4) (pz : Nat → Bool) (mem hlp : Nat → LaneOut) (l : Nat)
    (hl : l < (s.warp i.warp).threads.length) :
    (wroteLanes (s.ctx i) u g pz mem hlp).thread l =
      { (s.warp i.warp).thread l with p := lanePred s i g mem hlp l, lstat := laneFlags s i g pz mem l } := by
  have e2 : (((s.ctx i).members g).foldl (fun w l => w.writeLane l false (mem l)) (marked (s.ctx i) u g pz)).thread l =
      if ((s.ctx i).members g).contains l then wroteT false (mem l) ((marked (s.ctx i) u g pz).thread l) else (marked (s.ctx i) u g pz).thread l := by
    refine Warp.thread_lanes _ (fun l t => wroteT false (mem l) t) _ (s.warp i.warp).threads.length (fun _ _ => Warp.length_writeLane _ _ _ _)
      (fun w l _ hw k hk => Warp.thread_writeLane w l false _ k (by omega)) (h.once.filter _) _ ?_ l hl
    rw [length_marked]; rfl
  have e1 : (wroteLanes (s.ctx i) u g pz mem hlp).thread l = if ((s.ctx i).helpers g).contains l then
        wroteT true (hlp l) ((((s.ctx i).members g).foldl (fun w l => w.writeLane l false (mem l)) (marked (s.ctx i) u g pz)).thread l)
      else (((s.ctx i).members g).foldl (fun w l => w.writeLane l false (mem l)) (marked (s.ctx i) u g pz)).thread l := by
    unfold wroteLanes
    refine Warp.thread_lanes _ (fun l t => wroteT true (hlp l) t) _ (s.warp i.warp).threads.length (fun _ _ => Warp.length_writeLane _ _ _ _)
      (fun w l _ hw k hk => Warp.thread_writeLane w l true _ k (by omega)) (h.onceH.filter _) _ ?_ l hl
    rw [foldl_length _ (fun _ _ => Warp.length_writeLane _ _ _ _), length_marked]; rfl
  rw [e1, e2, thread_marked h u g pz l hl]
  unfold lanePred laneFlags wroteT
  dsimp only
  by_cases hm : ((s.ctx i).members g).contains l = true
  · rw [members_helpers h hm, hm]
    cases pz l <;> rfl
  · rw [Bool.not_eq_true] at hm; rw [hm]
    cases ((s.ctx i).helpers g).contains l <;> rfl

/-- A thread that no lane has. -/
theorem Warp.thread_absent (w : Warp) (l : Nat) (h : w.threads.length ≤ l) : w.thread l = Thread.absent := by
  rw [Warp.thread, List.getD_eq_getElem?_getD, List.getElem?_eq_none h]; rfl

theorem Warp.advance_thread {s : State} {i : Issue} (h : Group s i) (w : Warp) (len l : Nat) (hw : w.threads.length = (s.warp i.warp).threads.length)
    (hs : ∀ l, l < (s.warp i.warp).threads.length → (w.thread l).st = ((s.warp i.warp).thread l).st ∧ (w.thread l).pc = ((s.warp i.warp).thread l).pc)
    (hl : l < (s.warp i.warp).threads.length) : (w.advance i.lanes len).thread l = { w.thread l with pc := lanePc s i len l } := by
  rw [Warp.thread_advance _ _ _ h.once _ (by omega)]
  unfold lanePc movedT
  dsimp only
  by_cases hm : i.lanes.contains l = true
  · have ha := (h.lanes l (List.contains_iff_mem.mp hm)).2.2
    rw [if_pos hm, if_pos hm, (hs l hl).1, ha, (hs l hl).2]; rfl
  · rw [if_neg hm, if_neg hm, ← (hs l hl).2]

/-- What a state leaves of a group whose lanes came to `mem` and helpers to `hlp`, its warp `x` but for the seed. -/
theorem laneNext_of {s : State} {i : Issue} (h : Group s i) (u : Usage) (g : BitVec 4) (len : Nat) (pz : Nat → Bool) (mem hlp : Nat → LaneOut)
    (seed : BitVec 64) (x : Warp) (hx : x = { (wroteLanes (s.ctx i) u g pz mem hlp).advance i.lanes len with srseed := seed }) :
    LaneNext s (s.setWarp i.warp x).endIssue i g u len pz mem hlp seed := by
  have hv : ∀ l r, x.vreg l r = (wroteLanes (s.ctx i) u g pz mem hlp).vreg l r := fun l r => by
    subst hx; exact Warp.vreg_of_v (Warp.v_advance _ _ _) l r
  have ht : ∀ l, l < (s.warp i.warp).threads.length → x.thread l = { (s.warp i.warp).thread l with
      p := lanePred s i g mem hlp l, lstat := laneFlags s i g pz mem l, pc := lanePc s i len l } := by
    intro l hl
    have e : x.thread l = ((wroteLanes (s.ctx i) u g pz mem hlp).advance i.lanes len).thread l := by subst hx; rfl
    rw [e, Warp.advance_thread h _ len l (length_wroteLanes _ _ _ _ _ _) (fun l hl => by rw [thread_wroteLanes h u g pz mem hlp l hl]; exact ⟨rfl, rfl⟩) hl,
      thread_wroteLanes h u g pz mem hlp l hl]
  have hlen : x.threads.length = (s.warp i.warp).threads.length := by
    subst hx; exact (Warp.length_advance _ _ _).trans (length_wroteLanes _ _ _ _ _ _)
  have hw : (s.setWarp i.warp x).endIssue.warp i.warp = x := by simp
  refine ⟨?_, ?_, ?_, ?_, ?_, ?_, onlyWarp_setWarp s i.warp x⟩
  · intro l r hl; rw [hw, hv, vreg_wroteLanes h u g pz mem hlp l r hl]
  · intro l hl; rw [hw, ht l hl]
  · intro l hl; rw [hw, ht l hl]
  · intro l hl; rw [hw, ht l hl]
  · rw [hw]; refine ⟨hlen, fun l => ?_⟩
    by_cases hl : l < (s.warp i.warp).threads.length
    · rw [ht l hl]; rfl
    · rw [Warp.thread_absent _ _ (by omega), Warp.thread_absent _ _ (by omega)]; rfl
  · rw [hw]; subst hx
    refine ⟨?_, rfl⟩
    have := Warp.sameBut_trans (Warp.advance_same (wroteLanes (s.ctx i) u g pz mem hlp) i.lanes len) (wroteLanes_same _ _ _ _ _ _)
    simp only [ctx_w] at this
    unfold Warp.sameBut at this ⊢
    exact (congrArg (fun y : Warp => { y with srseed := (s.warp i.warp).srseed }) this)

/-- What follows an issue touches the seed only. -/
def SeedOnly (after : Warp → Warp) (seed : Warp → BitVec 64) : Prop := ∀ x w : Warp, Warp.sameBut x w → after x = { x with srseed := seed w }

theorem seedOnly_id : SeedOnly id Warp.srseed := fun x w hx => by
  unfold Warp.sameBut at hx; have e := congrArg Warp.srseed hx; change x.srseed = w.srseed at e; rw [← e]; rfl

theorem seedOnly_step (md : BitVec 9) : SeedOnly (seedStep md) (steppedSeed md) := fun x w hx => by
  unfold Warp.sameBut at hx
  have e := congrArg Warp.srseed hx; change x.srseed = w.srseed at e
  have em := congrArg Warp.mode hx; change x.mode = w.mode at em
  have er : effRM x md = effRM w md := by unfold effRM; rw [em]
  unfold seedStep steppedSeed
  rw [er, e]
  split
  · rfl
  · rw [← e]

/-- A lane instruction that passes its checks completes, and this is all it does (R268). -/
theorem laneInstr_next {s : State} {i : Issue} {g : BitVec 4} {u : Usage} {len : Nat} {f : Ctx → Nat → List Nat → LaneOut} {after : Warp → Warp}
    {seed : Warp → BitVec 64} (ha : SeedOnly after seed) (h : Group s i) (hc : laneChecks u g (fun _ => .go) (s.ctx i) = .go) :
    ∃ t, laneInstr s g u len f after = .next t ∧
      LaneNext s t i g u len (readsDead s i u) (fun l => f (s.ctx i) l (operands (s.warp i.warp) u l))
        (fun l => helperOut (s.ctx i) u l (f (s.ctx i) l (operands (s.warp i.warp) u l))) (seed (s.warp i.warp)) :=
  ⟨_, issueWith_go h.on hc, laneNext_of h u g len _ _ _ (seed (s.warp i.warp)) _
    (ha _ _ (Warp.sameBut_trans (Warp.advance_same _ _ _) (wroteLanes_same _ _ _ (readsDead s i u) _ _)))⟩

/-- A lane instruction that draws nothing leaves the seed. -/
theorem laneInstr_plain {s : State} {i : Issue} {g : BitVec 4} {u : Usage} {len : Nat} {f : Ctx → Nat → List Nat → LaneOut}
    (h : Group s i) (hc : laneChecks u g (fun _ => .go) (s.ctx i) = .go) :
    ∃ t, laneInstr s g u len f = .next t ∧
      LaneNext s t i g u len (readsDead s i u) (fun l => f (s.ctx i) l (operands (s.warp i.warp) u l))
        (fun l => helperOut (s.ctx i) u l (f (s.ctx i) l (operands (s.warp i.warp) u l))) (s.warp i.warp).srseed :=
  laneInstr_next seedOnly_id h hc

/-- An exchange that passes its checks completes, and this is all it does (R312 to R314). -/
theorem exchange_next {s : State} {i : Issue} {g : BitVec 4} {u : Usage} {own0 : Bool} {waits : Ctx → Bool} {reads : Ctx → Nat → List Nat}
    {f : Ctx → Nat → LaneOut} {after : Ctx → Warp → Warp} {seed : Warp → BitVec 64} (ha : SeedOnly (after (s.ctx i)) seed) (h : Group s i)
    (hc : exchangeChecks g u own0 waits reads (s.ctx i) = .go) :
    ∃ t, exchange s g u own0 waits reads f after = .next t ∧
      LaneNext s t i g u 1 (receivesDead (s.ctx i) u reads false) (f (s.ctx i))
        (fun l => if receivesDead (s.ctx i) u reads true l then zeroOut (f (s.ctx i) l) else f (s.ctx i) l) (seed (s.warp i.warp)) :=
  ⟨_, issueWith_go h.on hc, laneNext_of h u g 1 _ _ _ (seed (s.warp i.warp)) _
    (ha _ _ (Warp.sameBut_trans (Warp.advance_same _ _ _) (wroteLanes_same _ _ _ (receivesDead (s.ctx i) u reads false) _ _)))⟩

/-! ### An instruction whose results return later -/

theorem Warp.threads_empties (u : Usage) (ls : List Nat) (w : Warp) :
    (ls.foldl (fun w l => u.dsts.foldl (fun w d => w.emptyV l d.1 d.2) w) w).threads = w.threads :=
  Warp.foldl_threads _ (fun _ _ => Warp.foldl_threads _ (fun _ _ => Warp.threads_emptyV _ _ _ _) _ _) _ _

theorem Warp.empties_same (u : Usage) (ls : List Nat) (w : Warp) :
    Warp.sameBut (ls.foldl (fun w l => u.dsts.foldl (fun w d => w.emptyV l d.1 d.2) w) w) w :=
  Warp.foldl_same _ (fun _ _ => Warp.foldl_same _ (fun _ _ => Warp.emptyV_same _ _ _ _) _ _) _ _

theorem Warp.vreg_emptyDsts (l : Nat) (h : l < 32) (ds : List (Nat × Nat)) : ∀ (w : Warp) (l' r : Nat), l' < 32 →
    (ds.foldl (fun w d => w.emptyV l d.1 d.2) w).vreg l' r =
      if l = l' ∧ ds.any (fun d => d.1 ≤ r && r < d.1 + d.2) = true then { w.vreg l' r with full := false } else w.vreg l' r := by
  induction ds with
  | nil => intro w l' r _; simp
  | cons d ds ih =>
    intro w l' r hl
    rw [List.foldl_cons, ih _ _ _ hl, Warp.vreg_emptyV _ _ _ _ _ _ h hl, List.any_cons]
    by_cases e : l = l'
    · subst e
      cases ds.any (fun d => d.1 ≤ r && r < d.1 + d.2) <;> by_cases a : d.1 ≤ r <;> by_cases b : r < d.1 + d.2 <;> simp [a, b]
    · simp [e]

theorem Warp.vreg_empties {s : State} {i : Issue} (h : Group s i) (u : Usage) (g : BitVec 4) (w : Warp) (l r : Nat) (hl : l < 32) :
    (((s.ctx i).members g ++ (s.ctx i).helpers g).foldl (fun w l => u.dsts.foldl (fun w d => w.emptyV l d.1 d.2) w) w).vreg l r =
      if (((s.ctx i).members g).contains l || ((s.ctx i).helpers g).contains l) && u.dsts.any (fun d => d.1 ≤ r && r < d.1 + d.2) then
        { w.vreg l r with full := false } else w.vreg l r := by
  have lt : ∀ l ∈ (s.ctx i).members g ++ (s.ctx i).helpers g, l < 32 := by
    intro l hm; rcases List.mem_append.mp hm with hm | hm
    · exact (h.lanes l (members_mem hm)).1
    · exact (h.helpers l (helpers_mem hm)).1
  have nd : ((s.ctx i).members g ++ (s.ctx i).helpers g).Nodup :=
    List.nodup_append.mpr ⟨h.once.filter _, h.onceH.filter _, fun l a k b e => h.apart k (helpers_mem b) (e ▸ members_mem a)⟩
  rw [Warp.vreg_lanes _ (fun _ r x => if u.dsts.any (fun d => d.1 ≤ r && r < d.1 + d.2) then { x with full := false } else x) _ (by
      intro w l hm l' r hl'
      rw [Warp.vreg_emptyDsts l (lt l hm) _ _ _ _ hl']
      by_cases e : l = l'
      · subst e; cases u.dsts.any (fun d => d.1 ≤ r && r < d.1 + d.2) <;> simp
      · rw [if_neg (fun a => e a.1), if_neg e]) nd _ _ _ hl, List.contains_append]
  cases (((s.ctx i).members g).contains l || ((s.ctx i).helpers g).contains l) <;>
    cases u.dsts.any (fun d => d.1 ≤ r && r < d.1 + d.2) <;> simp

/-- The warp of a late issue before its group moves on. -/
def emptied (c : Ctx) (u : Usage) (g : BitVec 4) : Warp :=
  (c.members g ++ c.helpers g).foldl (fun w l => u.dsts.foldl (fun w d => w.emptyV l d.1 d.2) w) (c.sourced u g)

/-- A late instruction that passes its checks issues, and this is all it does (R95). -/
theorem lateInstr_next {s : State} {i : Issue} {g : BitVec 4} {u : Usage} {len : Nat} {kind : PendKind} {rules : Ctx → Check} {latency : Ctx → Nat}
    {f : Ctx → Nat → List Nat → LaneOut} {after : Warp → Warp} {seed : Warp → BitVec 64} (ha : SeedOnly after seed)
    {unit : Ctx → NMap Core → NMap Core} (h : Group s i) (hc : laneChecks u g rules (s.ctx i) = .go) :
    ∃ t, lateInstr s g u len kind rules latency f after unit = .next t ∧ LateNext s t i g u len (fun x =>
      x.id = s.fresh ∧ x.warp = i.warp ∧ x.kind = kind ∧ x.gen = (s.warp i.warp).gen.toNat ∧ x.due = s.clk + latency (s.ctx i) ∧
      x.writes = ((s.ctx i).members g).flatMap (fun l => splitVals l (f (s.ctx i) l (operands (s.warp i.warp) u l))) ++
        ((s.ctx i).helpers g).flatMap (fun l => splitVals l (helperOut (s.ctx i) u l (f (s.ctx i) l (operands (s.warp i.warp) u l)))) ∧
      x.flags = ((s.ctx i).members g).map fun l => (l, (f (s.ctx i) l (operands (s.warp i.warp) u l)).flags)) (seed (s.warp i.warp)) (unit (s.ctx i)) := by
  refine ⟨_, issueWith_go h.on hc, ?_⟩
  have hx := ha ((emptied (s.ctx i) u g).advance i.lanes len) (s.warp i.warp) (Warp.sameBut_trans (Warp.advance_same _ _ _)
    (Warp.sameBut_trans (Warp.empties_same _ _ _) (marked_same _ _ _ (readsDead s i u))))
  have key : ∀ t : State, t.warps = (s.setWarp i.warp (after ((emptied (s.ctx i) u g).advance i.lanes len))).warps → t.issue = none →
      { t with warps := s.warps, issue := s.issue, pend := s.pend, fresh := s.fresh, cores := s.cores } = s →
      ∀ p : Pend → Prop, (if (((s.ctx i).members g) ++ ((s.ctx i).helpers g)).isEmpty then t.pend = s.pend ∧ t.cores = s.cores
        else ∃ x, t.pend = s.pend ++ [x] ∧ t.fresh = s.fresh + 1 ∧ t.cores = unit (s.ctx i) s.cores ∧ p x) →
      LateNext s t i g u len p (seed (s.warp i.warp)) (unit (s.ctx i)) := by
    intro t hw hi hm p hp
    have w1 : ∀ k, t.warp k = (s.setWarp i.warp (after ((emptied (s.ctx i) u g).advance i.lanes len))).warp k := fun k => by
      unfold State.warp; rw [hw]
    have w2 : t.warp i.warp = { (emptied (s.ctx i) u g).advance i.lanes len with srseed := seed (s.warp i.warp) } := by
      rw [w1, warp_setWarp_same]; exact hx
    have hlen : (emptied (s.ctx i) u g).threads.length = (s.warp i.warp).threads.length := by
      unfold emptied; rw [Warp.threads_empties]; exact length_marked _ _ _ (readsDead s i u)
    have th : ∀ l, l < (s.warp i.warp).threads.length → (emptied (s.ctx i) u g).thread l =
        if ((s.ctx i).members g).contains l && readsDead s i u l then
          { (s.warp i.warp).thread l with lstat := ((s.warp i.warp).thread l).lstat ||| flagPoison } else (s.warp i.warp).thread l := by
      intro l hl; unfold emptied
      rw [Warp.thread_of_threads (Warp.threads_empties _ _ _)]; exact thread_marked h u g (readsDead s i u) l hl
    have th2 : ∀ l, l < (s.warp i.warp).threads.length → (t.warp i.warp).thread l =
        { (s.warp i.warp).thread l with lstat := laneFlags s i g (readsDead s i u) (fun _ => {}) l, pc := lanePc s i len l } := by
      intro l hl
      have e : (t.warp i.warp).thread l = ((emptied (s.ctx i) u g).advance i.lanes len).thread l := by rw [w2]; rfl
      rw [e, Warp.advance_thread h _ len l hlen (fun l hl => by rw [th l hl]; split <;> exact ⟨rfl, rfl⟩) hl, th l hl]
      unfold laneFlags
      dsimp only
      cases ((s.ctx i).members g).contains l <;> cases readsDead s i u l <;> simp
    refine ⟨?_, ?_, ?_, ?_, ?_, ⟨hm, hi, ?_⟩, hp⟩
    · intro l r hl
      have e : (t.warp i.warp).vreg l r = (emptied (s.ctx i) u g).vreg l r := by
        rw [w2]; exact Warp.vreg_of_v (Warp.v_advance _ _ _) l r
      rw [e]; unfold emptied
      rw [Warp.vreg_empties h u g _ l r hl, show (s.ctx i).sourced u g = marked (s.ctx i) u g (readsDead s i u) from rfl,
        vreg_marked h u g _ l r hl]
      have e2 : laneReg s i g u (fun _ => {}) (fun _ => {}) l r =
          if i.lanes.contains l || i.helpers.contains l then markedV u r ((s.warp i.warp).vreg l r) else (s.warp i.warp).vreg l r := by
        unfold laneReg wroteV; simp
      rw [e2]
    · intro l hl; rw [th2 l hl]
    · intro l hl; rw [th2 l hl]
    · refine ⟨?_, fun l => ?_⟩
      · rw [w2]; exact (Warp.length_advance _ _ _).trans hlen
      · by_cases hl : l < (s.warp i.warp).threads.length
        · rw [th2 l hl]
        · rw [Warp.thread_absent (s.warp i.warp) _ (by omega), Warp.thread_absent (t.warp i.warp) _ (by
            rw [w2]; have := (Warp.length_advance (emptied (s.ctx i) u g) i.lanes len).trans hlen; dsimp only; omega)]
    · rw [w2]
      refine ⟨?_, rfl⟩
      have := Warp.sameBut_trans (Warp.advance_same (emptied (s.ctx i) u g) i.lanes len)
        (Warp.sameBut_trans (Warp.empties_same u ((s.ctx i).members g ++ (s.ctx i).helpers g) ((s.ctx i).sourced u g)) (marked_same _ _ _ (readsDead s i u)))
      simp only [ctx_w] at this
      unfold Warp.sameBut at this ⊢
      exact (congrArg (fun y : Warp => { y with srseed := (s.warp i.warp).srseed }) this)
    · intro k hk; rw [w1, warp_setWarp, if_neg (Ne.symm hk)]
  by_cases hE : (((s.ctx i).members g) ++ ((s.ctx i).helpers g)).isEmpty = true
  · apply key <;> simp only [if_pos hE] <;> first | rfl | exact ⟨rfl, rfl⟩
  · apply key <;> simp only [if_neg hE]
    · rfl
    · rfl
    · rfl
    · exact ⟨_, rfl, rfl, rfl, rfl, rfl, rfl, rfl, rfl, rfl, rfl⟩

/-! ### A scalar instruction -/

theorem Warp.sreg_writeS (w : Warp) (r k : Nat) (x : Word) : (w.writeS r x).sreg k = if r = k then x else w.sreg k := by
  unfold Warp.writeS Warp.sreg; dsimp only
  split <;> exact NMap.getD_set _ _ _ _ _

/-- What the s and q results make of a warp. -/
def ScalarOut.writeSQ (o : ScalarOut) (w : Warp) : Warp :=
  let w := match o.s with | some x => w.writeS x.1 x.2 | none => w
  match o.q with | some x => w.writeQ x.1 x.2 | none => w

/-- What a scalar result makes of a warp. -/
def ScalarOut.write (o : ScalarOut) (w : Warp) : Warp :=
  match o.b with | some x => { o.writeSQ w with b := NMap.set (o.writeSQ w).b x.1 x.2 } | none => o.writeSQ w

@[simp] theorem Warp.threads_writeS (w : Warp) (r : Nat) (x : Word) : (w.writeS r x).threads = w.threads := by
  unfold Warp.writeS; dsimp only; split <;> rfl
@[simp] theorem Warp.threads_writeQ (w : Warp) (k : Nat) (b : Bool) : (w.writeQ k b).threads = w.threads := by
  unfold Warp.writeQ; dsimp only; split <;> rfl
@[simp] theorem Warp.q_writeS (w : Warp) (r : Nat) (x : Word) : (w.writeS r x).q = w.q := by
  unfold Warp.writeS; dsimp only; split <;> rfl
@[simp] theorem Warp.q_writeQ (w : Warp) (k : Nat) (b : Bool) : (w.writeQ k b).q = writePred w.q k b := by
  unfold Warp.writeQ; dsimp only; split <;> rfl
@[simp] theorem Warp.bufRec_writeS (w : Warp) (r : Nat) (x : Word) (k : Nat) : (w.writeS r x).bufRec k = w.bufRec k := by
  unfold Warp.writeS Warp.bufRec; dsimp only; split <;> rfl
@[simp] theorem Warp.bufRec_writeQ (w : Warp) (k : Nat) (b : Bool) (j : Nat) : (w.writeQ k b).bufRec j = w.bufRec j := by
  unfold Warp.writeQ Warp.bufRec; dsimp only; split <;> rfl
@[simp] theorem Warp.sreg_writeQ (w : Warp) (k : Nat) (b : Bool) (j : Nat) : (w.writeQ k b).sreg j = w.sreg j := by
  unfold Warp.writeQ Warp.sreg; dsimp only; split <;> rfl

/-- Two warps that agree but for s, q and b registers, threads and the spin detector. -/
def ScalarSame (x w : Warp) : Prop :=
  { x with s := w.s, q := w.q, b := w.b, sEmpty := w.sEmpty, threads := w.threads, spinCount := w.spinCount, watch := w.watch, floor := w.floor, owed := w.owed } = w

theorem scalarSame_refl (w : Warp) : ScalarSame w w := rfl
theorem scalarSame_trans {x y w : Warp} (h1 : ScalarSame x y) (h2 : ScalarSame y w) : ScalarSame x w := by
  unfold ScalarSame at *; rw [← h2, ← h1]
theorem scalarSame_advance (w : Warp) (ls : List Nat) (n : Nat) : ScalarSame (w.advance ls n) w := by
  unfold Warp.advance
  induction ls generalizing w with
  | nil => exact scalarSame_refl w
  | cons a ls ih =>
    rw [List.foldl_cons]
    refine scalarSame_trans (ih _) ?_
    dsimp only; split <;> rfl
theorem scalarSame_writeS (w : Warp) (r : Nat) (x : Word) : ScalarSame (w.writeS r x) w := by
  unfold Warp.writeS; dsimp only; split <;> rfl
theorem scalarSame_writeQ (w : Warp) (k : Nat) (b : Bool) : ScalarSame (w.writeQ k b) w := by
  unfold Warp.writeQ; dsimp only; split <;> rfl

/-- Moving on changes threads only (R240). -/
theorem Warp.advance_eq (ls : List Nat) (n : Nat) : ∀ w : Warp, w.advance ls n = { w with threads := (w.advance ls n).threads } := by
  unfold Warp.advance
  induction ls with
  | nil => intro w; rfl
  | cons a ls ih =>
    intro w
    rw [List.foldl_cons]
    refine (ih _).trans ?_
    dsimp only; split <;> rfl

theorem ScalarOut.writeSQ_same (o : ScalarOut) (w : Warp) : ScalarSame (o.writeSQ w) w := by
  obtain ⟨s, q, b⟩ := o
  unfold ScalarOut.writeSQ
  cases s <;> cases q <;> dsimp only
  · rfl
  · exact scalarSame_writeQ _ _ _
  · exact scalarSame_writeS _ _ _
  · exact scalarSame_trans (scalarSame_writeQ _ _ _) (scalarSame_writeS _ _ _)

theorem ScalarOut.write_same (o : ScalarOut) (w : Warp) : ScalarSame (o.write w) w := by
  unfold ScalarOut.write
  split
  · exact scalarSame_trans (y := o.writeSQ w) rfl (o.writeSQ_same w)
  · exact o.writeSQ_same w

@[simp] theorem ScalarOut.threads_write (o : ScalarOut) (w : Warp) : (o.write w).threads = w.threads := by
  have h : (o.writeSQ w).threads = w.threads := by
    unfold ScalarOut.writeSQ; split <;> split <;> simp
  unfold ScalarOut.write; split <;> exact h

theorem ScalarOut.sreg_write (o : ScalarOut) (w : Warp) (r : Nat) : (o.write w).sreg r = match o.s with
    | some x => if x.1 = r then x.2 else w.sreg r
    | none => w.sreg r := by
  have h : (o.write w).sreg r = (o.writeSQ w).sreg r := by unfold ScalarOut.write; split <;> rfl
  rw [h]
  obtain ⟨s, q, b⟩ := o
  unfold ScalarOut.writeSQ
  cases s <;> cases q <;> dsimp only
  · exact Warp.sreg_writeQ _ _ _ _
  · exact Warp.sreg_writeS _ _ _ _
  · exact (Warp.sreg_writeQ _ _ _ _).trans (Warp.sreg_writeS _ _ _ _)

theorem ScalarOut.q_write (o : ScalarOut) (w : Warp) : (o.write w).q = match o.q with
    | some x => writePred w.q x.1 x.2
    | none => w.q := by
  have h : (o.write w).q = (o.writeSQ w).q := by unfold ScalarOut.write; split <;> rfl
  rw [h]
  obtain ⟨s, q, b⟩ := o
  unfold ScalarOut.writeSQ
  cases s <;> cases q <;> simp

theorem ScalarOut.bufRec_write (o : ScalarOut) (w : Warp) (r : Nat) : (o.write w).bufRec r = match o.b with
    | some x => if x.1 = r then x.2 else w.bufRec r
    | none => w.bufRec r := by
  have h : (o.writeSQ w).bufRec r = w.bufRec r := by
    unfold ScalarOut.writeSQ; split <;> split <;> simp
  unfold ScalarOut.write
  split
  · rw [← h]; exact NMap.getD_set _ _ _ _ _
  · exact h

/-- A scalar instruction that passes its checks completes, and this is all it does (R292). -/
theorem scalarInstr_next {s : State} {i : Issue} {g : BitVec 4} {u : Usage} {f : Ctx → Warp → Warp} {o : Warp → ScalarOut}
    (hf : f (s.ctx i) (s.warp i.warp) = (o (s.warp i.warp)).write (s.warp i.warp)) (h : Group s i)
    (hc : scalarChecks u g (s.ctx i) = .go) :
    ∃ t, scalarInstr s g u 1 f = .next t ∧ ScalarNext s t i 1 (if (s.ctx i).qOn g then o (s.warp i.warp) else {}) := by
  refine ⟨_, issueWith_go h.on hc, ?_⟩
  have e : (if (s.ctx i).qOn g then f (s.ctx i) (s.ctx i).w else (s.ctx i).w) =
      (if (s.ctx i).qOn g then o (s.warp i.warp) else {}).write (s.warp i.warp) := by
    cases (s.ctx i).qOn g
    · rfl
    · exact hf
  generalize (if (s.ctx i).qOn g then o (s.warp i.warp) else ({} : ScalarOut)) = y at e ⊢
  simp only [e, ctx_wid, ctx_i]
  have hw : (s.setWarp i.warp ((y.write (s.warp i.warp)).advance i.lanes 1)).endIssue.warp i.warp =
      (y.write (s.warp i.warp)).advance i.lanes 1 := by simp
  have ha := scalarSame_advance (y.write (s.warp i.warp)) i.lanes 1
  refine ⟨?_, ?_, ?_, ?_, ?_, onlyWarp_setWarp s i.warp _⟩
  · intro r; rw [hw, Warp.advance_eq]; exact y.sreg_write _ r
  · rw [hw, Warp.advance_eq]; exact y.q_write _
  · intro r; rw [hw, Warp.advance_eq]; exact y.bufRec_write _ r
  · intro l hl
    refine (congrArg (fun w : Warp => w.thread l) hw).trans ?_
    have ht : ∀ l, (y.write (s.warp i.warp)).thread l = (s.warp i.warp).thread l := fun l =>
      Warp.thread_of_threads (ScalarOut.threads_write _ _) l
    dsimp only
    rw [Warp.advance_thread h _ 1 l (by rw [ScalarOut.threads_write]) (fun l _ => by rw [ht l]; exact ⟨rfl, rfl⟩) hl, ht l]
  · have := scalarSame_trans ha (ScalarOut.write_same y (s.warp i.warp))
    dsimp only
    rw [hw]; exact this

/-! ### From a meaning to what it runs -/

/-- An instruction whose meaning is a lane instruction runs as one. -/
theorem laneRuns_of {s : State} {i : Issue} {ins : Instr} {g : BitVec 4} {len : Nat} {f : Ctx → Nat → List Nat → LaneOut}
    (e : exec ins s = laneInstr s g (useOf ins) len f) : LaneRuns s i ins g len f := fun h hc => by
  rw [e]; exact laneInstr_plain h hc

/-- The same of one that steps the seed (R62). -/
theorem laneRuns_seed {s : State} {i : Issue} {ins : Instr} {g : BitVec 4} {len : Nat} {f : Ctx → Nat → List Nat → LaneOut} {md : BitVec 9}
    (e : exec ins s = laneInstr s g (useOf ins) len f (seedStep md)) : LaneRuns s i ins g len f (steppedSeed md) := fun h hc => by
  rw [e]; exact laneInstr_next (seedOnly_step md) h hc

theorem exchangeRuns_of {s : State} {i : Issue} {ins : Instr} {g : BitVec 4} {own0 : Bool} {waits : Ctx → Bool} {reads : Ctx → Nat → List Nat}
    {f : Ctx → Nat → LaneOut} (e : exec ins s = exchange s g (useOf ins) own0 waits reads f) : ExchangeRuns s i ins g own0 waits reads f := fun h hc => by
  rw [e]; exact exchange_next (after := fun _ w => w) seedOnly_id h hc

theorem exchangeRuns_seed {s : State} {i : Issue} {ins : Instr} {g : BitVec 4} {own0 : Bool} {waits : Ctx → Bool} {reads : Ctx → Nat → List Nat}
    {f : Ctx → Nat → LaneOut} {md : BitVec 9} (e : exec ins s = exchange s g (useOf ins) own0 waits reads f (fun _ w => seedStep md w)) :
    ExchangeRuns s i ins g own0 waits reads f (steppedSeed md) := fun h hc => by
  rw [e]; exact exchange_next (after := fun _ w => seedStep md w) (seedOnly_step md) h hc

theorem lateRuns_of {s : State} {i : Issue} {ins : Instr} {g : BitVec 4} {len : Nat} {kind : PendKind} {rules : Ctx → Check} {latency : Ctx → Nat}
    {f : Ctx → Nat → List Nat → LaneOut} {unit : Ctx → NMap Core → NMap Core}
    (e : exec ins s = lateInstr s g (useOf ins) len kind rules latency f id unit) :
    LateRuns s i ins g len kind rules latency f Warp.srseed unit := fun h hc => by
  rw [e]; exact lateInstr_next seedOnly_id h hc

theorem lateRuns_seed {s : State} {i : Issue} {ins : Instr} {g : BitVec 4} {len : Nat} {kind : PendKind} {rules : Ctx → Check} {latency : Ctx → Nat}
    {f : Ctx → Nat → List Nat → LaneOut} {md : BitVec 9} (e : exec ins s = lateInstr s g (useOf ins) len kind rules latency f (seedStep md)) :
    LateRuns s i ins g len kind rules latency f (steppedSeed md) := fun h hc => by
  rw [e]; exact lateInstr_next (seedOnly_step md) h hc

/-- An instruction whose meaning is a scalar instruction runs as one, where its result is `o`. -/
theorem scalarRuns_of {s : State} {i : Issue} {ins : Instr} {g : BitVec 4} {f : Ctx → Warp → Warp} {o : Warp → ScalarOut}
    (e : exec ins s = scalarInstr s g (useOf ins) 1 f) (hf : ∀ c w, f c w = (o w).write w) : ScalarRuns s i ins g o := fun h hc => by
  rw [e]; exact scalarInstr_next (hf _ _) h hc

end Sys2Proof.Machine
end

