-- ==== Sys2Proof/Laws/Control.lean ====
section
/-!
SUPPORT. What moving the threads of a group does: branches (R240, R337, R338), and instructions that only fall through.
-/
namespace Sys2Proof.Machine

/-- The warp after a group's threads moved by `f`, and after the spin detector saw a branch, is as `f` says. -/
theorem threadsNext_of {s : State} {i : Issue} {w0 x : Warp} {f : Nat → Thread → Thread} (hl : x.threads.length = w0.threads.length)
    (ht : ∀ l, l < w0.threads.length → x.thread l = f l (w0.thread l))
    (hw : { x with threads := w0.threads, spinPc := w0.spinPc, spinCount := w0.spinCount } = w0) :
    ThreadsNext s (s.setWarp i.warp x).endIssue i w0 f := by
  have e : (s.setWarp i.warp x).endIssue.warp i.warp = x := by simp
  refine ⟨?_, ?_, onlyWarp_setWarp s i.warp x⟩
  · rw [e]; exact ⟨hl, ht⟩
  · rw [e]; exact hw

/-- Falling through. -/
theorem threadsNext_advance {s : State} {i : Issue} (h : Group s i) (w0 : Warp) (len : Nat)
    (hl : w0.threads.length = (s.warp i.warp).threads.length)
    (hs : ∀ l, l < (s.warp i.warp).threads.length → (w0.thread l).st = ((s.warp i.warp).thread l).st) :
    ThreadsNext s (s.setWarp i.warp (w0.advance i.lanes len)).endIssue i w0 (passed i len) := by
  refine threadsNext_of (Warp.length_advance _ _ _) ?_ ?_
  · intro l hl'
    rw [Warp.thread_advance _ _ _ h.once _ hl']
    unfold passed movedT Thread.past
    by_cases hm : i.lanes.contains l = true
    · have ha := (h.lanes l (List.contains_iff_mem.mp hm)).2.2
      rw [if_pos hm, if_pos hm, if_pos (by rw [hs l (by omega), ha]; rfl)]
    · rw [if_neg hm, if_neg hm]
  · rw [Warp.advance_eq]

theorem Warp.spinBranch_eq (w : Warp) (pc : PC) (d : Int) : ∃ a b, w.spinBranch pc d = { w with spinPc := a, spinCount := b } := by
  unfold Warp.spinBranch
  split
  · exact ⟨w.spinPc, w.spinCount, rfl⟩
  · split
    · exact ⟨w.spinPc, _, rfl⟩
    · exact ⟨_, _, rfl⟩

/-- A branch of a group (R240, R337). -/
theorem branchLanes_next {s : State} {i : Issue} (h : Group s i) (w0 : Warp) (len : Nat) (target : Nat → Option Int) :
    ThreadsNext s (branchLanes s (s.ctx i) w0 len target).endIssue i w0 (branched i len fun l => (target l).map Int.toNat) := by
  let f (l : Nat) (t : Thread) : Thread := match target l with
    | some d => t.goto i.pc.slot d.toNat
    | none => { t with pc := { t.pc with ofs := t.pc.ofs + len } }
  obtain ⟨a, b, hab⟩ : ∃ a b, (match (i.lanes.filterMap target).find? fun d => decide (d ≤ (i.pc.ofs : Int)) with
      | some d => (i.lanes.foldl (fun w k => w.modThread k (f k)) w0).spinBranch i.pc d
      | none => i.lanes.foldl (fun w k => w.modThread k (f k)) w0) =
      { i.lanes.foldl (fun w k => w.modThread k (f k)) w0 with spinPc := a, spinCount := b } := by
    split
    · exact Warp.spinBranch_eq _ _ _
    · exact ⟨_, _, rfl⟩
  have e : branchLanes s (s.ctx i) w0 len target =
      s.setWarp i.warp { i.lanes.foldl (fun w k => w.modThread k (f k)) w0 with spinPc := a, spinCount := b } := by
    rw [← hab]; rfl
  rw [e]
  refine threadsNext_of (Warp.length_each f i.lanes w0) ?_ ?_
  · intro l hl'
    refine (Warp.thread_each f i.lanes h.once w0 l hl').trans ?_
    unfold branched
    split
    · dsimp only [f]
      cases target l <;> rfl
    · rfl
  · rw [Warp.each_eq f i.lanes w0]

end Sys2Proof.Machine
end

