-- ==== Sys2Proof/Laws/State.lean ====
section
/-!
SUPPORT. What each update of a state leaves as it was, one lemma a field, so that no proof unfolds a record update; and what each accessor reads
after the update of its own table.
-/
namespace Sys2Proof.Machine

/-! ### setReg -/

@[simp] theorem State.setReg_clk (s : State) (r : RegName) (i v : Nat) : (s.setReg r i v).clk = s.clk := rfl
@[simp] theorem State.setReg_fresh (s : State) (r : RegName) (i v : Nat) : (s.setReg r i v).fresh = s.fresh := rfl
@[simp] theorem State.setReg_draw (s : State) (r : RegName) (i v : Nat) : (s.setReg r i v).draw = s.draw := rfl
@[simp] theorem State.setReg_issue (s : State) (r : RegName) (i v : Nat) : (s.setReg r i v).issue = s.issue := rfl
@[simp] theorem State.setReg_held (s : State) (r : RegName) (i v : Nat) : (s.setReg r i v).held = s.held := rfl
@[simp] theorem State.setReg_issued (s : State) (r : RegName) (i v : Nat) : (s.setReg r i v).issued = s.issued := rfl
@[simp] theorem State.setReg_inputs (s : State) (r : RegName) (i v : Nat) : (s.setReg r i v).inputs = s.inputs := rfl
@[simp] theorem State.setReg_mem (s : State) (r : RegName) (i v : Nat) : (s.setReg r i v).mem = s.mem := rfl
@[simp] theorem State.setReg_islands (s : State) (r : RegName) (i v : Nat) : (s.setReg r i v).islands = s.islands := rfl
@[simp] theorem State.setReg_cores (s : State) (r : RegName) (i v : Nat) : (s.setReg r i v).cores = s.cores := rfl
@[simp] theorem State.setReg_warps (s : State) (r : RegName) (i v : Nat) : (s.setReg r i v).warps = s.warps := rfl
@[simp] theorem State.setReg_blocks (s : State) (r : RegName) (i v : Nat) : (s.setReg r i v).blocks = s.blocks := rfl
@[simp] theorem State.setReg_grids (s : State) (r : RegName) (i v : Nat) : (s.setReg r i v).grids = s.grids := rfl
@[simp] theorem State.setReg_pend (s : State) (r : RegName) (i v : Nat) : (s.setReg r i v).pend = s.pend := rfl
@[simp] theorem State.setReg_waits (s : State) (r : RegName) (i v : Nat) : (s.setReg r i v).waits = s.waits := rfl
@[simp] theorem State.setReg_msgs (s : State) (r : RegName) (i v : Nat) : (s.setReg r i v).msgs = s.msgs := rfl
@[simp] theorem State.setReg_spans (s : State) (r : RegName) (i v : Nat) : (s.setReg r i v).spans = s.spans := rfl
@[simp] theorem State.setReg_dir (s : State) (r : RegName) (i v : Nat) : (s.setReg r i v).dir = s.dir := rfl
@[simp] theorem State.setReg_once (s : State) (r : RegName) (i v : Nat) : (s.setReg r i v).once = s.once := rfl
@[simp] theorem State.setReg_tlb (s : State) (r : RegName) (i v : Nat) : (s.setReg r i v).tlb = s.tlb := rfl
@[simp] theorem State.setReg_dual (s : State) (r : RegName) (i v : Nat) : (s.setReg r i v).dual = s.dual := rfl
@[simp] theorem State.setReg_stalls (s : State) (r : RegName) (i v : Nat) : (s.setReg r i v).stalls = s.stalls := rfl
@[simp] theorem State.setReg_mapJobs (s : State) (r : RegName) (i v : Nat) : (s.setReg r i v).mapJobs = s.mapJobs := rfl
@[simp] theorem State.setReg_maps (s : State) (r : RegName) (i v : Nat) : (s.setReg r i v).maps = s.maps := rfl
@[simp] theorem State.setReg_mapkNotes (s : State) (r : RegName) (i v : Nat) : (s.setReg r i v).mapkNotes = s.mapkNotes := rfl
@[simp] theorem State.setReg_frames (s : State) (r : RegName) (i v : Nat) : (s.setReg r i v).frames = s.frames := rfl
@[simp] theorem State.setReg_asids (s : State) (r : RegName) (i v : Nat) : (s.setReg r i v).asids = s.asids := rfl
@[simp] theorem State.setReg_asidGen (s : State) (r : RegName) (i v : Nat) : (s.setReg r i v).asidGen = s.asidGen := rfl
@[simp] theorem State.setReg_ranks (s : State) (r : RegName) (i v : Nat) : (s.setReg r i v).ranks = s.ranks := rfl
@[simp] theorem State.setReg_nranks (s : State) (r : RegName) (i v : Nat) : (s.setReg r i v).nranks = s.nranks := rfl
@[simp] theorem State.setReg_rankCache (s : State) (r : RegName) (i v : Nat) : (s.setReg r i v).rankCache = s.rankCache := rfl
@[simp] theorem State.setReg_windows (s : State) (r : RegName) (i v : Nat) : (s.setReg r i v).windows = s.windows := rfl
@[simp] theorem State.setReg_packets (s : State) (r : RegName) (i v : Nat) : (s.setReg r i v).packets = s.packets := rfl
@[simp] theorem State.setReg_ports (s : State) (r : RegName) (i v : Nat) : (s.setReg r i v).ports = s.ports := rfl
@[simp] theorem State.setReg_topo (s : State) (r : RegName) (i v : Nat) : (s.setReg r i v).topo = s.topo := rfl
@[simp] theorem State.setReg_update (s : State) (r : RegName) (i v : Nat) : (s.setReg r i v).update = s.update := rfl
@[simp] theorem State.setReg_fenceSites (s : State) (r : RegName) (i v : Nat) : (s.setReg r i v).fenceSites = s.fenceSites := rfl
@[simp] theorem State.setReg_retireCores (s : State) (r : RegName) (i v : Nat) : (s.setReg r i v).retireCores = s.retireCores := rfl
@[simp] theorem State.setReg_queueRecs (s : State) (r : RegName) (i v : Nat) : (s.setReg r i v).queueRecs = s.queueRecs := rfl
@[simp] theorem State.setReg_rr (s : State) (r : RegName) (i v : Nat) : (s.setReg r i v).rr = s.rr := rfl
@[simp] theorem State.setReg_lastGid (s : State) (r : RegName) (i v : Nat) : (s.setReg r i v).lastGid = s.lastGid := rfl
@[simp] theorem State.setReg_gridctl (s : State) (r : RegName) (i v : Nat) : (s.setReg r i v).gridctl = s.gridctl := rfl
@[simp] theorem State.setReg_gauges (s : State) (r : RegName) (i v : Nat) : (s.setReg r i v).gauges = s.gauges := rfl
@[simp] theorem State.setReg_parts (s : State) (r : RegName) (i v : Nat) : (s.setReg r i v).parts = s.parts := rfl
@[simp] theorem State.setReg_samples (s : State) (r : RegName) (i v : Nat) : (s.setReg r i v).samples = s.samples := rfl
@[simp] theorem State.setReg_interrupts (s : State) (r : RegName) (i v : Nat) : (s.setReg r i v).interrupts = s.interrupts := rfl
@[simp] theorem State.setReg_cdItime (s : State) (r : RegName) (i v : Nat) : (s.setReg r i v).cdItime = s.cdItime := rfl
@[simp] theorem State.setReg_images (s : State) (r : RegName) (i v : Nat) : (s.setReg r i v).images = s.images := rfl
@[simp] theorem State.setReg_boot (s : State) (r : RegName) (i v : Nat) : (s.setReg r i v).boot = s.boot := rfl
@[simp] theorem State.setReg_now (s : State) (r : RegName) (i v : Nat) : (s.setReg r i v).now = s.now := rfl
@[simp] theorem State.setReg_rtsFloor (s : State) (r : RegName) (i v : Nat) : (s.setReg r i v).rtsFloor = s.rtsFloor := rfl
@[simp] theorem State.setReg_gidReserve (s : State) (r : RegName) (i v : Nat) : (s.setReg r i v).gidReserve = s.gidReserve := rfl
@[simp] theorem State.setReg_panelRecords (s : State) (r : RegName) (i v : Nat) : (s.setReg r i v).panelRecords = s.panelRecords := rfl
@[simp] theorem State.setReg_rootLost (s : State) (r : RegName) (i v : Nat) : (s.setReg r i v).rootLost = s.rootLost := rfl
@[simp] theorem State.setReg_returned (s : State) (r : RegName) (i v : Nat) : (s.setReg r i v).returned = s.returned := rfl
@[simp] theorem State.setReg_widths (s : State) (r : RegName) (i v : Nat) : (s.setReg r i v).widths = s.widths := rfl

/-! ### command -/

@[simp] theorem State.command_clk (s : State) (r : RegName) (i b : Nat) : (s.command r i b).clk = s.clk := rfl
@[simp] theorem State.command_fresh (s : State) (r : RegName) (i b : Nat) : (s.command r i b).fresh = s.fresh := rfl
@[simp] theorem State.command_draw (s : State) (r : RegName) (i b : Nat) : (s.command r i b).draw = s.draw := rfl
@[simp] theorem State.command_issue (s : State) (r : RegName) (i b : Nat) : (s.command r i b).issue = s.issue := rfl
@[simp] theorem State.command_held (s : State) (r : RegName) (i b : Nat) : (s.command r i b).held = s.held := rfl
@[simp] theorem State.command_issued (s : State) (r : RegName) (i b : Nat) : (s.command r i b).issued = s.issued := rfl
@[simp] theorem State.command_inputs (s : State) (r : RegName) (i b : Nat) : (s.command r i b).inputs = s.inputs := rfl
@[simp] theorem State.command_mem (s : State) (r : RegName) (i b : Nat) : (s.command r i b).mem = s.mem := rfl
@[simp] theorem State.command_regs (s : State) (r : RegName) (i b : Nat) : (s.command r i b).regs = s.regs := rfl
@[simp] theorem State.command_islands (s : State) (r : RegName) (i b : Nat) : (s.command r i b).islands = s.islands := rfl
@[simp] theorem State.command_cores (s : State) (r : RegName) (i b : Nat) : (s.command r i b).cores = s.cores := rfl
@[simp] theorem State.command_warps (s : State) (r : RegName) (i b : Nat) : (s.command r i b).warps = s.warps := rfl
@[simp] theorem State.command_blocks (s : State) (r : RegName) (i b : Nat) : (s.command r i b).blocks = s.blocks := rfl
@[simp] theorem State.command_grids (s : State) (r : RegName) (i b : Nat) : (s.command r i b).grids = s.grids := rfl
@[simp] theorem State.command_pend (s : State) (r : RegName) (i b : Nat) : (s.command r i b).pend = s.pend := rfl
@[simp] theorem State.command_waits (s : State) (r : RegName) (i b : Nat) : (s.command r i b).waits = s.waits := rfl
@[simp] theorem State.command_msgs (s : State) (r : RegName) (i b : Nat) : (s.command r i b).msgs = s.msgs := rfl
@[simp] theorem State.command_spans (s : State) (r : RegName) (i b : Nat) : (s.command r i b).spans = s.spans := rfl
@[simp] theorem State.command_dir (s : State) (r : RegName) (i b : Nat) : (s.command r i b).dir = s.dir := rfl
@[simp] theorem State.command_rtsFloor (s : State) (r : RegName) (i b : Nat) : (s.command r i b).rtsFloor = s.rtsFloor := rfl
@[simp] theorem State.command_once (s : State) (r : RegName) (i b : Nat) : (s.command r i b).once = s.once := rfl
@[simp] theorem State.command_tlb (s : State) (r : RegName) (i b : Nat) : (s.command r i b).tlb = s.tlb := rfl
@[simp] theorem State.command_dual (s : State) (r : RegName) (i b : Nat) : (s.command r i b).dual = s.dual := rfl
@[simp] theorem State.command_stalls (s : State) (r : RegName) (i b : Nat) : (s.command r i b).stalls = s.stalls := rfl
@[simp] theorem State.command_mapJobs (s : State) (r : RegName) (i b : Nat) : (s.command r i b).mapJobs = s.mapJobs := rfl
@[simp] theorem State.command_maps (s : State) (r : RegName) (i b : Nat) : (s.command r i b).maps = s.maps := rfl
@[simp] theorem State.command_mapkNotes (s : State) (r : RegName) (i b : Nat) : (s.command r i b).mapkNotes = s.mapkNotes := rfl
@[simp] theorem State.command_frames (s : State) (r : RegName) (i b : Nat) : (s.command r i b).frames = s.frames := rfl
@[simp] theorem State.command_asids (s : State) (r : RegName) (i b : Nat) : (s.command r i b).asids = s.asids := rfl
@[simp] theorem State.command_asidGen (s : State) (r : RegName) (i b : Nat) : (s.command r i b).asidGen = s.asidGen := rfl
@[simp] theorem State.command_ranks (s : State) (r : RegName) (i b : Nat) : (s.command r i b).ranks = s.ranks := rfl
@[simp] theorem State.command_nranks (s : State) (r : RegName) (i b : Nat) : (s.command r i b).nranks = s.nranks := rfl
@[simp] theorem State.command_rankCache (s : State) (r : RegName) (i b : Nat) : (s.command r i b).rankCache = s.rankCache := rfl
@[simp] theorem State.command_windows (s : State) (r : RegName) (i b : Nat) : (s.command r i b).windows = s.windows := rfl
@[simp] theorem State.command_packets (s : State) (r : RegName) (i b : Nat) : (s.command r i b).packets = s.packets := rfl
@[simp] theorem State.command_ports (s : State) (r : RegName) (i b : Nat) : (s.command r i b).ports = s.ports := rfl
@[simp] theorem State.command_topo (s : State) (r : RegName) (i b : Nat) : (s.command r i b).topo = s.topo := rfl
@[simp] theorem State.command_update (s : State) (r : RegName) (i b : Nat) : (s.command r i b).update = s.update := rfl
@[simp] theorem State.command_fenceSites (s : State) (r : RegName) (i b : Nat) : (s.command r i b).fenceSites = s.fenceSites := rfl
@[simp] theorem State.command_retireCores (s : State) (r : RegName) (i b : Nat) : (s.command r i b).retireCores = s.retireCores := rfl
@[simp] theorem State.command_queueRecs (s : State) (r : RegName) (i b : Nat) : (s.command r i b).queueRecs = s.queueRecs := rfl
@[simp] theorem State.command_rr (s : State) (r : RegName) (i b : Nat) : (s.command r i b).rr = s.rr := rfl
@[simp] theorem State.command_lastGid (s : State) (r : RegName) (i b : Nat) : (s.command r i b).lastGid = s.lastGid := rfl
@[simp] theorem State.command_gidReserve (s : State) (r : RegName) (i b : Nat) : (s.command r i b).gidReserve = s.gidReserve := rfl
@[simp] theorem State.command_gridctl (s : State) (r : RegName) (i b : Nat) : (s.command r i b).gridctl = s.gridctl := rfl
@[simp] theorem State.command_gauges (s : State) (r : RegName) (i b : Nat) : (s.command r i b).gauges = s.gauges := rfl
@[simp] theorem State.command_parts (s : State) (r : RegName) (i b : Nat) : (s.command r i b).parts = s.parts := rfl
@[simp] theorem State.command_samples (s : State) (r : RegName) (i b : Nat) : (s.command r i b).samples = s.samples := rfl
@[simp] theorem State.command_interrupts (s : State) (r : RegName) (i b : Nat) : (s.command r i b).interrupts = s.interrupts := rfl
@[simp] theorem State.command_panelRecords (s : State) (r : RegName) (i b : Nat) : (s.command r i b).panelRecords = s.panelRecords := rfl
@[simp] theorem State.command_cdItime (s : State) (r : RegName) (i b : Nat) : (s.command r i b).cdItime = s.cdItime := rfl
@[simp] theorem State.command_rootLost (s : State) (r : RegName) (i b : Nat) : (s.command r i b).rootLost = s.rootLost := rfl
@[simp] theorem State.command_returned (s : State) (r : RegName) (i b : Nat) : (s.command r i b).returned = s.returned := rfl
@[simp] theorem State.command_images (s : State) (r : RegName) (i b : Nat) : (s.command r i b).images = s.images := rfl
@[simp] theorem State.command_boot (s : State) (r : RegName) (i b : Nat) : (s.command r i b).boot = s.boot := rfl
@[simp] theorem State.command_widths (s : State) (r : RegName) (i b : Nat) : (s.command r i b).widths = s.widths := rfl
@[simp] theorem State.command_reg (s : State) (r q : RegName) (i b k : Nat) : (s.command r i b).reg q k = s.reg q k := rfl

/-! ### setIsl -/

@[simp] theorem State.setIsl_clk (s : State) (n : Nat) (x : Island) : (s.setIsl n x).clk = s.clk := rfl
@[simp] theorem State.setIsl_fresh (s : State) (n : Nat) (x : Island) : (s.setIsl n x).fresh = s.fresh := rfl
@[simp] theorem State.setIsl_draw (s : State) (n : Nat) (x : Island) : (s.setIsl n x).draw = s.draw := rfl
@[simp] theorem State.setIsl_issue (s : State) (n : Nat) (x : Island) : (s.setIsl n x).issue = s.issue := rfl
@[simp] theorem State.setIsl_held (s : State) (n : Nat) (x : Island) : (s.setIsl n x).held = s.held := rfl
@[simp] theorem State.setIsl_issued (s : State) (n : Nat) (x : Island) : (s.setIsl n x).issued = s.issued := rfl
@[simp] theorem State.setIsl_inputs (s : State) (n : Nat) (x : Island) : (s.setIsl n x).inputs = s.inputs := rfl
@[simp] theorem State.setIsl_mem (s : State) (n : Nat) (x : Island) : (s.setIsl n x).mem = s.mem := rfl
@[simp] theorem State.setIsl_regs (s : State) (n : Nat) (x : Island) : (s.setIsl n x).regs = s.regs := rfl
@[simp] theorem State.setIsl_cores (s : State) (n : Nat) (x : Island) : (s.setIsl n x).cores = s.cores := rfl
@[simp] theorem State.setIsl_warps (s : State) (n : Nat) (x : Island) : (s.setIsl n x).warps = s.warps := rfl
@[simp] theorem State.setIsl_blocks (s : State) (n : Nat) (x : Island) : (s.setIsl n x).blocks = s.blocks := rfl
@[simp] theorem State.setIsl_grids (s : State) (n : Nat) (x : Island) : (s.setIsl n x).grids = s.grids := rfl
@[simp] theorem State.setIsl_pend (s : State) (n : Nat) (x : Island) : (s.setIsl n x).pend = s.pend := rfl
@[simp] theorem State.setIsl_waits (s : State) (n : Nat) (x : Island) : (s.setIsl n x).waits = s.waits := rfl
@[simp] theorem State.setIsl_msgs (s : State) (n : Nat) (x : Island) : (s.setIsl n x).msgs = s.msgs := rfl
@[simp] theorem State.setIsl_spans (s : State) (n : Nat) (x : Island) : (s.setIsl n x).spans = s.spans := rfl
@[simp] theorem State.setIsl_dir (s : State) (n : Nat) (x : Island) : (s.setIsl n x).dir = s.dir := rfl
@[simp] theorem State.setIsl_once (s : State) (n : Nat) (x : Island) : (s.setIsl n x).once = s.once := rfl
@[simp] theorem State.setIsl_tlb (s : State) (n : Nat) (x : Island) : (s.setIsl n x).tlb = s.tlb := rfl
@[simp] theorem State.setIsl_dual (s : State) (n : Nat) (x : Island) : (s.setIsl n x).dual = s.dual := rfl
@[simp] theorem State.setIsl_stalls (s : State) (n : Nat) (x : Island) : (s.setIsl n x).stalls = s.stalls := rfl
@[simp] theorem State.setIsl_mapJobs (s : State) (n : Nat) (x : Island) : (s.setIsl n x).mapJobs = s.mapJobs := rfl
@[simp] theorem State.setIsl_maps (s : State) (n : Nat) (x : Island) : (s.setIsl n x).maps = s.maps := rfl
@[simp] theorem State.setIsl_mapkNotes (s : State) (n : Nat) (x : Island) : (s.setIsl n x).mapkNotes = s.mapkNotes := rfl
@[simp] theorem State.setIsl_frames (s : State) (n : Nat) (x : Island) : (s.setIsl n x).frames = s.frames := rfl
@[simp] theorem State.setIsl_asids (s : State) (n : Nat) (x : Island) : (s.setIsl n x).asids = s.asids := rfl
@[simp] theorem State.setIsl_asidGen (s : State) (n : Nat) (x : Island) : (s.setIsl n x).asidGen = s.asidGen := rfl
@[simp] theorem State.setIsl_ranks (s : State) (n : Nat) (x : Island) : (s.setIsl n x).ranks = s.ranks := rfl
@[simp] theorem State.setIsl_nranks (s : State) (n : Nat) (x : Island) : (s.setIsl n x).nranks = s.nranks := rfl
@[simp] theorem State.setIsl_rankCache (s : State) (n : Nat) (x : Island) : (s.setIsl n x).rankCache = s.rankCache := rfl
@[simp] theorem State.setIsl_windows (s : State) (n : Nat) (x : Island) : (s.setIsl n x).windows = s.windows := rfl
@[simp] theorem State.setIsl_packets (s : State) (n : Nat) (x : Island) : (s.setIsl n x).packets = s.packets := rfl
@[simp] theorem State.setIsl_ports (s : State) (n : Nat) (x : Island) : (s.setIsl n x).ports = s.ports := rfl
@[simp] theorem State.setIsl_topo (s : State) (n : Nat) (x : Island) : (s.setIsl n x).topo = s.topo := rfl
@[simp] theorem State.setIsl_update (s : State) (n : Nat) (x : Island) : (s.setIsl n x).update = s.update := rfl
@[simp] theorem State.setIsl_fenceSites (s : State) (n : Nat) (x : Island) : (s.setIsl n x).fenceSites = s.fenceSites := rfl
@[simp] theorem State.setIsl_retireCores (s : State) (n : Nat) (x : Island) : (s.setIsl n x).retireCores = s.retireCores := rfl
@[simp] theorem State.setIsl_queueRecs (s : State) (n : Nat) (x : Island) : (s.setIsl n x).queueRecs = s.queueRecs := rfl
@[simp] theorem State.setIsl_rr (s : State) (n : Nat) (x : Island) : (s.setIsl n x).rr = s.rr := rfl
@[simp] theorem State.setIsl_lastGid (s : State) (n : Nat) (x : Island) : (s.setIsl n x).lastGid = s.lastGid := rfl
@[simp] theorem State.setIsl_gridctl (s : State) (n : Nat) (x : Island) : (s.setIsl n x).gridctl = s.gridctl := rfl
@[simp] theorem State.setIsl_gauges (s : State) (n : Nat) (x : Island) : (s.setIsl n x).gauges = s.gauges := rfl
@[simp] theorem State.setIsl_parts (s : State) (n : Nat) (x : Island) : (s.setIsl n x).parts = s.parts := rfl
@[simp] theorem State.setIsl_samples (s : State) (n : Nat) (x : Island) : (s.setIsl n x).samples = s.samples := rfl
@[simp] theorem State.setIsl_interrupts (s : State) (n : Nat) (x : Island) : (s.setIsl n x).interrupts = s.interrupts := rfl
@[simp] theorem State.setIsl_cdItime (s : State) (n : Nat) (x : Island) : (s.setIsl n x).cdItime = s.cdItime := rfl
@[simp] theorem State.setIsl_images (s : State) (n : Nat) (x : Island) : (s.setIsl n x).images = s.images := rfl
@[simp] theorem State.setIsl_boot (s : State) (n : Nat) (x : Island) : (s.setIsl n x).boot = s.boot := rfl
@[simp] theorem State.setIsl_now (s : State) (n : Nat) (x : Island) : (s.setIsl n x).now = s.now := rfl
@[simp] theorem State.setIsl_rtsFloor (s : State) (n : Nat) (x : Island) : (s.setIsl n x).rtsFloor = s.rtsFloor := rfl
@[simp] theorem State.setIsl_gidReserve (s : State) (n : Nat) (x : Island) : (s.setIsl n x).gidReserve = s.gidReserve := rfl
@[simp] theorem State.setIsl_panelRecords (s : State) (n : Nat) (x : Island) : (s.setIsl n x).panelRecords = s.panelRecords := rfl
@[simp] theorem State.setIsl_rootLost (s : State) (n : Nat) (x : Island) : (s.setIsl n x).rootLost = s.rootLost := rfl
@[simp] theorem State.setIsl_returned (s : State) (n : Nat) (x : Island) : (s.setIsl n x).returned = s.returned := rfl
@[simp] theorem State.setIsl_widths (s : State) (n : Nat) (x : Island) : (s.setIsl n x).widths = s.widths := rfl

/-! ### setCore -/

@[simp] theorem State.setCore_clk (s : State) (a b : Nat) (x : Core) : (s.setCore a b x).clk = s.clk := rfl
@[simp] theorem State.setCore_fresh (s : State) (a b : Nat) (x : Core) : (s.setCore a b x).fresh = s.fresh := rfl
@[simp] theorem State.setCore_draw (s : State) (a b : Nat) (x : Core) : (s.setCore a b x).draw = s.draw := rfl
@[simp] theorem State.setCore_issue (s : State) (a b : Nat) (x : Core) : (s.setCore a b x).issue = s.issue := rfl
@[simp] theorem State.setCore_held (s : State) (a b : Nat) (x : Core) : (s.setCore a b x).held = s.held := rfl
@[simp] theorem State.setCore_issued (s : State) (a b : Nat) (x : Core) : (s.setCore a b x).issued = s.issued := rfl
@[simp] theorem State.setCore_inputs (s : State) (a b : Nat) (x : Core) : (s.setCore a b x).inputs = s.inputs := rfl
@[simp] theorem State.setCore_mem (s : State) (a b : Nat) (x : Core) : (s.setCore a b x).mem = s.mem := rfl
@[simp] theorem State.setCore_regs (s : State) (a b : Nat) (x : Core) : (s.setCore a b x).regs = s.regs := rfl
@[simp] theorem State.setCore_islands (s : State) (a b : Nat) (x : Core) : (s.setCore a b x).islands = s.islands := rfl
@[simp] theorem State.setCore_warps (s : State) (a b : Nat) (x : Core) : (s.setCore a b x).warps = s.warps := rfl
@[simp] theorem State.setCore_blocks (s : State) (a b : Nat) (x : Core) : (s.setCore a b x).blocks = s.blocks := rfl
@[simp] theorem State.setCore_grids (s : State) (a b : Nat) (x : Core) : (s.setCore a b x).grids = s.grids := rfl
@[simp] theorem State.setCore_pend (s : State) (a b : Nat) (x : Core) : (s.setCore a b x).pend = s.pend := rfl
@[simp] theorem State.setCore_waits (s : State) (a b : Nat) (x : Core) : (s.setCore a b x).waits = s.waits := rfl
@[simp] theorem State.setCore_msgs (s : State) (a b : Nat) (x : Core) : (s.setCore a b x).msgs = s.msgs := rfl
@[simp] theorem State.setCore_spans (s : State) (a b : Nat) (x : Core) : (s.setCore a b x).spans = s.spans := rfl
@[simp] theorem State.setCore_dir (s : State) (a b : Nat) (x : Core) : (s.setCore a b x).dir = s.dir := rfl
@[simp] theorem State.setCore_once (s : State) (a b : Nat) (x : Core) : (s.setCore a b x).once = s.once := rfl
@[simp] theorem State.setCore_tlb (s : State) (a b : Nat) (x : Core) : (s.setCore a b x).tlb = s.tlb := rfl
@[simp] theorem State.setCore_dual (s : State) (a b : Nat) (x : Core) : (s.setCore a b x).dual = s.dual := rfl
@[simp] theorem State.setCore_stalls (s : State) (a b : Nat) (x : Core) : (s.setCore a b x).stalls = s.stalls := rfl
@[simp] theorem State.setCore_mapJobs (s : State) (a b : Nat) (x : Core) : (s.setCore a b x).mapJobs = s.mapJobs := rfl
@[simp] theorem State.setCore_maps (s : State) (a b : Nat) (x : Core) : (s.setCore a b x).maps = s.maps := rfl
@[simp] theorem State.setCore_mapkNotes (s : State) (a b : Nat) (x : Core) : (s.setCore a b x).mapkNotes = s.mapkNotes := rfl
@[simp] theorem State.setCore_frames (s : State) (a b : Nat) (x : Core) : (s.setCore a b x).frames = s.frames := rfl
@[simp] theorem State.setCore_asids (s : State) (a b : Nat) (x : Core) : (s.setCore a b x).asids = s.asids := rfl
@[simp] theorem State.setCore_asidGen (s : State) (a b : Nat) (x : Core) : (s.setCore a b x).asidGen = s.asidGen := rfl
@[simp] theorem State.setCore_ranks (s : State) (a b : Nat) (x : Core) : (s.setCore a b x).ranks = s.ranks := rfl
@[simp] theorem State.setCore_nranks (s : State) (a b : Nat) (x : Core) : (s.setCore a b x).nranks = s.nranks := rfl
@[simp] theorem State.setCore_rankCache (s : State) (a b : Nat) (x : Core) : (s.setCore a b x).rankCache = s.rankCache := rfl
@[simp] theorem State.setCore_windows (s : State) (a b : Nat) (x : Core) : (s.setCore a b x).windows = s.windows := rfl
@[simp] theorem State.setCore_packets (s : State) (a b : Nat) (x : Core) : (s.setCore a b x).packets = s.packets := rfl
@[simp] theorem State.setCore_ports (s : State) (a b : Nat) (x : Core) : (s.setCore a b x).ports = s.ports := rfl
@[simp] theorem State.setCore_topo (s : State) (a b : Nat) (x : Core) : (s.setCore a b x).topo = s.topo := rfl
@[simp] theorem State.setCore_update (s : State) (a b : Nat) (x : Core) : (s.setCore a b x).update = s.update := rfl
@[simp] theorem State.setCore_fenceSites (s : State) (a b : Nat) (x : Core) : (s.setCore a b x).fenceSites = s.fenceSites := rfl
@[simp] theorem State.setCore_retireCores (s : State) (a b : Nat) (x : Core) : (s.setCore a b x).retireCores = s.retireCores := rfl
@[simp] theorem State.setCore_queueRecs (s : State) (a b : Nat) (x : Core) : (s.setCore a b x).queueRecs = s.queueRecs := rfl
@[simp] theorem State.setCore_rr (s : State) (a b : Nat) (x : Core) : (s.setCore a b x).rr = s.rr := rfl
@[simp] theorem State.setCore_lastGid (s : State) (a b : Nat) (x : Core) : (s.setCore a b x).lastGid = s.lastGid := rfl
@[simp] theorem State.setCore_gridctl (s : State) (a b : Nat) (x : Core) : (s.setCore a b x).gridctl = s.gridctl := rfl
@[simp] theorem State.setCore_gauges (s : State) (a b : Nat) (x : Core) : (s.setCore a b x).gauges = s.gauges := rfl
@[simp] theorem State.setCore_parts (s : State) (a b : Nat) (x : Core) : (s.setCore a b x).parts = s.parts := rfl
@[simp] theorem State.setCore_samples (s : State) (a b : Nat) (x : Core) : (s.setCore a b x).samples = s.samples := rfl
@[simp] theorem State.setCore_interrupts (s : State) (a b : Nat) (x : Core) : (s.setCore a b x).interrupts = s.interrupts := rfl
@[simp] theorem State.setCore_cdItime (s : State) (a b : Nat) (x : Core) : (s.setCore a b x).cdItime = s.cdItime := rfl
@[simp] theorem State.setCore_images (s : State) (a b : Nat) (x : Core) : (s.setCore a b x).images = s.images := rfl
@[simp] theorem State.setCore_boot (s : State) (a b : Nat) (x : Core) : (s.setCore a b x).boot = s.boot := rfl
@[simp] theorem State.setCore_now (s : State) (a b : Nat) (x : Core) : (s.setCore a b x).now = s.now := rfl
@[simp] theorem State.setCore_rtsFloor (s : State) (a b : Nat) (x : Core) : (s.setCore a b x).rtsFloor = s.rtsFloor := rfl
@[simp] theorem State.setCore_gidReserve (s : State) (a b : Nat) (x : Core) : (s.setCore a b x).gidReserve = s.gidReserve := rfl
@[simp] theorem State.setCore_panelRecords (s : State) (a b : Nat) (x : Core) : (s.setCore a b x).panelRecords = s.panelRecords := rfl
@[simp] theorem State.setCore_rootLost (s : State) (a b : Nat) (x : Core) : (s.setCore a b x).rootLost = s.rootLost := rfl
@[simp] theorem State.setCore_returned (s : State) (a b : Nat) (x : Core) : (s.setCore a b x).returned = s.returned := rfl
@[simp] theorem State.setCore_widths (s : State) (a b : Nat) (x : Core) : (s.setCore a b x).widths = s.widths := rfl

/-! ### setWarp -/

@[simp] theorem State.setWarp_clk (s : State) (w : Nat) (x : Warp) : (s.setWarp w x).clk = s.clk := rfl
@[simp] theorem State.setWarp_fresh (s : State) (w : Nat) (x : Warp) : (s.setWarp w x).fresh = s.fresh := rfl
@[simp] theorem State.setWarp_draw (s : State) (w : Nat) (x : Warp) : (s.setWarp w x).draw = s.draw := rfl
@[simp] theorem State.setWarp_issue (s : State) (w : Nat) (x : Warp) : (s.setWarp w x).issue = s.issue := rfl
@[simp] theorem State.setWarp_held (s : State) (w : Nat) (x : Warp) : (s.setWarp w x).held = s.held := rfl
@[simp] theorem State.setWarp_issued (s : State) (w : Nat) (x : Warp) : (s.setWarp w x).issued = s.issued := rfl
@[simp] theorem State.setWarp_inputs (s : State) (w : Nat) (x : Warp) : (s.setWarp w x).inputs = s.inputs := rfl
@[simp] theorem State.setWarp_mem (s : State) (w : Nat) (x : Warp) : (s.setWarp w x).mem = s.mem := rfl
@[simp] theorem State.setWarp_regs (s : State) (w : Nat) (x : Warp) : (s.setWarp w x).regs = s.regs := rfl
@[simp] theorem State.setWarp_islands (s : State) (w : Nat) (x : Warp) : (s.setWarp w x).islands = s.islands := rfl
@[simp] theorem State.setWarp_cores (s : State) (w : Nat) (x : Warp) : (s.setWarp w x).cores = s.cores := rfl
@[simp] theorem State.setWarp_blocks (s : State) (w : Nat) (x : Warp) : (s.setWarp w x).blocks = s.blocks := rfl
@[simp] theorem State.setWarp_grids (s : State) (w : Nat) (x : Warp) : (s.setWarp w x).grids = s.grids := rfl
@[simp] theorem State.setWarp_pend (s : State) (w : Nat) (x : Warp) : (s.setWarp w x).pend = s.pend := rfl
@[simp] theorem State.setWarp_waits (s : State) (w : Nat) (x : Warp) : (s.setWarp w x).waits = s.waits := rfl
@[simp] theorem State.setWarp_msgs (s : State) (w : Nat) (x : Warp) : (s.setWarp w x).msgs = s.msgs := rfl
@[simp] theorem State.setWarp_spans (s : State) (w : Nat) (x : Warp) : (s.setWarp w x).spans = s.spans := rfl
@[simp] theorem State.setWarp_dir (s : State) (w : Nat) (x : Warp) : (s.setWarp w x).dir = s.dir := rfl
@[simp] theorem State.setWarp_once (s : State) (w : Nat) (x : Warp) : (s.setWarp w x).once = s.once := rfl
@[simp] theorem State.setWarp_tlb (s : State) (w : Nat) (x : Warp) : (s.setWarp w x).tlb = s.tlb := rfl
@[simp] theorem State.setWarp_dual (s : State) (w : Nat) (x : Warp) : (s.setWarp w x).dual = s.dual := rfl
@[simp] theorem State.setWarp_stalls (s : State) (w : Nat) (x : Warp) : (s.setWarp w x).stalls = s.stalls := rfl
@[simp] theorem State.setWarp_mapJobs (s : State) (w : Nat) (x : Warp) : (s.setWarp w x).mapJobs = s.mapJobs := rfl
@[simp] theorem State.setWarp_maps (s : State) (w : Nat) (x : Warp) : (s.setWarp w x).maps = s.maps := rfl
@[simp] theorem State.setWarp_mapkNotes (s : State) (w : Nat) (x : Warp) : (s.setWarp w x).mapkNotes = s.mapkNotes := rfl
@[simp] theorem State.setWarp_frames (s : State) (w : Nat) (x : Warp) : (s.setWarp w x).frames = s.frames := rfl
@[simp] theorem State.setWarp_asids (s : State) (w : Nat) (x : Warp) : (s.setWarp w x).asids = s.asids := rfl
@[simp] theorem State.setWarp_asidGen (s : State) (w : Nat) (x : Warp) : (s.setWarp w x).asidGen = s.asidGen := rfl
@[simp] theorem State.setWarp_ranks (s : State) (w : Nat) (x : Warp) : (s.setWarp w x).ranks = s.ranks := rfl
@[simp] theorem State.setWarp_nranks (s : State) (w : Nat) (x : Warp) : (s.setWarp w x).nranks = s.nranks := rfl
@[simp] theorem State.setWarp_rankCache (s : State) (w : Nat) (x : Warp) : (s.setWarp w x).rankCache = s.rankCache := rfl
@[simp] theorem State.setWarp_windows (s : State) (w : Nat) (x : Warp) : (s.setWarp w x).windows = s.windows := rfl
@[simp] theorem State.setWarp_packets (s : State) (w : Nat) (x : Warp) : (s.setWarp w x).packets = s.packets := rfl
@[simp] theorem State.setWarp_ports (s : State) (w : Nat) (x : Warp) : (s.setWarp w x).ports = s.ports := rfl
@[simp] theorem State.setWarp_topo (s : State) (w : Nat) (x : Warp) : (s.setWarp w x).topo = s.topo := rfl
@[simp] theorem State.setWarp_update (s : State) (w : Nat) (x : Warp) : (s.setWarp w x).update = s.update := rfl
@[simp] theorem State.setWarp_fenceSites (s : State) (w : Nat) (x : Warp) : (s.setWarp w x).fenceSites = s.fenceSites := rfl
@[simp] theorem State.setWarp_retireCores (s : State) (w : Nat) (x : Warp) : (s.setWarp w x).retireCores = s.retireCores := rfl
@[simp] theorem State.setWarp_queueRecs (s : State) (w : Nat) (x : Warp) : (s.setWarp w x).queueRecs = s.queueRecs := rfl
@[simp] theorem State.setWarp_rr (s : State) (w : Nat) (x : Warp) : (s.setWarp w x).rr = s.rr := rfl
@[simp] theorem State.setWarp_lastGid (s : State) (w : Nat) (x : Warp) : (s.setWarp w x).lastGid = s.lastGid := rfl
@[simp] theorem State.setWarp_gridctl (s : State) (w : Nat) (x : Warp) : (s.setWarp w x).gridctl = s.gridctl := rfl
@[simp] theorem State.setWarp_gauges (s : State) (w : Nat) (x : Warp) : (s.setWarp w x).gauges = s.gauges := rfl
@[simp] theorem State.setWarp_parts (s : State) (w : Nat) (x : Warp) : (s.setWarp w x).parts = s.parts := rfl
@[simp] theorem State.setWarp_samples (s : State) (w : Nat) (x : Warp) : (s.setWarp w x).samples = s.samples := rfl
@[simp] theorem State.setWarp_interrupts (s : State) (w : Nat) (x : Warp) : (s.setWarp w x).interrupts = s.interrupts := rfl
@[simp] theorem State.setWarp_cdItime (s : State) (w : Nat) (x : Warp) : (s.setWarp w x).cdItime = s.cdItime := rfl
@[simp] theorem State.setWarp_images (s : State) (w : Nat) (x : Warp) : (s.setWarp w x).images = s.images := rfl
@[simp] theorem State.setWarp_boot (s : State) (w : Nat) (x : Warp) : (s.setWarp w x).boot = s.boot := rfl
@[simp] theorem State.setWarp_now (s : State) (w : Nat) (x : Warp) : (s.setWarp w x).now = s.now := rfl
@[simp] theorem State.setWarp_rtsFloor (s : State) (w : Nat) (x : Warp) : (s.setWarp w x).rtsFloor = s.rtsFloor := rfl
@[simp] theorem State.setWarp_gidReserve (s : State) (w : Nat) (x : Warp) : (s.setWarp w x).gidReserve = s.gidReserve := rfl
@[simp] theorem State.setWarp_panelRecords (s : State) (w : Nat) (x : Warp) : (s.setWarp w x).panelRecords = s.panelRecords := rfl
@[simp] theorem State.setWarp_rootLost (s : State) (w : Nat) (x : Warp) : (s.setWarp w x).rootLost = s.rootLost := rfl
@[simp] theorem State.setWarp_returned (s : State) (w : Nat) (x : Warp) : (s.setWarp w x).returned = s.returned := rfl
@[simp] theorem State.setWarp_widths (s : State) (w : Nat) (x : Warp) : (s.setWarp w x).widths = s.widths := rfl

/-! ### setBlock -/

@[simp] theorem State.setBlock_clk (s : State) (b : Nat) (x : Block) : (s.setBlock b x).clk = s.clk := rfl
@[simp] theorem State.setBlock_fresh (s : State) (b : Nat) (x : Block) : (s.setBlock b x).fresh = s.fresh := rfl
@[simp] theorem State.setBlock_draw (s : State) (b : Nat) (x : Block) : (s.setBlock b x).draw = s.draw := rfl
@[simp] theorem State.setBlock_issue (s : State) (b : Nat) (x : Block) : (s.setBlock b x).issue = s.issue := rfl
@[simp] theorem State.setBlock_held (s : State) (b : Nat) (x : Block) : (s.setBlock b x).held = s.held := rfl
@[simp] theorem State.setBlock_issued (s : State) (b : Nat) (x : Block) : (s.setBlock b x).issued = s.issued := rfl
@[simp] theorem State.setBlock_inputs (s : State) (b : Nat) (x : Block) : (s.setBlock b x).inputs = s.inputs := rfl
@[simp] theorem State.setBlock_mem (s : State) (b : Nat) (x : Block) : (s.setBlock b x).mem = s.mem := rfl
@[simp] theorem State.setBlock_regs (s : State) (b : Nat) (x : Block) : (s.setBlock b x).regs = s.regs := rfl
@[simp] theorem State.setBlock_islands (s : State) (b : Nat) (x : Block) : (s.setBlock b x).islands = s.islands := rfl
@[simp] theorem State.setBlock_cores (s : State) (b : Nat) (x : Block) : (s.setBlock b x).cores = s.cores := rfl
@[simp] theorem State.setBlock_warps (s : State) (b : Nat) (x : Block) : (s.setBlock b x).warps = s.warps := rfl
@[simp] theorem State.setBlock_grids (s : State) (b : Nat) (x : Block) : (s.setBlock b x).grids = s.grids := rfl
@[simp] theorem State.setBlock_pend (s : State) (b : Nat) (x : Block) : (s.setBlock b x).pend = s.pend := rfl
@[simp] theorem State.setBlock_waits (s : State) (b : Nat) (x : Block) : (s.setBlock b x).waits = s.waits := rfl
@[simp] theorem State.setBlock_msgs (s : State) (b : Nat) (x : Block) : (s.setBlock b x).msgs = s.msgs := rfl
@[simp] theorem State.setBlock_spans (s : State) (b : Nat) (x : Block) : (s.setBlock b x).spans = s.spans := rfl
@[simp] theorem State.setBlock_dir (s : State) (b : Nat) (x : Block) : (s.setBlock b x).dir = s.dir := rfl
@[simp] theorem State.setBlock_once (s : State) (b : Nat) (x : Block) : (s.setBlock b x).once = s.once := rfl
@[simp] theorem State.setBlock_tlb (s : State) (b : Nat) (x : Block) : (s.setBlock b x).tlb = s.tlb := rfl
@[simp] theorem State.setBlock_dual (s : State) (b : Nat) (x : Block) : (s.setBlock b x).dual = s.dual := rfl
@[simp] theorem State.setBlock_stalls (s : State) (b : Nat) (x : Block) : (s.setBlock b x).stalls = s.stalls := rfl
@[simp] theorem State.setBlock_mapJobs (s : State) (b : Nat) (x : Block) : (s.setBlock b x).mapJobs = s.mapJobs := rfl
@[simp] theorem State.setBlock_maps (s : State) (b : Nat) (x : Block) : (s.setBlock b x).maps = s.maps := rfl
@[simp] theorem State.setBlock_mapkNotes (s : State) (b : Nat) (x : Block) : (s.setBlock b x).mapkNotes = s.mapkNotes := rfl
@[simp] theorem State.setBlock_frames (s : State) (b : Nat) (x : Block) : (s.setBlock b x).frames = s.frames := rfl
@[simp] theorem State.setBlock_asids (s : State) (b : Nat) (x : Block) : (s.setBlock b x).asids = s.asids := rfl
@[simp] theorem State.setBlock_asidGen (s : State) (b : Nat) (x : Block) : (s.setBlock b x).asidGen = s.asidGen := rfl
@[simp] theorem State.setBlock_ranks (s : State) (b : Nat) (x : Block) : (s.setBlock b x).ranks = s.ranks := rfl
@[simp] theorem State.setBlock_nranks (s : State) (b : Nat) (x : Block) : (s.setBlock b x).nranks = s.nranks := rfl
@[simp] theorem State.setBlock_rankCache (s : State) (b : Nat) (x : Block) : (s.setBlock b x).rankCache = s.rankCache := rfl
@[simp] theorem State.setBlock_windows (s : State) (b : Nat) (x : Block) : (s.setBlock b x).windows = s.windows := rfl
@[simp] theorem State.setBlock_packets (s : State) (b : Nat) (x : Block) : (s.setBlock b x).packets = s.packets := rfl
@[simp] theorem State.setBlock_ports (s : State) (b : Nat) (x : Block) : (s.setBlock b x).ports = s.ports := rfl
@[simp] theorem State.setBlock_topo (s : State) (b : Nat) (x : Block) : (s.setBlock b x).topo = s.topo := rfl
@[simp] theorem State.setBlock_update (s : State) (b : Nat) (x : Block) : (s.setBlock b x).update = s.update := rfl
@[simp] theorem State.setBlock_fenceSites (s : State) (b : Nat) (x : Block) : (s.setBlock b x).fenceSites = s.fenceSites := rfl
@[simp] theorem State.setBlock_retireCores (s : State) (b : Nat) (x : Block) : (s.setBlock b x).retireCores = s.retireCores := rfl
@[simp] theorem State.setBlock_queueRecs (s : State) (b : Nat) (x : Block) : (s.setBlock b x).queueRecs = s.queueRecs := rfl
@[simp] theorem State.setBlock_rr (s : State) (b : Nat) (x : Block) : (s.setBlock b x).rr = s.rr := rfl
@[simp] theorem State.setBlock_lastGid (s : State) (b : Nat) (x : Block) : (s.setBlock b x).lastGid = s.lastGid := rfl
@[simp] theorem State.setBlock_gridctl (s : State) (b : Nat) (x : Block) : (s.setBlock b x).gridctl = s.gridctl := rfl
@[simp] theorem State.setBlock_gauges (s : State) (b : Nat) (x : Block) : (s.setBlock b x).gauges = s.gauges := rfl
@[simp] theorem State.setBlock_parts (s : State) (b : Nat) (x : Block) : (s.setBlock b x).parts = s.parts := rfl
@[simp] theorem State.setBlock_samples (s : State) (b : Nat) (x : Block) : (s.setBlock b x).samples = s.samples := rfl
@[simp] theorem State.setBlock_interrupts (s : State) (b : Nat) (x : Block) : (s.setBlock b x).interrupts = s.interrupts := rfl
@[simp] theorem State.setBlock_cdItime (s : State) (b : Nat) (x : Block) : (s.setBlock b x).cdItime = s.cdItime := rfl
@[simp] theorem State.setBlock_images (s : State) (b : Nat) (x : Block) : (s.setBlock b x).images = s.images := rfl
@[simp] theorem State.setBlock_boot (s : State) (b : Nat) (x : Block) : (s.setBlock b x).boot = s.boot := rfl
@[simp] theorem State.setBlock_now (s : State) (b : Nat) (x : Block) : (s.setBlock b x).now = s.now := rfl
@[simp] theorem State.setBlock_rtsFloor (s : State) (b : Nat) (x : Block) : (s.setBlock b x).rtsFloor = s.rtsFloor := rfl
@[simp] theorem State.setBlock_gidReserve (s : State) (b : Nat) (x : Block) : (s.setBlock b x).gidReserve = s.gidReserve := rfl
@[simp] theorem State.setBlock_panelRecords (s : State) (b : Nat) (x : Block) : (s.setBlock b x).panelRecords = s.panelRecords := rfl
@[simp] theorem State.setBlock_rootLost (s : State) (b : Nat) (x : Block) : (s.setBlock b x).rootLost = s.rootLost := rfl
@[simp] theorem State.setBlock_returned (s : State) (b : Nat) (x : Block) : (s.setBlock b x).returned = s.returned := rfl
@[simp] theorem State.setBlock_widths (s : State) (b : Nat) (x : Block) : (s.setBlock b x).widths = s.widths := rfl

/-! ### setGrid -/

@[simp] theorem State.setGrid_clk (s : State) (g : Nat) (x : Grid) : (s.setGrid g x).clk = s.clk := rfl
@[simp] theorem State.setGrid_fresh (s : State) (g : Nat) (x : Grid) : (s.setGrid g x).fresh = s.fresh := rfl
@[simp] theorem State.setGrid_draw (s : State) (g : Nat) (x : Grid) : (s.setGrid g x).draw = s.draw := rfl
@[simp] theorem State.setGrid_issue (s : State) (g : Nat) (x : Grid) : (s.setGrid g x).issue = s.issue := rfl
@[simp] theorem State.setGrid_held (s : State) (g : Nat) (x : Grid) : (s.setGrid g x).held = s.held := rfl
@[simp] theorem State.setGrid_issued (s : State) (g : Nat) (x : Grid) : (s.setGrid g x).issued = s.issued := rfl
@[simp] theorem State.setGrid_inputs (s : State) (g : Nat) (x : Grid) : (s.setGrid g x).inputs = s.inputs := rfl
@[simp] theorem State.setGrid_mem (s : State) (g : Nat) (x : Grid) : (s.setGrid g x).mem = s.mem := rfl
@[simp] theorem State.setGrid_regs (s : State) (g : Nat) (x : Grid) : (s.setGrid g x).regs = s.regs := rfl
@[simp] theorem State.setGrid_islands (s : State) (g : Nat) (x : Grid) : (s.setGrid g x).islands = s.islands := rfl
@[simp] theorem State.setGrid_cores (s : State) (g : Nat) (x : Grid) : (s.setGrid g x).cores = s.cores := rfl
@[simp] theorem State.setGrid_warps (s : State) (g : Nat) (x : Grid) : (s.setGrid g x).warps = s.warps := rfl
@[simp] theorem State.setGrid_blocks (s : State) (g : Nat) (x : Grid) : (s.setGrid g x).blocks = s.blocks := rfl
@[simp] theorem State.setGrid_pend (s : State) (g : Nat) (x : Grid) : (s.setGrid g x).pend = s.pend := rfl
@[simp] theorem State.setGrid_waits (s : State) (g : Nat) (x : Grid) : (s.setGrid g x).waits = s.waits := rfl
@[simp] theorem State.setGrid_msgs (s : State) (g : Nat) (x : Grid) : (s.setGrid g x).msgs = s.msgs := rfl
@[simp] theorem State.setGrid_spans (s : State) (g : Nat) (x : Grid) : (s.setGrid g x).spans = s.spans := rfl
@[simp] theorem State.setGrid_dir (s : State) (g : Nat) (x : Grid) : (s.setGrid g x).dir = s.dir := rfl
@[simp] theorem State.setGrid_once (s : State) (g : Nat) (x : Grid) : (s.setGrid g x).once = s.once := rfl
@[simp] theorem State.setGrid_tlb (s : State) (g : Nat) (x : Grid) : (s.setGrid g x).tlb = s.tlb := rfl
@[simp] theorem State.setGrid_dual (s : State) (g : Nat) (x : Grid) : (s.setGrid g x).dual = s.dual := rfl
@[simp] theorem State.setGrid_stalls (s : State) (g : Nat) (x : Grid) : (s.setGrid g x).stalls = s.stalls := rfl
@[simp] theorem State.setGrid_mapJobs (s : State) (g : Nat) (x : Grid) : (s.setGrid g x).mapJobs = s.mapJobs := rfl
@[simp] theorem State.setGrid_maps (s : State) (g : Nat) (x : Grid) : (s.setGrid g x).maps = s.maps := rfl
@[simp] theorem State.setGrid_mapkNotes (s : State) (g : Nat) (x : Grid) : (s.setGrid g x).mapkNotes = s.mapkNotes := rfl
@[simp] theorem State.setGrid_frames (s : State) (g : Nat) (x : Grid) : (s.setGrid g x).frames = s.frames := rfl
@[simp] theorem State.setGrid_asids (s : State) (g : Nat) (x : Grid) : (s.setGrid g x).asids = s.asids := rfl
@[simp] theorem State.setGrid_asidGen (s : State) (g : Nat) (x : Grid) : (s.setGrid g x).asidGen = s.asidGen := rfl
@[simp] theorem State.setGrid_ranks (s : State) (g : Nat) (x : Grid) : (s.setGrid g x).ranks = s.ranks := rfl
@[simp] theorem State.setGrid_nranks (s : State) (g : Nat) (x : Grid) : (s.setGrid g x).nranks = s.nranks := rfl
@[simp] theorem State.setGrid_rankCache (s : State) (g : Nat) (x : Grid) : (s.setGrid g x).rankCache = s.rankCache := rfl
@[simp] theorem State.setGrid_windows (s : State) (g : Nat) (x : Grid) : (s.setGrid g x).windows = s.windows := rfl
@[simp] theorem State.setGrid_packets (s : State) (g : Nat) (x : Grid) : (s.setGrid g x).packets = s.packets := rfl
@[simp] theorem State.setGrid_ports (s : State) (g : Nat) (x : Grid) : (s.setGrid g x).ports = s.ports := rfl
@[simp] theorem State.setGrid_topo (s : State) (g : Nat) (x : Grid) : (s.setGrid g x).topo = s.topo := rfl
@[simp] theorem State.setGrid_update (s : State) (g : Nat) (x : Grid) : (s.setGrid g x).update = s.update := rfl
@[simp] theorem State.setGrid_fenceSites (s : State) (g : Nat) (x : Grid) : (s.setGrid g x).fenceSites = s.fenceSites := rfl
@[simp] theorem State.setGrid_retireCores (s : State) (g : Nat) (x : Grid) : (s.setGrid g x).retireCores = s.retireCores := rfl
@[simp] theorem State.setGrid_queueRecs (s : State) (g : Nat) (x : Grid) : (s.setGrid g x).queueRecs = s.queueRecs := rfl
@[simp] theorem State.setGrid_rr (s : State) (g : Nat) (x : Grid) : (s.setGrid g x).rr = s.rr := rfl
@[simp] theorem State.setGrid_lastGid (s : State) (g : Nat) (x : Grid) : (s.setGrid g x).lastGid = s.lastGid := rfl
@[simp] theorem State.setGrid_gridctl (s : State) (g : Nat) (x : Grid) : (s.setGrid g x).gridctl = s.gridctl := rfl
@[simp] theorem State.setGrid_gauges (s : State) (g : Nat) (x : Grid) : (s.setGrid g x).gauges = s.gauges := rfl
@[simp] theorem State.setGrid_parts (s : State) (g : Nat) (x : Grid) : (s.setGrid g x).parts = s.parts := rfl
@[simp] theorem State.setGrid_samples (s : State) (g : Nat) (x : Grid) : (s.setGrid g x).samples = s.samples := rfl
@[simp] theorem State.setGrid_interrupts (s : State) (g : Nat) (x : Grid) : (s.setGrid g x).interrupts = s.interrupts := rfl
@[simp] theorem State.setGrid_cdItime (s : State) (g : Nat) (x : Grid) : (s.setGrid g x).cdItime = s.cdItime := rfl
@[simp] theorem State.setGrid_images (s : State) (g : Nat) (x : Grid) : (s.setGrid g x).images = s.images := rfl
@[simp] theorem State.setGrid_boot (s : State) (g : Nat) (x : Grid) : (s.setGrid g x).boot = s.boot := rfl
@[simp] theorem State.setGrid_now (s : State) (g : Nat) (x : Grid) : (s.setGrid g x).now = s.now := rfl
@[simp] theorem State.setGrid_rtsFloor (s : State) (g : Nat) (x : Grid) : (s.setGrid g x).rtsFloor = s.rtsFloor := rfl
@[simp] theorem State.setGrid_gidReserve (s : State) (g : Nat) (x : Grid) : (s.setGrid g x).gidReserve = s.gidReserve := rfl
@[simp] theorem State.setGrid_panelRecords (s : State) (g : Nat) (x : Grid) : (s.setGrid g x).panelRecords = s.panelRecords := rfl
@[simp] theorem State.setGrid_rootLost (s : State) (g : Nat) (x : Grid) : (s.setGrid g x).rootLost = s.rootLost := rfl
@[simp] theorem State.setGrid_returned (s : State) (g : Nat) (x : Grid) : (s.setGrid g x).returned = s.returned := rfl
@[simp] theorem State.setGrid_widths (s : State) (g : Nat) (x : Grid) : (s.setGrid g x).widths = s.widths := rfl

/-! ### setPart -/

@[simp] theorem State.setPart_clk (s : State) (p n : Nat) (x : PartUse) : (s.setPart p n x).clk = s.clk := rfl
@[simp] theorem State.setPart_fresh (s : State) (p n : Nat) (x : PartUse) : (s.setPart p n x).fresh = s.fresh := rfl
@[simp] theorem State.setPart_draw (s : State) (p n : Nat) (x : PartUse) : (s.setPart p n x).draw = s.draw := rfl
@[simp] theorem State.setPart_issue (s : State) (p n : Nat) (x : PartUse) : (s.setPart p n x).issue = s.issue := rfl
@[simp] theorem State.setPart_held (s : State) (p n : Nat) (x : PartUse) : (s.setPart p n x).held = s.held := rfl
@[simp] theorem State.setPart_issued (s : State) (p n : Nat) (x : PartUse) : (s.setPart p n x).issued = s.issued := rfl
@[simp] theorem State.setPart_inputs (s : State) (p n : Nat) (x : PartUse) : (s.setPart p n x).inputs = s.inputs := rfl
@[simp] theorem State.setPart_mem (s : State) (p n : Nat) (x : PartUse) : (s.setPart p n x).mem = s.mem := rfl
@[simp] theorem State.setPart_regs (s : State) (p n : Nat) (x : PartUse) : (s.setPart p n x).regs = s.regs := rfl
@[simp] theorem State.setPart_islands (s : State) (p n : Nat) (x : PartUse) : (s.setPart p n x).islands = s.islands := rfl
@[simp] theorem State.setPart_cores (s : State) (p n : Nat) (x : PartUse) : (s.setPart p n x).cores = s.cores := rfl
@[simp] theorem State.setPart_warps (s : State) (p n : Nat) (x : PartUse) : (s.setPart p n x).warps = s.warps := rfl
@[simp] theorem State.setPart_blocks (s : State) (p n : Nat) (x : PartUse) : (s.setPart p n x).blocks = s.blocks := rfl
@[simp] theorem State.setPart_grids (s : State) (p n : Nat) (x : PartUse) : (s.setPart p n x).grids = s.grids := rfl
@[simp] theorem State.setPart_pend (s : State) (p n : Nat) (x : PartUse) : (s.setPart p n x).pend = s.pend := rfl
@[simp] theorem State.setPart_waits (s : State) (p n : Nat) (x : PartUse) : (s.setPart p n x).waits = s.waits := rfl
@[simp] theorem State.setPart_msgs (s : State) (p n : Nat) (x : PartUse) : (s.setPart p n x).msgs = s.msgs := rfl
@[simp] theorem State.setPart_spans (s : State) (p n : Nat) (x : PartUse) : (s.setPart p n x).spans = s.spans := rfl
@[simp] theorem State.setPart_dir (s : State) (p n : Nat) (x : PartUse) : (s.setPart p n x).dir = s.dir := rfl
@[simp] theorem State.setPart_once (s : State) (p n : Nat) (x : PartUse) : (s.setPart p n x).once = s.once := rfl
@[simp] theorem State.setPart_tlb (s : State) (p n : Nat) (x : PartUse) : (s.setPart p n x).tlb = s.tlb := rfl
@[simp] theorem State.setPart_dual (s : State) (p n : Nat) (x : PartUse) : (s.setPart p n x).dual = s.dual := rfl
@[simp] theorem State.setPart_stalls (s : State) (p n : Nat) (x : PartUse) : (s.setPart p n x).stalls = s.stalls := rfl
@[simp] theorem State.setPart_mapJobs (s : State) (p n : Nat) (x : PartUse) : (s.setPart p n x).mapJobs = s.mapJobs := rfl
@[simp] theorem State.setPart_maps (s : State) (p n : Nat) (x : PartUse) : (s.setPart p n x).maps = s.maps := rfl
@[simp] theorem State.setPart_mapkNotes (s : State) (p n : Nat) (x : PartUse) : (s.setPart p n x).mapkNotes = s.mapkNotes := rfl
@[simp] theorem State.setPart_frames (s : State) (p n : Nat) (x : PartUse) : (s.setPart p n x).frames = s.frames := rfl
@[simp] theorem State.setPart_asids (s : State) (p n : Nat) (x : PartUse) : (s.setPart p n x).asids = s.asids := rfl
@[simp] theorem State.setPart_asidGen (s : State) (p n : Nat) (x : PartUse) : (s.setPart p n x).asidGen = s.asidGen := rfl
@[simp] theorem State.setPart_ranks (s : State) (p n : Nat) (x : PartUse) : (s.setPart p n x).ranks = s.ranks := rfl
@[simp] theorem State.setPart_nranks (s : State) (p n : Nat) (x : PartUse) : (s.setPart p n x).nranks = s.nranks := rfl
@[simp] theorem State.setPart_rankCache (s : State) (p n : Nat) (x : PartUse) : (s.setPart p n x).rankCache = s.rankCache := rfl
@[simp] theorem State.setPart_windows (s : State) (p n : Nat) (x : PartUse) : (s.setPart p n x).windows = s.windows := rfl
@[simp] theorem State.setPart_packets (s : State) (p n : Nat) (x : PartUse) : (s.setPart p n x).packets = s.packets := rfl
@[simp] theorem State.setPart_ports (s : State) (p n : Nat) (x : PartUse) : (s.setPart p n x).ports = s.ports := rfl
@[simp] theorem State.setPart_topo (s : State) (p n : Nat) (x : PartUse) : (s.setPart p n x).topo = s.topo := rfl
@[simp] theorem State.setPart_update (s : State) (p n : Nat) (x : PartUse) : (s.setPart p n x).update = s.update := rfl
@[simp] theorem State.setPart_fenceSites (s : State) (p n : Nat) (x : PartUse) : (s.setPart p n x).fenceSites = s.fenceSites := rfl
@[simp] theorem State.setPart_retireCores (s : State) (p n : Nat) (x : PartUse) : (s.setPart p n x).retireCores = s.retireCores := rfl
@[simp] theorem State.setPart_queueRecs (s : State) (p n : Nat) (x : PartUse) : (s.setPart p n x).queueRecs = s.queueRecs := rfl
@[simp] theorem State.setPart_rr (s : State) (p n : Nat) (x : PartUse) : (s.setPart p n x).rr = s.rr := rfl
@[simp] theorem State.setPart_lastGid (s : State) (p n : Nat) (x : PartUse) : (s.setPart p n x).lastGid = s.lastGid := rfl
@[simp] theorem State.setPart_gridctl (s : State) (p n : Nat) (x : PartUse) : (s.setPart p n x).gridctl = s.gridctl := rfl
@[simp] theorem State.setPart_gauges (s : State) (p n : Nat) (x : PartUse) : (s.setPart p n x).gauges = s.gauges := rfl
@[simp] theorem State.setPart_samples (s : State) (p n : Nat) (x : PartUse) : (s.setPart p n x).samples = s.samples := rfl
@[simp] theorem State.setPart_interrupts (s : State) (p n : Nat) (x : PartUse) : (s.setPart p n x).interrupts = s.interrupts := rfl
@[simp] theorem State.setPart_cdItime (s : State) (p n : Nat) (x : PartUse) : (s.setPart p n x).cdItime = s.cdItime := rfl
@[simp] theorem State.setPart_images (s : State) (p n : Nat) (x : PartUse) : (s.setPart p n x).images = s.images := rfl
@[simp] theorem State.setPart_boot (s : State) (p n : Nat) (x : PartUse) : (s.setPart p n x).boot = s.boot := rfl
@[simp] theorem State.setPart_now (s : State) (p n : Nat) (x : PartUse) : (s.setPart p n x).now = s.now := rfl
@[simp] theorem State.setPart_rtsFloor (s : State) (p n : Nat) (x : PartUse) : (s.setPart p n x).rtsFloor = s.rtsFloor := rfl
@[simp] theorem State.setPart_gidReserve (s : State) (p n : Nat) (x : PartUse) : (s.setPart p n x).gidReserve = s.gidReserve := rfl
@[simp] theorem State.setPart_panelRecords (s : State) (p n : Nat) (x : PartUse) : (s.setPart p n x).panelRecords = s.panelRecords := rfl
@[simp] theorem State.setPart_rootLost (s : State) (p n : Nat) (x : PartUse) : (s.setPart p n x).rootLost = s.rootLost := rfl
@[simp] theorem State.setPart_returned (s : State) (p n : Nat) (x : PartUse) : (s.setPart p n x).returned = s.returned := rfl
@[simp] theorem State.setPart_widths (s : State) (p n : Nat) (x : PartUse) : (s.setPart p n x).widths = s.widths := rfl

/-! ### setGauge -/

@[simp] theorem State.setGauge_clk (s : State) (g : Nat) (x : Gauge) : (s.setGauge g x).clk = s.clk := rfl
@[simp] theorem State.setGauge_fresh (s : State) (g : Nat) (x : Gauge) : (s.setGauge g x).fresh = s.fresh := rfl
@[simp] theorem State.setGauge_draw (s : State) (g : Nat) (x : Gauge) : (s.setGauge g x).draw = s.draw := rfl
@[simp] theorem State.setGauge_issue (s : State) (g : Nat) (x : Gauge) : (s.setGauge g x).issue = s.issue := rfl
@[simp] theorem State.setGauge_held (s : State) (g : Nat) (x : Gauge) : (s.setGauge g x).held = s.held := rfl
@[simp] theorem State.setGauge_issued (s : State) (g : Nat) (x : Gauge) : (s.setGauge g x).issued = s.issued := rfl
@[simp] theorem State.setGauge_inputs (s : State) (g : Nat) (x : Gauge) : (s.setGauge g x).inputs = s.inputs := rfl
@[simp] theorem State.setGauge_mem (s : State) (g : Nat) (x : Gauge) : (s.setGauge g x).mem = s.mem := rfl
@[simp] theorem State.setGauge_regs (s : State) (g : Nat) (x : Gauge) : (s.setGauge g x).regs = s.regs := rfl
@[simp] theorem State.setGauge_islands (s : State) (g : Nat) (x : Gauge) : (s.setGauge g x).islands = s.islands := rfl
@[simp] theorem State.setGauge_cores (s : State) (g : Nat) (x : Gauge) : (s.setGauge g x).cores = s.cores := rfl
@[simp] theorem State.setGauge_warps (s : State) (g : Nat) (x : Gauge) : (s.setGauge g x).warps = s.warps := rfl
@[simp] theorem State.setGauge_blocks (s : State) (g : Nat) (x : Gauge) : (s.setGauge g x).blocks = s.blocks := rfl
@[simp] theorem State.setGauge_grids (s : State) (g : Nat) (x : Gauge) : (s.setGauge g x).grids = s.grids := rfl
@[simp] theorem State.setGauge_pend (s : State) (g : Nat) (x : Gauge) : (s.setGauge g x).pend = s.pend := rfl
@[simp] theorem State.setGauge_waits (s : State) (g : Nat) (x : Gauge) : (s.setGauge g x).waits = s.waits := rfl
@[simp] theorem State.setGauge_msgs (s : State) (g : Nat) (x : Gauge) : (s.setGauge g x).msgs = s.msgs := rfl
@[simp] theorem State.setGauge_spans (s : State) (g : Nat) (x : Gauge) : (s.setGauge g x).spans = s.spans := rfl
@[simp] theorem State.setGauge_dir (s : State) (g : Nat) (x : Gauge) : (s.setGauge g x).dir = s.dir := rfl
@[simp] theorem State.setGauge_once (s : State) (g : Nat) (x : Gauge) : (s.setGauge g x).once = s.once := rfl
@[simp] theorem State.setGauge_tlb (s : State) (g : Nat) (x : Gauge) : (s.setGauge g x).tlb = s.tlb := rfl
@[simp] theorem State.setGauge_dual (s : State) (g : Nat) (x : Gauge) : (s.setGauge g x).dual = s.dual := rfl
@[simp] theorem State.setGauge_stalls (s : State) (g : Nat) (x : Gauge) : (s.setGauge g x).stalls = s.stalls := rfl
@[simp] theorem State.setGauge_mapJobs (s : State) (g : Nat) (x : Gauge) : (s.setGauge g x).mapJobs = s.mapJobs := rfl
@[simp] theorem State.setGauge_maps (s : State) (g : Nat) (x : Gauge) : (s.setGauge g x).maps = s.maps := rfl
@[simp] theorem State.setGauge_mapkNotes (s : State) (g : Nat) (x : Gauge) : (s.setGauge g x).mapkNotes = s.mapkNotes := rfl
@[simp] theorem State.setGauge_frames (s : State) (g : Nat) (x : Gauge) : (s.setGauge g x).frames = s.frames := rfl
@[simp] theorem State.setGauge_asids (s : State) (g : Nat) (x : Gauge) : (s.setGauge g x).asids = s.asids := rfl
@[simp] theorem State.setGauge_asidGen (s : State) (g : Nat) (x : Gauge) : (s.setGauge g x).asidGen = s.asidGen := rfl
@[simp] theorem State.setGauge_ranks (s : State) (g : Nat) (x : Gauge) : (s.setGauge g x).ranks = s.ranks := rfl
@[simp] theorem State.setGauge_nranks (s : State) (g : Nat) (x : Gauge) : (s.setGauge g x).nranks = s.nranks := rfl
@[simp] theorem State.setGauge_rankCache (s : State) (g : Nat) (x : Gauge) : (s.setGauge g x).rankCache = s.rankCache := rfl
@[simp] theorem State.setGauge_windows (s : State) (g : Nat) (x : Gauge) : (s.setGauge g x).windows = s.windows := rfl
@[simp] theorem State.setGauge_packets (s : State) (g : Nat) (x : Gauge) : (s.setGauge g x).packets = s.packets := rfl
@[simp] theorem State.setGauge_ports (s : State) (g : Nat) (x : Gauge) : (s.setGauge g x).ports = s.ports := rfl
@[simp] theorem State.setGauge_topo (s : State) (g : Nat) (x : Gauge) : (s.setGauge g x).topo = s.topo := rfl
@[simp] theorem State.setGauge_update (s : State) (g : Nat) (x : Gauge) : (s.setGauge g x).update = s.update := rfl
@[simp] theorem State.setGauge_fenceSites (s : State) (g : Nat) (x : Gauge) : (s.setGauge g x).fenceSites = s.fenceSites := rfl
@[simp] theorem State.setGauge_retireCores (s : State) (g : Nat) (x : Gauge) : (s.setGauge g x).retireCores = s.retireCores := rfl
@[simp] theorem State.setGauge_queueRecs (s : State) (g : Nat) (x : Gauge) : (s.setGauge g x).queueRecs = s.queueRecs := rfl
@[simp] theorem State.setGauge_rr (s : State) (g : Nat) (x : Gauge) : (s.setGauge g x).rr = s.rr := rfl
@[simp] theorem State.setGauge_lastGid (s : State) (g : Nat) (x : Gauge) : (s.setGauge g x).lastGid = s.lastGid := rfl
@[simp] theorem State.setGauge_gridctl (s : State) (g : Nat) (x : Gauge) : (s.setGauge g x).gridctl = s.gridctl := rfl
@[simp] theorem State.setGauge_parts (s : State) (g : Nat) (x : Gauge) : (s.setGauge g x).parts = s.parts := rfl
@[simp] theorem State.setGauge_samples (s : State) (g : Nat) (x : Gauge) : (s.setGauge g x).samples = s.samples := rfl
@[simp] theorem State.setGauge_interrupts (s : State) (g : Nat) (x : Gauge) : (s.setGauge g x).interrupts = s.interrupts := rfl
@[simp] theorem State.setGauge_cdItime (s : State) (g : Nat) (x : Gauge) : (s.setGauge g x).cdItime = s.cdItime := rfl
@[simp] theorem State.setGauge_images (s : State) (g : Nat) (x : Gauge) : (s.setGauge g x).images = s.images := rfl
@[simp] theorem State.setGauge_boot (s : State) (g : Nat) (x : Gauge) : (s.setGauge g x).boot = s.boot := rfl
@[simp] theorem State.setGauge_now (s : State) (g : Nat) (x : Gauge) : (s.setGauge g x).now = s.now := rfl
@[simp] theorem State.setGauge_rtsFloor (s : State) (g : Nat) (x : Gauge) : (s.setGauge g x).rtsFloor = s.rtsFloor := rfl
@[simp] theorem State.setGauge_gidReserve (s : State) (g : Nat) (x : Gauge) : (s.setGauge g x).gidReserve = s.gidReserve := rfl
@[simp] theorem State.setGauge_panelRecords (s : State) (g : Nat) (x : Gauge) : (s.setGauge g x).panelRecords = s.panelRecords := rfl
@[simp] theorem State.setGauge_rootLost (s : State) (g : Nat) (x : Gauge) : (s.setGauge g x).rootLost = s.rootLost := rfl
@[simp] theorem State.setGauge_returned (s : State) (g : Nat) (x : Gauge) : (s.setGauge g x).returned = s.returned := rfl
@[simp] theorem State.setGauge_widths (s : State) (g : Nat) (x : Gauge) : (s.setGauge g x).widths = s.widths := rfl

/-! ### writeMem -/

@[simp] theorem State.writeMem_clk (s : State) (a n v : Nat) : (s.writeMem a n v).clk = s.clk := rfl
@[simp] theorem State.writeMem_fresh (s : State) (a n v : Nat) : (s.writeMem a n v).fresh = s.fresh := rfl
@[simp] theorem State.writeMem_draw (s : State) (a n v : Nat) : (s.writeMem a n v).draw = s.draw := rfl
@[simp] theorem State.writeMem_issue (s : State) (a n v : Nat) : (s.writeMem a n v).issue = s.issue := rfl
@[simp] theorem State.writeMem_held (s : State) (a n v : Nat) : (s.writeMem a n v).held = s.held := rfl
@[simp] theorem State.writeMem_issued (s : State) (a n v : Nat) : (s.writeMem a n v).issued = s.issued := rfl
@[simp] theorem State.writeMem_inputs (s : State) (a n v : Nat) : (s.writeMem a n v).inputs = s.inputs := rfl
@[simp] theorem State.writeMem_regs (s : State) (a n v : Nat) : (s.writeMem a n v).regs = s.regs := rfl
@[simp] theorem State.writeMem_islands (s : State) (a n v : Nat) : (s.writeMem a n v).islands = s.islands := rfl
@[simp] theorem State.writeMem_cores (s : State) (a n v : Nat) : (s.writeMem a n v).cores = s.cores := rfl
@[simp] theorem State.writeMem_warps (s : State) (a n v : Nat) : (s.writeMem a n v).warps = s.warps := rfl
@[simp] theorem State.writeMem_blocks (s : State) (a n v : Nat) : (s.writeMem a n v).blocks = s.blocks := rfl
@[simp] theorem State.writeMem_grids (s : State) (a n v : Nat) : (s.writeMem a n v).grids = s.grids := rfl
@[simp] theorem State.writeMem_pend (s : State) (a n v : Nat) : (s.writeMem a n v).pend = s.pend := rfl
@[simp] theorem State.writeMem_waits (s : State) (a n v : Nat) : (s.writeMem a n v).waits = s.waits := rfl
@[simp] theorem State.writeMem_msgs (s : State) (a n v : Nat) : (s.writeMem a n v).msgs = s.msgs := rfl
@[simp] theorem State.writeMem_spans (s : State) (a n v : Nat) : (s.writeMem a n v).spans = s.spans := rfl
@[simp] theorem State.writeMem_dir (s : State) (a n v : Nat) : (s.writeMem a n v).dir = s.dir := rfl
@[simp] theorem State.writeMem_once (s : State) (a n v : Nat) : (s.writeMem a n v).once = s.once := rfl
@[simp] theorem State.writeMem_tlb (s : State) (a n v : Nat) : (s.writeMem a n v).tlb = s.tlb := rfl
@[simp] theorem State.writeMem_dual (s : State) (a n v : Nat) : (s.writeMem a n v).dual = s.dual := rfl
@[simp] theorem State.writeMem_stalls (s : State) (a n v : Nat) : (s.writeMem a n v).stalls = s.stalls := rfl
@[simp] theorem State.writeMem_mapJobs (s : State) (a n v : Nat) : (s.writeMem a n v).mapJobs = s.mapJobs := rfl
@[simp] theorem State.writeMem_maps (s : State) (a n v : Nat) : (s.writeMem a n v).maps = s.maps := rfl
@[simp] theorem State.writeMem_mapkNotes (s : State) (a n v : Nat) : (s.writeMem a n v).mapkNotes = s.mapkNotes := rfl
@[simp] theorem State.writeMem_frames (s : State) (a n v : Nat) : (s.writeMem a n v).frames = s.frames := rfl
@[simp] theorem State.writeMem_asids (s : State) (a n v : Nat) : (s.writeMem a n v).asids = s.asids := rfl
@[simp] theorem State.writeMem_asidGen (s : State) (a n v : Nat) : (s.writeMem a n v).asidGen = s.asidGen := rfl
@[simp] theorem State.writeMem_ranks (s : State) (a n v : Nat) : (s.writeMem a n v).ranks = s.ranks := rfl
@[simp] theorem State.writeMem_nranks (s : State) (a n v : Nat) : (s.writeMem a n v).nranks = s.nranks := rfl
@[simp] theorem State.writeMem_rankCache (s : State) (a n v : Nat) : (s.writeMem a n v).rankCache = s.rankCache := rfl
@[simp] theorem State.writeMem_windows (s : State) (a n v : Nat) : (s.writeMem a n v).windows = s.windows := rfl
@[simp] theorem State.writeMem_packets (s : State) (a n v : Nat) : (s.writeMem a n v).packets = s.packets := rfl
@[simp] theorem State.writeMem_ports (s : State) (a n v : Nat) : (s.writeMem a n v).ports = s.ports := rfl
@[simp] theorem State.writeMem_topo (s : State) (a n v : Nat) : (s.writeMem a n v).topo = s.topo := rfl
@[simp] theorem State.writeMem_update (s : State) (a n v : Nat) : (s.writeMem a n v).update = s.update := rfl
@[simp] theorem State.writeMem_fenceSites (s : State) (a n v : Nat) : (s.writeMem a n v).fenceSites = s.fenceSites := rfl
@[simp] theorem State.writeMem_retireCores (s : State) (a n v : Nat) : (s.writeMem a n v).retireCores = s.retireCores := rfl
@[simp] theorem State.writeMem_queueRecs (s : State) (a n v : Nat) : (s.writeMem a n v).queueRecs = s.queueRecs := rfl
@[simp] theorem State.writeMem_rr (s : State) (a n v : Nat) : (s.writeMem a n v).rr = s.rr := rfl
@[simp] theorem State.writeMem_lastGid (s : State) (a n v : Nat) : (s.writeMem a n v).lastGid = s.lastGid := rfl
@[simp] theorem State.writeMem_gridctl (s : State) (a n v : Nat) : (s.writeMem a n v).gridctl = s.gridctl := rfl
@[simp] theorem State.writeMem_gauges (s : State) (a n v : Nat) : (s.writeMem a n v).gauges = s.gauges := rfl
@[simp] theorem State.writeMem_parts (s : State) (a n v : Nat) : (s.writeMem a n v).parts = s.parts := rfl
@[simp] theorem State.writeMem_samples (s : State) (a n v : Nat) : (s.writeMem a n v).samples = s.samples := rfl
@[simp] theorem State.writeMem_interrupts (s : State) (a n v : Nat) : (s.writeMem a n v).interrupts = s.interrupts := rfl
@[simp] theorem State.writeMem_cdItime (s : State) (a n v : Nat) : (s.writeMem a n v).cdItime = s.cdItime := rfl
@[simp] theorem State.writeMem_images (s : State) (a n v : Nat) : (s.writeMem a n v).images = s.images := rfl
@[simp] theorem State.writeMem_boot (s : State) (a n v : Nat) : (s.writeMem a n v).boot = s.boot := rfl
@[simp] theorem State.writeMem_now (s : State) (a n v : Nat) : (s.writeMem a n v).now = s.now := rfl
@[simp] theorem State.writeMem_rtsFloor (s : State) (a n v : Nat) : (s.writeMem a n v).rtsFloor = s.rtsFloor := rfl
@[simp] theorem State.writeMem_gidReserve (s : State) (a n v : Nat) : (s.writeMem a n v).gidReserve = s.gidReserve := rfl
@[simp] theorem State.writeMem_panelRecords (s : State) (a n v : Nat) : (s.writeMem a n v).panelRecords = s.panelRecords := rfl
@[simp] theorem State.writeMem_rootLost (s : State) (a n v : Nat) : (s.writeMem a n v).rootLost = s.rootLost := rfl
@[simp] theorem State.writeMem_returned (s : State) (a n v : Nat) : (s.writeMem a n v).returned = s.returned := rfl
@[simp] theorem State.writeMem_widths (s : State) (a n v : Nat) : (s.writeMem a n v).widths = s.widths := rfl

/-! ### clearMem -/

@[simp] theorem State.clearMem_clk (s : State) (a n : Nat) : (s.clearMem a n).clk = s.clk := rfl
@[simp] theorem State.clearMem_fresh (s : State) (a n : Nat) : (s.clearMem a n).fresh = s.fresh := rfl
@[simp] theorem State.clearMem_draw (s : State) (a n : Nat) : (s.clearMem a n).draw = s.draw := rfl
@[simp] theorem State.clearMem_issue (s : State) (a n : Nat) : (s.clearMem a n).issue = s.issue := rfl
@[simp] theorem State.clearMem_held (s : State) (a n : Nat) : (s.clearMem a n).held = s.held := rfl
@[simp] theorem State.clearMem_issued (s : State) (a n : Nat) : (s.clearMem a n).issued = s.issued := rfl
@[simp] theorem State.clearMem_inputs (s : State) (a n : Nat) : (s.clearMem a n).inputs = s.inputs := rfl
@[simp] theorem State.clearMem_regs (s : State) (a n : Nat) : (s.clearMem a n).regs = s.regs := rfl
@[simp] theorem State.clearMem_islands (s : State) (a n : Nat) : (s.clearMem a n).islands = s.islands := rfl
@[simp] theorem State.clearMem_cores (s : State) (a n : Nat) : (s.clearMem a n).cores = s.cores := rfl
@[simp] theorem State.clearMem_warps (s : State) (a n : Nat) : (s.clearMem a n).warps = s.warps := rfl
@[simp] theorem State.clearMem_blocks (s : State) (a n : Nat) : (s.clearMem a n).blocks = s.blocks := rfl
@[simp] theorem State.clearMem_grids (s : State) (a n : Nat) : (s.clearMem a n).grids = s.grids := rfl
@[simp] theorem State.clearMem_pend (s : State) (a n : Nat) : (s.clearMem a n).pend = s.pend := rfl
@[simp] theorem State.clearMem_waits (s : State) (a n : Nat) : (s.clearMem a n).waits = s.waits := rfl
@[simp] theorem State.clearMem_msgs (s : State) (a n : Nat) : (s.clearMem a n).msgs = s.msgs := rfl
@[simp] theorem State.clearMem_spans (s : State) (a n : Nat) : (s.clearMem a n).spans = s.spans := rfl
@[simp] theorem State.clearMem_dir (s : State) (a n : Nat) : (s.clearMem a n).dir = s.dir := rfl
@[simp] theorem State.clearMem_once (s : State) (a n : Nat) : (s.clearMem a n).once = s.once := rfl
@[simp] theorem State.clearMem_tlb (s : State) (a n : Nat) : (s.clearMem a n).tlb = s.tlb := rfl
@[simp] theorem State.clearMem_dual (s : State) (a n : Nat) : (s.clearMem a n).dual = s.dual := rfl
@[simp] theorem State.clearMem_stalls (s : State) (a n : Nat) : (s.clearMem a n).stalls = s.stalls := rfl
@[simp] theorem State.clearMem_mapJobs (s : State) (a n : Nat) : (s.clearMem a n).mapJobs = s.mapJobs := rfl
@[simp] theorem State.clearMem_maps (s : State) (a n : Nat) : (s.clearMem a n).maps = s.maps := rfl
@[simp] theorem State.clearMem_mapkNotes (s : State) (a n : Nat) : (s.clearMem a n).mapkNotes = s.mapkNotes := rfl
@[simp] theorem State.clearMem_frames (s : State) (a n : Nat) : (s.clearMem a n).frames = s.frames := rfl
@[simp] theorem State.clearMem_asids (s : State) (a n : Nat) : (s.clearMem a n).asids = s.asids := rfl
@[simp] theorem State.clearMem_asidGen (s : State) (a n : Nat) : (s.clearMem a n).asidGen = s.asidGen := rfl
@[simp] theorem State.clearMem_ranks (s : State) (a n : Nat) : (s.clearMem a n).ranks = s.ranks := rfl
@[simp] theorem State.clearMem_nranks (s : State) (a n : Nat) : (s.clearMem a n).nranks = s.nranks := rfl
@[simp] theorem State.clearMem_rankCache (s : State) (a n : Nat) : (s.clearMem a n).rankCache = s.rankCache := rfl
@[simp] theorem State.clearMem_windows (s : State) (a n : Nat) : (s.clearMem a n).windows = s.windows := rfl
@[simp] theorem State.clearMem_packets (s : State) (a n : Nat) : (s.clearMem a n).packets = s.packets := rfl
@[simp] theorem State.clearMem_ports (s : State) (a n : Nat) : (s.clearMem a n).ports = s.ports := rfl
@[simp] theorem State.clearMem_topo (s : State) (a n : Nat) : (s.clearMem a n).topo = s.topo := rfl
@[simp] theorem State.clearMem_update (s : State) (a n : Nat) : (s.clearMem a n).update = s.update := rfl
@[simp] theorem State.clearMem_fenceSites (s : State) (a n : Nat) : (s.clearMem a n).fenceSites = s.fenceSites := rfl
@[simp] theorem State.clearMem_retireCores (s : State) (a n : Nat) : (s.clearMem a n).retireCores = s.retireCores := rfl
@[simp] theorem State.clearMem_queueRecs (s : State) (a n : Nat) : (s.clearMem a n).queueRecs = s.queueRecs := rfl
@[simp] theorem State.clearMem_rr (s : State) (a n : Nat) : (s.clearMem a n).rr = s.rr := rfl
@[simp] theorem State.clearMem_lastGid (s : State) (a n : Nat) : (s.clearMem a n).lastGid = s.lastGid := rfl
@[simp] theorem State.clearMem_gridctl (s : State) (a n : Nat) : (s.clearMem a n).gridctl = s.gridctl := rfl
@[simp] theorem State.clearMem_gauges (s : State) (a n : Nat) : (s.clearMem a n).gauges = s.gauges := rfl
@[simp] theorem State.clearMem_parts (s : State) (a n : Nat) : (s.clearMem a n).parts = s.parts := rfl
@[simp] theorem State.clearMem_samples (s : State) (a n : Nat) : (s.clearMem a n).samples = s.samples := rfl
@[simp] theorem State.clearMem_interrupts (s : State) (a n : Nat) : (s.clearMem a n).interrupts = s.interrupts := rfl
@[simp] theorem State.clearMem_cdItime (s : State) (a n : Nat) : (s.clearMem a n).cdItime = s.cdItime := rfl
@[simp] theorem State.clearMem_images (s : State) (a n : Nat) : (s.clearMem a n).images = s.images := rfl
@[simp] theorem State.clearMem_boot (s : State) (a n : Nat) : (s.clearMem a n).boot = s.boot := rfl
@[simp] theorem State.clearMem_now (s : State) (a n : Nat) : (s.clearMem a n).now = s.now := rfl
@[simp] theorem State.clearMem_rtsFloor (s : State) (a n : Nat) : (s.clearMem a n).rtsFloor = s.rtsFloor := rfl
@[simp] theorem State.clearMem_gidReserve (s : State) (a n : Nat) : (s.clearMem a n).gidReserve = s.gidReserve := rfl
@[simp] theorem State.clearMem_panelRecords (s : State) (a n : Nat) : (s.clearMem a n).panelRecords = s.panelRecords := rfl
@[simp] theorem State.clearMem_rootLost (s : State) (a n : Nat) : (s.clearMem a n).rootLost = s.rootLost := rfl
@[simp] theorem State.clearMem_returned (s : State) (a n : Nat) : (s.clearMem a n).returned = s.returned := rfl
@[simp] theorem State.clearMem_widths (s : State) (a n : Nat) : (s.clearMem a n).widths = s.widths := rfl

/-! ### addMsg -/

@[simp] theorem State.addMsg_clk (s : State) (m : Msg) : (s.addMsg m).clk = s.clk := rfl
@[simp] theorem State.addMsg_fresh (s : State) (m : Msg) : (s.addMsg m).fresh = s.fresh := rfl
@[simp] theorem State.addMsg_draw (s : State) (m : Msg) : (s.addMsg m).draw = s.draw := rfl
@[simp] theorem State.addMsg_issue (s : State) (m : Msg) : (s.addMsg m).issue = s.issue := rfl
@[simp] theorem State.addMsg_held (s : State) (m : Msg) : (s.addMsg m).held = s.held := rfl
@[simp] theorem State.addMsg_issued (s : State) (m : Msg) : (s.addMsg m).issued = s.issued := rfl
@[simp] theorem State.addMsg_inputs (s : State) (m : Msg) : (s.addMsg m).inputs = s.inputs := rfl
@[simp] theorem State.addMsg_mem (s : State) (m : Msg) : (s.addMsg m).mem = s.mem := rfl
@[simp] theorem State.addMsg_regs (s : State) (m : Msg) : (s.addMsg m).regs = s.regs := rfl
@[simp] theorem State.addMsg_islands (s : State) (m : Msg) : (s.addMsg m).islands = s.islands := rfl
@[simp] theorem State.addMsg_cores (s : State) (m : Msg) : (s.addMsg m).cores = s.cores := rfl
@[simp] theorem State.addMsg_warps (s : State) (m : Msg) : (s.addMsg m).warps = s.warps := rfl
@[simp] theorem State.addMsg_blocks (s : State) (m : Msg) : (s.addMsg m).blocks = s.blocks := rfl
@[simp] theorem State.addMsg_grids (s : State) (m : Msg) : (s.addMsg m).grids = s.grids := rfl
@[simp] theorem State.addMsg_pend (s : State) (m : Msg) : (s.addMsg m).pend = s.pend := rfl
@[simp] theorem State.addMsg_waits (s : State) (m : Msg) : (s.addMsg m).waits = s.waits := rfl
@[simp] theorem State.addMsg_spans (s : State) (m : Msg) : (s.addMsg m).spans = s.spans := rfl
@[simp] theorem State.addMsg_dir (s : State) (m : Msg) : (s.addMsg m).dir = s.dir := rfl
@[simp] theorem State.addMsg_once (s : State) (m : Msg) : (s.addMsg m).once = s.once := rfl
@[simp] theorem State.addMsg_tlb (s : State) (m : Msg) : (s.addMsg m).tlb = s.tlb := rfl
@[simp] theorem State.addMsg_dual (s : State) (m : Msg) : (s.addMsg m).dual = s.dual := rfl
@[simp] theorem State.addMsg_stalls (s : State) (m : Msg) : (s.addMsg m).stalls = s.stalls := rfl
@[simp] theorem State.addMsg_mapJobs (s : State) (m : Msg) : (s.addMsg m).mapJobs = s.mapJobs := rfl
@[simp] theorem State.addMsg_maps (s : State) (m : Msg) : (s.addMsg m).maps = s.maps := rfl
@[simp] theorem State.addMsg_mapkNotes (s : State) (m : Msg) : (s.addMsg m).mapkNotes = s.mapkNotes := rfl
@[simp] theorem State.addMsg_frames (s : State) (m : Msg) : (s.addMsg m).frames = s.frames := rfl
@[simp] theorem State.addMsg_asids (s : State) (m : Msg) : (s.addMsg m).asids = s.asids := rfl
@[simp] theorem State.addMsg_asidGen (s : State) (m : Msg) : (s.addMsg m).asidGen = s.asidGen := rfl
@[simp] theorem State.addMsg_ranks (s : State) (m : Msg) : (s.addMsg m).ranks = s.ranks := rfl
@[simp] theorem State.addMsg_nranks (s : State) (m : Msg) : (s.addMsg m).nranks = s.nranks := rfl
@[simp] theorem State.addMsg_rankCache (s : State) (m : Msg) : (s.addMsg m).rankCache = s.rankCache := rfl
@[simp] theorem State.addMsg_windows (s : State) (m : Msg) : (s.addMsg m).windows = s.windows := rfl
@[simp] theorem State.addMsg_packets (s : State) (m : Msg) : (s.addMsg m).packets = s.packets := rfl
@[simp] theorem State.addMsg_ports (s : State) (m : Msg) : (s.addMsg m).ports = s.ports := rfl
@[simp] theorem State.addMsg_topo (s : State) (m : Msg) : (s.addMsg m).topo = s.topo := rfl
@[simp] theorem State.addMsg_update (s : State) (m : Msg) : (s.addMsg m).update = s.update := rfl
@[simp] theorem State.addMsg_fenceSites (s : State) (m : Msg) : (s.addMsg m).fenceSites = s.fenceSites := rfl
@[simp] theorem State.addMsg_retireCores (s : State) (m : Msg) : (s.addMsg m).retireCores = s.retireCores := rfl
@[simp] theorem State.addMsg_queueRecs (s : State) (m : Msg) : (s.addMsg m).queueRecs = s.queueRecs := rfl
@[simp] theorem State.addMsg_rr (s : State) (m : Msg) : (s.addMsg m).rr = s.rr := rfl
@[simp] theorem State.addMsg_lastGid (s : State) (m : Msg) : (s.addMsg m).lastGid = s.lastGid := rfl
@[simp] theorem State.addMsg_gridctl (s : State) (m : Msg) : (s.addMsg m).gridctl = s.gridctl := rfl
@[simp] theorem State.addMsg_gauges (s : State) (m : Msg) : (s.addMsg m).gauges = s.gauges := rfl
@[simp] theorem State.addMsg_parts (s : State) (m : Msg) : (s.addMsg m).parts = s.parts := rfl
@[simp] theorem State.addMsg_samples (s : State) (m : Msg) : (s.addMsg m).samples = s.samples := rfl
@[simp] theorem State.addMsg_interrupts (s : State) (m : Msg) : (s.addMsg m).interrupts = s.interrupts := rfl
@[simp] theorem State.addMsg_cdItime (s : State) (m : Msg) : (s.addMsg m).cdItime = s.cdItime := rfl
@[simp] theorem State.addMsg_images (s : State) (m : Msg) : (s.addMsg m).images = s.images := rfl
@[simp] theorem State.addMsg_boot (s : State) (m : Msg) : (s.addMsg m).boot = s.boot := rfl
@[simp] theorem State.addMsg_now (s : State) (m : Msg) : (s.addMsg m).now = s.now := rfl
@[simp] theorem State.addMsg_rtsFloor (s : State) (m : Msg) : (s.addMsg m).rtsFloor = s.rtsFloor := rfl
@[simp] theorem State.addMsg_gidReserve (s : State) (m : Msg) : (s.addMsg m).gidReserve = s.gidReserve := rfl
@[simp] theorem State.addMsg_panelRecords (s : State) (m : Msg) : (s.addMsg m).panelRecords = s.panelRecords := rfl
@[simp] theorem State.addMsg_rootLost (s : State) (m : Msg) : (s.addMsg m).rootLost = s.rootLost := rfl
@[simp] theorem State.addMsg_returned (s : State) (m : Msg) : (s.addMsg m).returned = s.returned := rfl
@[simp] theorem State.addMsg_widths (s : State) (m : Msg) : (s.addMsg m).widths = s.widths := rfl

/-! ### dropMsg -/

@[simp] theorem State.dropMsg_clk (s : State) (id : Nat) : (s.dropMsg id).clk = s.clk := rfl
@[simp] theorem State.dropMsg_fresh (s : State) (id : Nat) : (s.dropMsg id).fresh = s.fresh := rfl
@[simp] theorem State.dropMsg_draw (s : State) (id : Nat) : (s.dropMsg id).draw = s.draw := rfl
@[simp] theorem State.dropMsg_issue (s : State) (id : Nat) : (s.dropMsg id).issue = s.issue := rfl
@[simp] theorem State.dropMsg_held (s : State) (id : Nat) : (s.dropMsg id).held = s.held := rfl
@[simp] theorem State.dropMsg_issued (s : State) (id : Nat) : (s.dropMsg id).issued = s.issued := rfl
@[simp] theorem State.dropMsg_inputs (s : State) (id : Nat) : (s.dropMsg id).inputs = s.inputs := rfl
@[simp] theorem State.dropMsg_mem (s : State) (id : Nat) : (s.dropMsg id).mem = s.mem := rfl
@[simp] theorem State.dropMsg_regs (s : State) (id : Nat) : (s.dropMsg id).regs = s.regs := rfl
@[simp] theorem State.dropMsg_islands (s : State) (id : Nat) : (s.dropMsg id).islands = s.islands := rfl
@[simp] theorem State.dropMsg_cores (s : State) (id : Nat) : (s.dropMsg id).cores = s.cores := rfl
@[simp] theorem State.dropMsg_warps (s : State) (id : Nat) : (s.dropMsg id).warps = s.warps := rfl
@[simp] theorem State.dropMsg_blocks (s : State) (id : Nat) : (s.dropMsg id).blocks = s.blocks := rfl
@[simp] theorem State.dropMsg_grids (s : State) (id : Nat) : (s.dropMsg id).grids = s.grids := rfl
@[simp] theorem State.dropMsg_pend (s : State) (id : Nat) : (s.dropMsg id).pend = s.pend := rfl
@[simp] theorem State.dropMsg_waits (s : State) (id : Nat) : (s.dropMsg id).waits = s.waits := rfl
@[simp] theorem State.dropMsg_spans (s : State) (id : Nat) : (s.dropMsg id).spans = s.spans := rfl
@[simp] theorem State.dropMsg_dir (s : State) (id : Nat) : (s.dropMsg id).dir = s.dir := rfl
@[simp] theorem State.dropMsg_once (s : State) (id : Nat) : (s.dropMsg id).once = s.once := rfl
@[simp] theorem State.dropMsg_tlb (s : State) (id : Nat) : (s.dropMsg id).tlb = s.tlb := rfl
@[simp] theorem State.dropMsg_dual (s : State) (id : Nat) : (s.dropMsg id).dual = s.dual := rfl
@[simp] theorem State.dropMsg_stalls (s : State) (id : Nat) : (s.dropMsg id).stalls = s.stalls := rfl
@[simp] theorem State.dropMsg_mapJobs (s : State) (id : Nat) : (s.dropMsg id).mapJobs = s.mapJobs := rfl
@[simp] theorem State.dropMsg_maps (s : State) (id : Nat) : (s.dropMsg id).maps = s.maps := rfl
@[simp] theorem State.dropMsg_mapkNotes (s : State) (id : Nat) : (s.dropMsg id).mapkNotes = s.mapkNotes := rfl
@[simp] theorem State.dropMsg_frames (s : State) (id : Nat) : (s.dropMsg id).frames = s.frames := rfl
@[simp] theorem State.dropMsg_asids (s : State) (id : Nat) : (s.dropMsg id).asids = s.asids := rfl
@[simp] theorem State.dropMsg_asidGen (s : State) (id : Nat) : (s.dropMsg id).asidGen = s.asidGen := rfl
@[simp] theorem State.dropMsg_ranks (s : State) (id : Nat) : (s.dropMsg id).ranks = s.ranks := rfl
@[simp] theorem State.dropMsg_nranks (s : State) (id : Nat) : (s.dropMsg id).nranks = s.nranks := rfl
@[simp] theorem State.dropMsg_rankCache (s : State) (id : Nat) : (s.dropMsg id).rankCache = s.rankCache := rfl
@[simp] theorem State.dropMsg_windows (s : State) (id : Nat) : (s.dropMsg id).windows = s.windows := rfl
@[simp] theorem State.dropMsg_packets (s : State) (id : Nat) : (s.dropMsg id).packets = s.packets := rfl
@[simp] theorem State.dropMsg_ports (s : State) (id : Nat) : (s.dropMsg id).ports = s.ports := rfl
@[simp] theorem State.dropMsg_topo (s : State) (id : Nat) : (s.dropMsg id).topo = s.topo := rfl
@[simp] theorem State.dropMsg_update (s : State) (id : Nat) : (s.dropMsg id).update = s.update := rfl
@[simp] theorem State.dropMsg_fenceSites (s : State) (id : Nat) : (s.dropMsg id).fenceSites = s.fenceSites := rfl
@[simp] theorem State.dropMsg_retireCores (s : State) (id : Nat) : (s.dropMsg id).retireCores = s.retireCores := rfl
@[simp] theorem State.dropMsg_queueRecs (s : State) (id : Nat) : (s.dropMsg id).queueRecs = s.queueRecs := rfl
@[simp] theorem State.dropMsg_rr (s : State) (id : Nat) : (s.dropMsg id).rr = s.rr := rfl
@[simp] theorem State.dropMsg_lastGid (s : State) (id : Nat) : (s.dropMsg id).lastGid = s.lastGid := rfl
@[simp] theorem State.dropMsg_gridctl (s : State) (id : Nat) : (s.dropMsg id).gridctl = s.gridctl := rfl
@[simp] theorem State.dropMsg_gauges (s : State) (id : Nat) : (s.dropMsg id).gauges = s.gauges := rfl
@[simp] theorem State.dropMsg_parts (s : State) (id : Nat) : (s.dropMsg id).parts = s.parts := rfl
@[simp] theorem State.dropMsg_samples (s : State) (id : Nat) : (s.dropMsg id).samples = s.samples := rfl
@[simp] theorem State.dropMsg_interrupts (s : State) (id : Nat) : (s.dropMsg id).interrupts = s.interrupts := rfl
@[simp] theorem State.dropMsg_cdItime (s : State) (id : Nat) : (s.dropMsg id).cdItime = s.cdItime := rfl
@[simp] theorem State.dropMsg_images (s : State) (id : Nat) : (s.dropMsg id).images = s.images := rfl
@[simp] theorem State.dropMsg_boot (s : State) (id : Nat) : (s.dropMsg id).boot = s.boot := rfl
@[simp] theorem State.dropMsg_now (s : State) (id : Nat) : (s.dropMsg id).now = s.now := rfl
@[simp] theorem State.dropMsg_rtsFloor (s : State) (id : Nat) : (s.dropMsg id).rtsFloor = s.rtsFloor := rfl
@[simp] theorem State.dropMsg_gidReserve (s : State) (id : Nat) : (s.dropMsg id).gidReserve = s.gidReserve := rfl
@[simp] theorem State.dropMsg_panelRecords (s : State) (id : Nat) : (s.dropMsg id).panelRecords = s.panelRecords := rfl
@[simp] theorem State.dropMsg_rootLost (s : State) (id : Nat) : (s.dropMsg id).rootLost = s.rootLost := rfl
@[simp] theorem State.dropMsg_returned (s : State) (id : Nat) : (s.dropMsg id).returned = s.returned := rfl
@[simp] theorem State.dropMsg_widths (s : State) (id : Nat) : (s.dropMsg id).widths = s.widths := rfl

/-! ### setMsg -/

@[simp] theorem State.setMsg_clk (s : State) (m : Msg) : (s.setMsg m).clk = s.clk := rfl
@[simp] theorem State.setMsg_fresh (s : State) (m : Msg) : (s.setMsg m).fresh = s.fresh := rfl
@[simp] theorem State.setMsg_draw (s : State) (m : Msg) : (s.setMsg m).draw = s.draw := rfl
@[simp] theorem State.setMsg_issue (s : State) (m : Msg) : (s.setMsg m).issue = s.issue := rfl
@[simp] theorem State.setMsg_held (s : State) (m : Msg) : (s.setMsg m).held = s.held := rfl
@[simp] theorem State.setMsg_issued (s : State) (m : Msg) : (s.setMsg m).issued = s.issued := rfl
@[simp] theorem State.setMsg_inputs (s : State) (m : Msg) : (s.setMsg m).inputs = s.inputs := rfl
@[simp] theorem State.setMsg_mem (s : State) (m : Msg) : (s.setMsg m).mem = s.mem := rfl
@[simp] theorem State.setMsg_regs (s : State) (m : Msg) : (s.setMsg m).regs = s.regs := rfl
@[simp] theorem State.setMsg_islands (s : State) (m : Msg) : (s.setMsg m).islands = s.islands := rfl
@[simp] theorem State.setMsg_cores (s : State) (m : Msg) : (s.setMsg m).cores = s.cores := rfl
@[simp] theorem State.setMsg_warps (s : State) (m : Msg) : (s.setMsg m).warps = s.warps := rfl
@[simp] theorem State.setMsg_blocks (s : State) (m : Msg) : (s.setMsg m).blocks = s.blocks := rfl
@[simp] theorem State.setMsg_grids (s : State) (m : Msg) : (s.setMsg m).grids = s.grids := rfl
@[simp] theorem State.setMsg_pend (s : State) (m : Msg) : (s.setMsg m).pend = s.pend := rfl
@[simp] theorem State.setMsg_waits (s : State) (m : Msg) : (s.setMsg m).waits = s.waits := rfl
@[simp] theorem State.setMsg_spans (s : State) (m : Msg) : (s.setMsg m).spans = s.spans := rfl
@[simp] theorem State.setMsg_dir (s : State) (m : Msg) : (s.setMsg m).dir = s.dir := rfl
@[simp] theorem State.setMsg_once (s : State) (m : Msg) : (s.setMsg m).once = s.once := rfl
@[simp] theorem State.setMsg_tlb (s : State) (m : Msg) : (s.setMsg m).tlb = s.tlb := rfl
@[simp] theorem State.setMsg_dual (s : State) (m : Msg) : (s.setMsg m).dual = s.dual := rfl
@[simp] theorem State.setMsg_stalls (s : State) (m : Msg) : (s.setMsg m).stalls = s.stalls := rfl
@[simp] theorem State.setMsg_mapJobs (s : State) (m : Msg) : (s.setMsg m).mapJobs = s.mapJobs := rfl
@[simp] theorem State.setMsg_maps (s : State) (m : Msg) : (s.setMsg m).maps = s.maps := rfl
@[simp] theorem State.setMsg_mapkNotes (s : State) (m : Msg) : (s.setMsg m).mapkNotes = s.mapkNotes := rfl
@[simp] theorem State.setMsg_frames (s : State) (m : Msg) : (s.setMsg m).frames = s.frames := rfl
@[simp] theorem State.setMsg_asids (s : State) (m : Msg) : (s.setMsg m).asids = s.asids := rfl
@[simp] theorem State.setMsg_asidGen (s : State) (m : Msg) : (s.setMsg m).asidGen = s.asidGen := rfl
@[simp] theorem State.setMsg_ranks (s : State) (m : Msg) : (s.setMsg m).ranks = s.ranks := rfl
@[simp] theorem State.setMsg_nranks (s : State) (m : Msg) : (s.setMsg m).nranks = s.nranks := rfl
@[simp] theorem State.setMsg_rankCache (s : State) (m : Msg) : (s.setMsg m).rankCache = s.rankCache := rfl
@[simp] theorem State.setMsg_windows (s : State) (m : Msg) : (s.setMsg m).windows = s.windows := rfl
@[simp] theorem State.setMsg_packets (s : State) (m : Msg) : (s.setMsg m).packets = s.packets := rfl
@[simp] theorem State.setMsg_ports (s : State) (m : Msg) : (s.setMsg m).ports = s.ports := rfl
@[simp] theorem State.setMsg_topo (s : State) (m : Msg) : (s.setMsg m).topo = s.topo := rfl
@[simp] theorem State.setMsg_update (s : State) (m : Msg) : (s.setMsg m).update = s.update := rfl
@[simp] theorem State.setMsg_fenceSites (s : State) (m : Msg) : (s.setMsg m).fenceSites = s.fenceSites := rfl
@[simp] theorem State.setMsg_retireCores (s : State) (m : Msg) : (s.setMsg m).retireCores = s.retireCores := rfl
@[simp] theorem State.setMsg_queueRecs (s : State) (m : Msg) : (s.setMsg m).queueRecs = s.queueRecs := rfl
@[simp] theorem State.setMsg_rr (s : State) (m : Msg) : (s.setMsg m).rr = s.rr := rfl
@[simp] theorem State.setMsg_lastGid (s : State) (m : Msg) : (s.setMsg m).lastGid = s.lastGid := rfl
@[simp] theorem State.setMsg_gridctl (s : State) (m : Msg) : (s.setMsg m).gridctl = s.gridctl := rfl
@[simp] theorem State.setMsg_gauges (s : State) (m : Msg) : (s.setMsg m).gauges = s.gauges := rfl
@[simp] theorem State.setMsg_parts (s : State) (m : Msg) : (s.setMsg m).parts = s.parts := rfl
@[simp] theorem State.setMsg_samples (s : State) (m : Msg) : (s.setMsg m).samples = s.samples := rfl
@[simp] theorem State.setMsg_interrupts (s : State) (m : Msg) : (s.setMsg m).interrupts = s.interrupts := rfl
@[simp] theorem State.setMsg_cdItime (s : State) (m : Msg) : (s.setMsg m).cdItime = s.cdItime := rfl
@[simp] theorem State.setMsg_images (s : State) (m : Msg) : (s.setMsg m).images = s.images := rfl
@[simp] theorem State.setMsg_boot (s : State) (m : Msg) : (s.setMsg m).boot = s.boot := rfl
@[simp] theorem State.setMsg_now (s : State) (m : Msg) : (s.setMsg m).now = s.now := rfl
@[simp] theorem State.setMsg_rtsFloor (s : State) (m : Msg) : (s.setMsg m).rtsFloor = s.rtsFloor := rfl
@[simp] theorem State.setMsg_gidReserve (s : State) (m : Msg) : (s.setMsg m).gidReserve = s.gidReserve := rfl
@[simp] theorem State.setMsg_panelRecords (s : State) (m : Msg) : (s.setMsg m).panelRecords = s.panelRecords := rfl
@[simp] theorem State.setMsg_rootLost (s : State) (m : Msg) : (s.setMsg m).rootLost = s.rootLost := rfl
@[simp] theorem State.setMsg_returned (s : State) (m : Msg) : (s.setMsg m).returned = s.returned := rfl
@[simp] theorem State.setMsg_widths (s : State) (m : Msg) : (s.setMsg m).widths = s.widths := rfl

/-! ### dropPend -/

@[simp] theorem State.dropPend_clk (s : State) (id : Nat) : (s.dropPend id).clk = s.clk := rfl
@[simp] theorem State.dropPend_fresh (s : State) (id : Nat) : (s.dropPend id).fresh = s.fresh := rfl
@[simp] theorem State.dropPend_draw (s : State) (id : Nat) : (s.dropPend id).draw = s.draw := rfl
@[simp] theorem State.dropPend_issue (s : State) (id : Nat) : (s.dropPend id).issue = s.issue := rfl
@[simp] theorem State.dropPend_held (s : State) (id : Nat) : (s.dropPend id).held = s.held := rfl
@[simp] theorem State.dropPend_issued (s : State) (id : Nat) : (s.dropPend id).issued = s.issued := rfl
@[simp] theorem State.dropPend_inputs (s : State) (id : Nat) : (s.dropPend id).inputs = s.inputs := rfl
@[simp] theorem State.dropPend_mem (s : State) (id : Nat) : (s.dropPend id).mem = s.mem := rfl
@[simp] theorem State.dropPend_regs (s : State) (id : Nat) : (s.dropPend id).regs = s.regs := rfl
@[simp] theorem State.dropPend_islands (s : State) (id : Nat) : (s.dropPend id).islands = s.islands := rfl
@[simp] theorem State.dropPend_cores (s : State) (id : Nat) : (s.dropPend id).cores = s.cores := rfl
@[simp] theorem State.dropPend_warps (s : State) (id : Nat) : (s.dropPend id).warps = s.warps := rfl
@[simp] theorem State.dropPend_blocks (s : State) (id : Nat) : (s.dropPend id).blocks = s.blocks := rfl
@[simp] theorem State.dropPend_grids (s : State) (id : Nat) : (s.dropPend id).grids = s.grids := rfl
@[simp] theorem State.dropPend_waits (s : State) (id : Nat) : (s.dropPend id).waits = s.waits := rfl
@[simp] theorem State.dropPend_msgs (s : State) (id : Nat) : (s.dropPend id).msgs = s.msgs := rfl
@[simp] theorem State.dropPend_spans (s : State) (id : Nat) : (s.dropPend id).spans = s.spans := rfl
@[simp] theorem State.dropPend_dir (s : State) (id : Nat) : (s.dropPend id).dir = s.dir := rfl
@[simp] theorem State.dropPend_once (s : State) (id : Nat) : (s.dropPend id).once = s.once := rfl
@[simp] theorem State.dropPend_tlb (s : State) (id : Nat) : (s.dropPend id).tlb = s.tlb := rfl
@[simp] theorem State.dropPend_dual (s : State) (id : Nat) : (s.dropPend id).dual = s.dual := rfl
@[simp] theorem State.dropPend_stalls (s : State) (id : Nat) : (s.dropPend id).stalls = s.stalls := rfl
@[simp] theorem State.dropPend_mapJobs (s : State) (id : Nat) : (s.dropPend id).mapJobs = s.mapJobs := rfl
@[simp] theorem State.dropPend_maps (s : State) (id : Nat) : (s.dropPend id).maps = s.maps := rfl
@[simp] theorem State.dropPend_mapkNotes (s : State) (id : Nat) : (s.dropPend id).mapkNotes = s.mapkNotes := rfl
@[simp] theorem State.dropPend_frames (s : State) (id : Nat) : (s.dropPend id).frames = s.frames := rfl
@[simp] theorem State.dropPend_asids (s : State) (id : Nat) : (s.dropPend id).asids = s.asids := rfl
@[simp] theorem State.dropPend_asidGen (s : State) (id : Nat) : (s.dropPend id).asidGen = s.asidGen := rfl
@[simp] theorem State.dropPend_ranks (s : State) (id : Nat) : (s.dropPend id).ranks = s.ranks := rfl
@[simp] theorem State.dropPend_nranks (s : State) (id : Nat) : (s.dropPend id).nranks = s.nranks := rfl
@[simp] theorem State.dropPend_rankCache (s : State) (id : Nat) : (s.dropPend id).rankCache = s.rankCache := rfl
@[simp] theorem State.dropPend_windows (s : State) (id : Nat) : (s.dropPend id).windows = s.windows := rfl
@[simp] theorem State.dropPend_packets (s : State) (id : Nat) : (s.dropPend id).packets = s.packets := rfl
@[simp] theorem State.dropPend_ports (s : State) (id : Nat) : (s.dropPend id).ports = s.ports := rfl
@[simp] theorem State.dropPend_topo (s : State) (id : Nat) : (s.dropPend id).topo = s.topo := rfl
@[simp] theorem State.dropPend_update (s : State) (id : Nat) : (s.dropPend id).update = s.update := rfl
@[simp] theorem State.dropPend_fenceSites (s : State) (id : Nat) : (s.dropPend id).fenceSites = s.fenceSites := rfl
@[simp] theorem State.dropPend_retireCores (s : State) (id : Nat) : (s.dropPend id).retireCores = s.retireCores := rfl
@[simp] theorem State.dropPend_queueRecs (s : State) (id : Nat) : (s.dropPend id).queueRecs = s.queueRecs := rfl
@[simp] theorem State.dropPend_rr (s : State) (id : Nat) : (s.dropPend id).rr = s.rr := rfl
@[simp] theorem State.dropPend_lastGid (s : State) (id : Nat) : (s.dropPend id).lastGid = s.lastGid := rfl
@[simp] theorem State.dropPend_gridctl (s : State) (id : Nat) : (s.dropPend id).gridctl = s.gridctl := rfl
@[simp] theorem State.dropPend_gauges (s : State) (id : Nat) : (s.dropPend id).gauges = s.gauges := rfl
@[simp] theorem State.dropPend_parts (s : State) (id : Nat) : (s.dropPend id).parts = s.parts := rfl
@[simp] theorem State.dropPend_samples (s : State) (id : Nat) : (s.dropPend id).samples = s.samples := rfl
@[simp] theorem State.dropPend_interrupts (s : State) (id : Nat) : (s.dropPend id).interrupts = s.interrupts := rfl
@[simp] theorem State.dropPend_cdItime (s : State) (id : Nat) : (s.dropPend id).cdItime = s.cdItime := rfl
@[simp] theorem State.dropPend_images (s : State) (id : Nat) : (s.dropPend id).images = s.images := rfl
@[simp] theorem State.dropPend_boot (s : State) (id : Nat) : (s.dropPend id).boot = s.boot := rfl
@[simp] theorem State.dropPend_now (s : State) (id : Nat) : (s.dropPend id).now = s.now := rfl
@[simp] theorem State.dropPend_rtsFloor (s : State) (id : Nat) : (s.dropPend id).rtsFloor = s.rtsFloor := rfl
@[simp] theorem State.dropPend_gidReserve (s : State) (id : Nat) : (s.dropPend id).gidReserve = s.gidReserve := rfl
@[simp] theorem State.dropPend_panelRecords (s : State) (id : Nat) : (s.dropPend id).panelRecords = s.panelRecords := rfl
@[simp] theorem State.dropPend_rootLost (s : State) (id : Nat) : (s.dropPend id).rootLost = s.rootLost := rfl
@[simp] theorem State.dropPend_returned (s : State) (id : Nat) : (s.dropPend id).returned = s.returned := rfl
@[simp] theorem State.dropPend_widths (s : State) (id : Nat) : (s.dropPend id).widths = s.widths := rfl

/-! ### addPacket -/

@[simp] theorem State.addPacket_clk (s : State) (p : Packet) : (s.addPacket p).clk = s.clk := rfl
@[simp] theorem State.addPacket_fresh (s : State) (p : Packet) : (s.addPacket p).fresh = s.fresh := rfl
@[simp] theorem State.addPacket_draw (s : State) (p : Packet) : (s.addPacket p).draw = s.draw := rfl
@[simp] theorem State.addPacket_issue (s : State) (p : Packet) : (s.addPacket p).issue = s.issue := rfl
@[simp] theorem State.addPacket_held (s : State) (p : Packet) : (s.addPacket p).held = s.held := rfl
@[simp] theorem State.addPacket_issued (s : State) (p : Packet) : (s.addPacket p).issued = s.issued := rfl
@[simp] theorem State.addPacket_inputs (s : State) (p : Packet) : (s.addPacket p).inputs = s.inputs := rfl
@[simp] theorem State.addPacket_mem (s : State) (p : Packet) : (s.addPacket p).mem = s.mem := rfl
@[simp] theorem State.addPacket_regs (s : State) (p : Packet) : (s.addPacket p).regs = s.regs := rfl
@[simp] theorem State.addPacket_islands (s : State) (p : Packet) : (s.addPacket p).islands = s.islands := rfl
@[simp] theorem State.addPacket_cores (s : State) (p : Packet) : (s.addPacket p).cores = s.cores := rfl
@[simp] theorem State.addPacket_warps (s : State) (p : Packet) : (s.addPacket p).warps = s.warps := rfl
@[simp] theorem State.addPacket_blocks (s : State) (p : Packet) : (s.addPacket p).blocks = s.blocks := rfl
@[simp] theorem State.addPacket_grids (s : State) (p : Packet) : (s.addPacket p).grids = s.grids := rfl
@[simp] theorem State.addPacket_pend (s : State) (p : Packet) : (s.addPacket p).pend = s.pend := rfl
@[simp] theorem State.addPacket_waits (s : State) (p : Packet) : (s.addPacket p).waits = s.waits := rfl
@[simp] theorem State.addPacket_msgs (s : State) (p : Packet) : (s.addPacket p).msgs = s.msgs := rfl
@[simp] theorem State.addPacket_spans (s : State) (p : Packet) : (s.addPacket p).spans = s.spans := rfl
@[simp] theorem State.addPacket_dir (s : State) (p : Packet) : (s.addPacket p).dir = s.dir := rfl
@[simp] theorem State.addPacket_once (s : State) (p : Packet) : (s.addPacket p).once = s.once := rfl
@[simp] theorem State.addPacket_tlb (s : State) (p : Packet) : (s.addPacket p).tlb = s.tlb := rfl
@[simp] theorem State.addPacket_dual (s : State) (p : Packet) : (s.addPacket p).dual = s.dual := rfl
@[simp] theorem State.addPacket_stalls (s : State) (p : Packet) : (s.addPacket p).stalls = s.stalls := rfl
@[simp] theorem State.addPacket_mapJobs (s : State) (p : Packet) : (s.addPacket p).mapJobs = s.mapJobs := rfl
@[simp] theorem State.addPacket_maps (s : State) (p : Packet) : (s.addPacket p).maps = s.maps := rfl
@[simp] theorem State.addPacket_mapkNotes (s : State) (p : Packet) : (s.addPacket p).mapkNotes = s.mapkNotes := rfl
@[simp] theorem State.addPacket_frames (s : State) (p : Packet) : (s.addPacket p).frames = s.frames := rfl
@[simp] theorem State.addPacket_asids (s : State) (p : Packet) : (s.addPacket p).asids = s.asids := rfl
@[simp] theorem State.addPacket_asidGen (s : State) (p : Packet) : (s.addPacket p).asidGen = s.asidGen := rfl
@[simp] theorem State.addPacket_ranks (s : State) (p : Packet) : (s.addPacket p).ranks = s.ranks := rfl
@[simp] theorem State.addPacket_nranks (s : State) (p : Packet) : (s.addPacket p).nranks = s.nranks := rfl
@[simp] theorem State.addPacket_rankCache (s : State) (p : Packet) : (s.addPacket p).rankCache = s.rankCache := rfl
@[simp] theorem State.addPacket_windows (s : State) (p : Packet) : (s.addPacket p).windows = s.windows := rfl
@[simp] theorem State.addPacket_ports (s : State) (p : Packet) : (s.addPacket p).ports = s.ports := rfl
@[simp] theorem State.addPacket_topo (s : State) (p : Packet) : (s.addPacket p).topo = s.topo := rfl
@[simp] theorem State.addPacket_update (s : State) (p : Packet) : (s.addPacket p).update = s.update := rfl
@[simp] theorem State.addPacket_fenceSites (s : State) (p : Packet) : (s.addPacket p).fenceSites = s.fenceSites := rfl
@[simp] theorem State.addPacket_retireCores (s : State) (p : Packet) : (s.addPacket p).retireCores = s.retireCores := rfl
@[simp] theorem State.addPacket_queueRecs (s : State) (p : Packet) : (s.addPacket p).queueRecs = s.queueRecs := rfl
@[simp] theorem State.addPacket_rr (s : State) (p : Packet) : (s.addPacket p).rr = s.rr := rfl
@[simp] theorem State.addPacket_lastGid (s : State) (p : Packet) : (s.addPacket p).lastGid = s.lastGid := rfl
@[simp] theorem State.addPacket_gridctl (s : State) (p : Packet) : (s.addPacket p).gridctl = s.gridctl := rfl
@[simp] theorem State.addPacket_gauges (s : State) (p : Packet) : (s.addPacket p).gauges = s.gauges := rfl
@[simp] theorem State.addPacket_parts (s : State) (p : Packet) : (s.addPacket p).parts = s.parts := rfl
@[simp] theorem State.addPacket_samples (s : State) (p : Packet) : (s.addPacket p).samples = s.samples := rfl
@[simp] theorem State.addPacket_interrupts (s : State) (p : Packet) : (s.addPacket p).interrupts = s.interrupts := rfl
@[simp] theorem State.addPacket_cdItime (s : State) (p : Packet) : (s.addPacket p).cdItime = s.cdItime := rfl
@[simp] theorem State.addPacket_images (s : State) (p : Packet) : (s.addPacket p).images = s.images := rfl
@[simp] theorem State.addPacket_boot (s : State) (p : Packet) : (s.addPacket p).boot = s.boot := rfl
@[simp] theorem State.addPacket_now (s : State) (p : Packet) : (s.addPacket p).now = s.now := rfl
@[simp] theorem State.addPacket_rtsFloor (s : State) (p : Packet) : (s.addPacket p).rtsFloor = s.rtsFloor := rfl
@[simp] theorem State.addPacket_gidReserve (s : State) (p : Packet) : (s.addPacket p).gidReserve = s.gidReserve := rfl
@[simp] theorem State.addPacket_panelRecords (s : State) (p : Packet) : (s.addPacket p).panelRecords = s.panelRecords := rfl
@[simp] theorem State.addPacket_rootLost (s : State) (p : Packet) : (s.addPacket p).rootLost = s.rootLost := rfl
@[simp] theorem State.addPacket_returned (s : State) (p : Packet) : (s.addPacket p).returned = s.returned := rfl
@[simp] theorem State.addPacket_widths (s : State) (p : Packet) : (s.addPacket p).widths = s.widths := rfl

/-! ### dropPacket -/

@[simp] theorem State.dropPacket_clk (s : State) (id : Nat) : (s.dropPacket id).clk = s.clk := rfl
@[simp] theorem State.dropPacket_fresh (s : State) (id : Nat) : (s.dropPacket id).fresh = s.fresh := rfl
@[simp] theorem State.dropPacket_draw (s : State) (id : Nat) : (s.dropPacket id).draw = s.draw := rfl
@[simp] theorem State.dropPacket_issue (s : State) (id : Nat) : (s.dropPacket id).issue = s.issue := rfl
@[simp] theorem State.dropPacket_held (s : State) (id : Nat) : (s.dropPacket id).held = s.held := rfl
@[simp] theorem State.dropPacket_issued (s : State) (id : Nat) : (s.dropPacket id).issued = s.issued := rfl
@[simp] theorem State.dropPacket_inputs (s : State) (id : Nat) : (s.dropPacket id).inputs = s.inputs := rfl
@[simp] theorem State.dropPacket_mem (s : State) (id : Nat) : (s.dropPacket id).mem = s.mem := rfl
@[simp] theorem State.dropPacket_regs (s : State) (id : Nat) : (s.dropPacket id).regs = s.regs := rfl
@[simp] theorem State.dropPacket_islands (s : State) (id : Nat) : (s.dropPacket id).islands = s.islands := rfl
@[simp] theorem State.dropPacket_cores (s : State) (id : Nat) : (s.dropPacket id).cores = s.cores := rfl
@[simp] theorem State.dropPacket_warps (s : State) (id : Nat) : (s.dropPacket id).warps = s.warps := rfl
@[simp] theorem State.dropPacket_blocks (s : State) (id : Nat) : (s.dropPacket id).blocks = s.blocks := rfl
@[simp] theorem State.dropPacket_grids (s : State) (id : Nat) : (s.dropPacket id).grids = s.grids := rfl
@[simp] theorem State.dropPacket_pend (s : State) (id : Nat) : (s.dropPacket id).pend = s.pend := rfl
@[simp] theorem State.dropPacket_waits (s : State) (id : Nat) : (s.dropPacket id).waits = s.waits := rfl
@[simp] theorem State.dropPacket_msgs (s : State) (id : Nat) : (s.dropPacket id).msgs = s.msgs := rfl
@[simp] theorem State.dropPacket_spans (s : State) (id : Nat) : (s.dropPacket id).spans = s.spans := rfl
@[simp] theorem State.dropPacket_dir (s : State) (id : Nat) : (s.dropPacket id).dir = s.dir := rfl
@[simp] theorem State.dropPacket_once (s : State) (id : Nat) : (s.dropPacket id).once = s.once := rfl
@[simp] theorem State.dropPacket_tlb (s : State) (id : Nat) : (s.dropPacket id).tlb = s.tlb := rfl
@[simp] theorem State.dropPacket_dual (s : State) (id : Nat) : (s.dropPacket id).dual = s.dual := rfl
@[simp] theorem State.dropPacket_stalls (s : State) (id : Nat) : (s.dropPacket id).stalls = s.stalls := rfl
@[simp] theorem State.dropPacket_mapJobs (s : State) (id : Nat) : (s.dropPacket id).mapJobs = s.mapJobs := rfl
@[simp] theorem State.dropPacket_maps (s : State) (id : Nat) : (s.dropPacket id).maps = s.maps := rfl
@[simp] theorem State.dropPacket_mapkNotes (s : State) (id : Nat) : (s.dropPacket id).mapkNotes = s.mapkNotes := rfl
@[simp] theorem State.dropPacket_frames (s : State) (id : Nat) : (s.dropPacket id).frames = s.frames := rfl
@[simp] theorem State.dropPacket_asids (s : State) (id : Nat) : (s.dropPacket id).asids = s.asids := rfl
@[simp] theorem State.dropPacket_asidGen (s : State) (id : Nat) : (s.dropPacket id).asidGen = s.asidGen := rfl
@[simp] theorem State.dropPacket_ranks (s : State) (id : Nat) : (s.dropPacket id).ranks = s.ranks := rfl
@[simp] theorem State.dropPacket_nranks (s : State) (id : Nat) : (s.dropPacket id).nranks = s.nranks := rfl
@[simp] theorem State.dropPacket_rankCache (s : State) (id : Nat) : (s.dropPacket id).rankCache = s.rankCache := rfl
@[simp] theorem State.dropPacket_windows (s : State) (id : Nat) : (s.dropPacket id).windows = s.windows := rfl
@[simp] theorem State.dropPacket_ports (s : State) (id : Nat) : (s.dropPacket id).ports = s.ports := rfl
@[simp] theorem State.dropPacket_topo (s : State) (id : Nat) : (s.dropPacket id).topo = s.topo := rfl
@[simp] theorem State.dropPacket_update (s : State) (id : Nat) : (s.dropPacket id).update = s.update := rfl
@[simp] theorem State.dropPacket_fenceSites (s : State) (id : Nat) : (s.dropPacket id).fenceSites = s.fenceSites := rfl
@[simp] theorem State.dropPacket_retireCores (s : State) (id : Nat) : (s.dropPacket id).retireCores = s.retireCores := rfl
@[simp] theorem State.dropPacket_queueRecs (s : State) (id : Nat) : (s.dropPacket id).queueRecs = s.queueRecs := rfl
@[simp] theorem State.dropPacket_rr (s : State) (id : Nat) : (s.dropPacket id).rr = s.rr := rfl
@[simp] theorem State.dropPacket_lastGid (s : State) (id : Nat) : (s.dropPacket id).lastGid = s.lastGid := rfl
@[simp] theorem State.dropPacket_gridctl (s : State) (id : Nat) : (s.dropPacket id).gridctl = s.gridctl := rfl
@[simp] theorem State.dropPacket_gauges (s : State) (id : Nat) : (s.dropPacket id).gauges = s.gauges := rfl
@[simp] theorem State.dropPacket_parts (s : State) (id : Nat) : (s.dropPacket id).parts = s.parts := rfl
@[simp] theorem State.dropPacket_samples (s : State) (id : Nat) : (s.dropPacket id).samples = s.samples := rfl
@[simp] theorem State.dropPacket_interrupts (s : State) (id : Nat) : (s.dropPacket id).interrupts = s.interrupts := rfl
@[simp] theorem State.dropPacket_cdItime (s : State) (id : Nat) : (s.dropPacket id).cdItime = s.cdItime := rfl
@[simp] theorem State.dropPacket_images (s : State) (id : Nat) : (s.dropPacket id).images = s.images := rfl
@[simp] theorem State.dropPacket_boot (s : State) (id : Nat) : (s.dropPacket id).boot = s.boot := rfl
@[simp] theorem State.dropPacket_now (s : State) (id : Nat) : (s.dropPacket id).now = s.now := rfl
@[simp] theorem State.dropPacket_rtsFloor (s : State) (id : Nat) : (s.dropPacket id).rtsFloor = s.rtsFloor := rfl
@[simp] theorem State.dropPacket_gidReserve (s : State) (id : Nat) : (s.dropPacket id).gidReserve = s.gidReserve := rfl
@[simp] theorem State.dropPacket_panelRecords (s : State) (id : Nat) : (s.dropPacket id).panelRecords = s.panelRecords := rfl
@[simp] theorem State.dropPacket_rootLost (s : State) (id : Nat) : (s.dropPacket id).rootLost = s.rootLost := rfl
@[simp] theorem State.dropPacket_returned (s : State) (id : Nat) : (s.dropPacket id).returned = s.returned := rfl
@[simp] theorem State.dropPacket_widths (s : State) (id : Nat) : (s.dropPacket id).widths = s.widths := rfl

/-! ### setPacket -/

@[simp] theorem State.setPacket_clk (s : State) (p : Packet) : (s.setPacket p).clk = s.clk := rfl
@[simp] theorem State.setPacket_fresh (s : State) (p : Packet) : (s.setPacket p).fresh = s.fresh := rfl
@[simp] theorem State.setPacket_draw (s : State) (p : Packet) : (s.setPacket p).draw = s.draw := rfl
@[simp] theorem State.setPacket_issue (s : State) (p : Packet) : (s.setPacket p).issue = s.issue := rfl
@[simp] theorem State.setPacket_held (s : State) (p : Packet) : (s.setPacket p).held = s.held := rfl
@[simp] theorem State.setPacket_issued (s : State) (p : Packet) : (s.setPacket p).issued = s.issued := rfl
@[simp] theorem State.setPacket_inputs (s : State) (p : Packet) : (s.setPacket p).inputs = s.inputs := rfl
@[simp] theorem State.setPacket_mem (s : State) (p : Packet) : (s.setPacket p).mem = s.mem := rfl
@[simp] theorem State.setPacket_regs (s : State) (p : Packet) : (s.setPacket p).regs = s.regs := rfl
@[simp] theorem State.setPacket_islands (s : State) (p : Packet) : (s.setPacket p).islands = s.islands := rfl
@[simp] theorem State.setPacket_cores (s : State) (p : Packet) : (s.setPacket p).cores = s.cores := rfl
@[simp] theorem State.setPacket_warps (s : State) (p : Packet) : (s.setPacket p).warps = s.warps := rfl
@[simp] theorem State.setPacket_blocks (s : State) (p : Packet) : (s.setPacket p).blocks = s.blocks := rfl
@[simp] theorem State.setPacket_grids (s : State) (p : Packet) : (s.setPacket p).grids = s.grids := rfl
@[simp] theorem State.setPacket_pend (s : State) (p : Packet) : (s.setPacket p).pend = s.pend := rfl
@[simp] theorem State.setPacket_waits (s : State) (p : Packet) : (s.setPacket p).waits = s.waits := rfl
@[simp] theorem State.setPacket_msgs (s : State) (p : Packet) : (s.setPacket p).msgs = s.msgs := rfl
@[simp] theorem State.setPacket_spans (s : State) (p : Packet) : (s.setPacket p).spans = s.spans := rfl
@[simp] theorem State.setPacket_dir (s : State) (p : Packet) : (s.setPacket p).dir = s.dir := rfl
@[simp] theorem State.setPacket_once (s : State) (p : Packet) : (s.setPacket p).once = s.once := rfl
@[simp] theorem State.setPacket_tlb (s : State) (p : Packet) : (s.setPacket p).tlb = s.tlb := rfl
@[simp] theorem State.setPacket_dual (s : State) (p : Packet) : (s.setPacket p).dual = s.dual := rfl
@[simp] theorem State.setPacket_stalls (s : State) (p : Packet) : (s.setPacket p).stalls = s.stalls := rfl
@[simp] theorem State.setPacket_mapJobs (s : State) (p : Packet) : (s.setPacket p).mapJobs = s.mapJobs := rfl
@[simp] theorem State.setPacket_maps (s : State) (p : Packet) : (s.setPacket p).maps = s.maps := rfl
@[simp] theorem State.setPacket_mapkNotes (s : State) (p : Packet) : (s.setPacket p).mapkNotes = s.mapkNotes := rfl
@[simp] theorem State.setPacket_frames (s : State) (p : Packet) : (s.setPacket p).frames = s.frames := rfl
@[simp] theorem State.setPacket_asids (s : State) (p : Packet) : (s.setPacket p).asids = s.asids := rfl
@[simp] theorem State.setPacket_asidGen (s : State) (p : Packet) : (s.setPacket p).asidGen = s.asidGen := rfl
@[simp] theorem State.setPacket_ranks (s : State) (p : Packet) : (s.setPacket p).ranks = s.ranks := rfl
@[simp] theorem State.setPacket_nranks (s : State) (p : Packet) : (s.setPacket p).nranks = s.nranks := rfl
@[simp] theorem State.setPacket_rankCache (s : State) (p : Packet) : (s.setPacket p).rankCache = s.rankCache := rfl
@[simp] theorem State.setPacket_windows (s : State) (p : Packet) : (s.setPacket p).windows = s.windows := rfl
@[simp] theorem State.setPacket_ports (s : State) (p : Packet) : (s.setPacket p).ports = s.ports := rfl
@[simp] theorem State.setPacket_topo (s : State) (p : Packet) : (s.setPacket p).topo = s.topo := rfl
@[simp] theorem State.setPacket_update (s : State) (p : Packet) : (s.setPacket p).update = s.update := rfl
@[simp] theorem State.setPacket_fenceSites (s : State) (p : Packet) : (s.setPacket p).fenceSites = s.fenceSites := rfl
@[simp] theorem State.setPacket_retireCores (s : State) (p : Packet) : (s.setPacket p).retireCores = s.retireCores := rfl
@[simp] theorem State.setPacket_queueRecs (s : State) (p : Packet) : (s.setPacket p).queueRecs = s.queueRecs := rfl
@[simp] theorem State.setPacket_rr (s : State) (p : Packet) : (s.setPacket p).rr = s.rr := rfl
@[simp] theorem State.setPacket_lastGid (s : State) (p : Packet) : (s.setPacket p).lastGid = s.lastGid := rfl
@[simp] theorem State.setPacket_gridctl (s : State) (p : Packet) : (s.setPacket p).gridctl = s.gridctl := rfl
@[simp] theorem State.setPacket_gauges (s : State) (p : Packet) : (s.setPacket p).gauges = s.gauges := rfl
@[simp] theorem State.setPacket_parts (s : State) (p : Packet) : (s.setPacket p).parts = s.parts := rfl
@[simp] theorem State.setPacket_samples (s : State) (p : Packet) : (s.setPacket p).samples = s.samples := rfl
@[simp] theorem State.setPacket_interrupts (s : State) (p : Packet) : (s.setPacket p).interrupts = s.interrupts := rfl
@[simp] theorem State.setPacket_cdItime (s : State) (p : Packet) : (s.setPacket p).cdItime = s.cdItime := rfl
@[simp] theorem State.setPacket_images (s : State) (p : Packet) : (s.setPacket p).images = s.images := rfl
@[simp] theorem State.setPacket_boot (s : State) (p : Packet) : (s.setPacket p).boot = s.boot := rfl
@[simp] theorem State.setPacket_now (s : State) (p : Packet) : (s.setPacket p).now = s.now := rfl
@[simp] theorem State.setPacket_rtsFloor (s : State) (p : Packet) : (s.setPacket p).rtsFloor = s.rtsFloor := rfl
@[simp] theorem State.setPacket_gidReserve (s : State) (p : Packet) : (s.setPacket p).gidReserve = s.gidReserve := rfl
@[simp] theorem State.setPacket_panelRecords (s : State) (p : Packet) : (s.setPacket p).panelRecords = s.panelRecords := rfl
@[simp] theorem State.setPacket_rootLost (s : State) (p : Packet) : (s.setPacket p).rootLost = s.rootLost := rfl
@[simp] theorem State.setPacket_returned (s : State) (p : Packet) : (s.setPacket p).returned = s.returned := rfl
@[simp] theorem State.setPacket_widths (s : State) (p : Packet) : (s.setPacket p).widths = s.widths := rfl

/-! ### endIssue -/

@[simp] theorem State.endIssue_clk (s : State) : (s.endIssue).clk = s.clk := rfl
@[simp] theorem State.endIssue_fresh (s : State) : (s.endIssue).fresh = s.fresh := rfl
@[simp] theorem State.endIssue_draw (s : State) : (s.endIssue).draw = s.draw := rfl
@[simp] theorem State.endIssue_held (s : State) : (s.endIssue).held = s.held := rfl
@[simp] theorem State.endIssue_issued (s : State) : (s.endIssue).issued = s.issued := rfl
@[simp] theorem State.endIssue_inputs (s : State) : (s.endIssue).inputs = s.inputs := rfl
@[simp] theorem State.endIssue_mem (s : State) : (s.endIssue).mem = s.mem := rfl
@[simp] theorem State.endIssue_regs (s : State) : (s.endIssue).regs = s.regs := rfl
@[simp] theorem State.endIssue_islands (s : State) : (s.endIssue).islands = s.islands := rfl
@[simp] theorem State.endIssue_cores (s : State) : (s.endIssue).cores = s.cores := rfl
@[simp] theorem State.endIssue_warps (s : State) : (s.endIssue).warps = s.warps := rfl
@[simp] theorem State.endIssue_blocks (s : State) : (s.endIssue).blocks = s.blocks := rfl
@[simp] theorem State.endIssue_grids (s : State) : (s.endIssue).grids = s.grids := rfl
@[simp] theorem State.endIssue_pend (s : State) : (s.endIssue).pend = s.pend := rfl
@[simp] theorem State.endIssue_waits (s : State) : (s.endIssue).waits = s.waits := rfl
@[simp] theorem State.endIssue_msgs (s : State) : (s.endIssue).msgs = s.msgs := rfl
@[simp] theorem State.endIssue_spans (s : State) : (s.endIssue).spans = s.spans := rfl
@[simp] theorem State.endIssue_dir (s : State) : (s.endIssue).dir = s.dir := rfl
@[simp] theorem State.endIssue_once (s : State) : (s.endIssue).once = s.once := rfl
@[simp] theorem State.endIssue_tlb (s : State) : (s.endIssue).tlb = s.tlb := rfl
@[simp] theorem State.endIssue_dual (s : State) : (s.endIssue).dual = s.dual := rfl
@[simp] theorem State.endIssue_stalls (s : State) : (s.endIssue).stalls = s.stalls := rfl
@[simp] theorem State.endIssue_mapJobs (s : State) : (s.endIssue).mapJobs = s.mapJobs := rfl
@[simp] theorem State.endIssue_maps (s : State) : (s.endIssue).maps = s.maps := rfl
@[simp] theorem State.endIssue_mapkNotes (s : State) : (s.endIssue).mapkNotes = s.mapkNotes := rfl
@[simp] theorem State.endIssue_frames (s : State) : (s.endIssue).frames = s.frames := rfl
@[simp] theorem State.endIssue_asids (s : State) : (s.endIssue).asids = s.asids := rfl
@[simp] theorem State.endIssue_asidGen (s : State) : (s.endIssue).asidGen = s.asidGen := rfl
@[simp] theorem State.endIssue_ranks (s : State) : (s.endIssue).ranks = s.ranks := rfl
@[simp] theorem State.endIssue_nranks (s : State) : (s.endIssue).nranks = s.nranks := rfl
@[simp] theorem State.endIssue_rankCache (s : State) : (s.endIssue).rankCache = s.rankCache := rfl
@[simp] theorem State.endIssue_windows (s : State) : (s.endIssue).windows = s.windows := rfl
@[simp] theorem State.endIssue_packets (s : State) : (s.endIssue).packets = s.packets := rfl
@[simp] theorem State.endIssue_ports (s : State) : (s.endIssue).ports = s.ports := rfl
@[simp] theorem State.endIssue_topo (s : State) : (s.endIssue).topo = s.topo := rfl
@[simp] theorem State.endIssue_update (s : State) : (s.endIssue).update = s.update := rfl
@[simp] theorem State.endIssue_fenceSites (s : State) : (s.endIssue).fenceSites = s.fenceSites := rfl
@[simp] theorem State.endIssue_retireCores (s : State) : (s.endIssue).retireCores = s.retireCores := rfl
@[simp] theorem State.endIssue_queueRecs (s : State) : (s.endIssue).queueRecs = s.queueRecs := rfl
@[simp] theorem State.endIssue_rr (s : State) : (s.endIssue).rr = s.rr := rfl
@[simp] theorem State.endIssue_lastGid (s : State) : (s.endIssue).lastGid = s.lastGid := rfl
@[simp] theorem State.endIssue_gridctl (s : State) : (s.endIssue).gridctl = s.gridctl := rfl
@[simp] theorem State.endIssue_gauges (s : State) : (s.endIssue).gauges = s.gauges := rfl
@[simp] theorem State.endIssue_parts (s : State) : (s.endIssue).parts = s.parts := rfl
@[simp] theorem State.endIssue_samples (s : State) : (s.endIssue).samples = s.samples := rfl
@[simp] theorem State.endIssue_interrupts (s : State) : (s.endIssue).interrupts = s.interrupts := rfl
@[simp] theorem State.endIssue_cdItime (s : State) : (s.endIssue).cdItime = s.cdItime := rfl
@[simp] theorem State.endIssue_images (s : State) : (s.endIssue).images = s.images := rfl
@[simp] theorem State.endIssue_boot (s : State) : (s.endIssue).boot = s.boot := rfl
@[simp] theorem State.endIssue_now (s : State) : (s.endIssue).now = s.now := rfl
@[simp] theorem State.endIssue_rtsFloor (s : State) : (s.endIssue).rtsFloor = s.rtsFloor := rfl
@[simp] theorem State.endIssue_gidReserve (s : State) : (s.endIssue).gidReserve = s.gidReserve := rfl
@[simp] theorem State.endIssue_panelRecords (s : State) : (s.endIssue).panelRecords = s.panelRecords := rfl
@[simp] theorem State.endIssue_rootLost (s : State) : (s.endIssue).rootLost = s.rootLost := rfl
@[simp] theorem State.endIssue_returned (s : State) : (s.endIssue).returned = s.returned := rfl
@[simp] theorem State.endIssue_widths (s : State) : (s.endIssue).widths = s.widths := rfl

/-! ### Updates of a warp -/

@[simp] theorem Warp.setThread_block (w : Warp) (l : Nat) (t : Thread) : (w.setThread l t).block = w.block := rfl
@[simp] theorem Warp.setThread_warpNo (w : Warp) (l : Nat) (t : Thread) : (w.setThread l t).warpNo = w.warpNo := rfl
@[simp] theorem Warp.setThread_pipe (w : Warp) (l : Nat) (t : Thread) : (w.setThread l t).pipe = w.pipe := rfl
@[simp] theorem Warp.setThread_v (w : Warp) (l : Nat) (t : Thread) : (w.setThread l t).v = w.v := rfl
@[simp] theorem Warp.setThread_s (w : Warp) (l : Nat) (t : Thread) : (w.setThread l t).s = w.s := rfl
@[simp] theorem Warp.setThread_sEmpty (w : Warp) (l : Nat) (t : Thread) : (w.setThread l t).sEmpty = w.sEmpty := rfl
@[simp] theorem Warp.setThread_q (w : Warp) (l : Nat) (t : Thread) : (w.setThread l t).q = w.q := rfl
@[simp] theorem Warp.setThread_g (w : Warp) (l : Nat) (t : Thread) : (w.setThread l t).g = w.g := rfl
@[simp] theorem Warp.setThread_gArm (w : Warp) (l : Nat) (t : Thread) : (w.setThread l t).gArm = w.gArm := rfl
@[simp] theorem Warp.setThread_b (w : Warp) (l : Nat) (t : Thread) : (w.setThread l t).b = w.b := rfl
@[simp] theorem Warp.setThread_mode (w : Warp) (l : Nat) (t : Thread) : (w.setThread l t).mode = w.mode := rfl
@[simp] theorem Warp.setThread_tilew (w : Warp) (l : Nat) (t : Thread) : (w.setThread l t).tilew = w.tilew := rfl
@[simp] theorem Warp.setThread_srseed (w : Warp) (l : Nat) (t : Thread) : (w.setThread l t).srseed = w.srseed := rfl
@[simp] theorem Warp.setThread_gen (w : Warp) (l : Nat) (t : Thread) : (w.setThread l t).gen = w.gen := rfl
@[simp] theorem Warp.setThread_mark (w : Warp) (l : Nat) (t : Thread) : (w.setThread l t).mark = w.mark := rfl
@[simp] theorem Warp.setThread_wfault (w : Warp) (l : Nat) (t : Thread) : (w.setThread l t).wfault = w.wfault := rfl
@[simp] theorem Warp.setThread_wfaultPc (w : Warp) (l : Nat) (t : Thread) : (w.setThread l t).wfaultPc = w.wfaultPc := rfl
@[simp] theorem Warp.setThread_wfaultOvl (w : Warp) (l : Nat) (t : Thread) : (w.setThread l t).wfaultOvl = w.wfaultOvl := rfl
@[simp] theorem Warp.setThread_acc (w : Warp) (l : Nat) (t : Thread) : (w.setThread l t).acc = w.acc := rfl
@[simp] theorem Warp.setThread_gran (w : Warp) (l : Nat) (t : Thread) : (w.setThread l t).gran = w.gran := rfl
@[simp] theorem Warp.setThread_spinPc (w : Warp) (l : Nat) (t : Thread) : (w.setThread l t).spinPc = w.spinPc := rfl
@[simp] theorem Warp.setThread_spinCount (w : Warp) (l : Nat) (t : Thread) : (w.setThread l t).spinCount = w.spinCount := rfl
@[simp] theorem Warp.setThread_watch (w : Warp) (l : Nat) (t : Thread) : (w.setThread l t).watch = w.watch := rfl
@[simp] theorem Warp.setThread_floor (w : Warp) (l : Nat) (t : Thread) : (w.setThread l t).floor = w.floor := rfl
@[simp] theorem Warp.setThread_floorAt (w : Warp) (l : Nat) (t : Thread) : (w.setThread l t).floorAt = w.floorAt := rfl
@[simp] theorem Warp.setThread_passed (w : Warp) (l : Nat) (t : Thread) : (w.setThread l t).passed = w.passed := rfl
@[simp] theorem Warp.setThread_waited (w : Warp) (l : Nat) (t : Thread) : (w.setThread l t).waited = w.waited := rfl
@[simp] theorem Warp.setThread_owed (w : Warp) (l : Nat) (t : Thread) : (w.setThread l t).owed = w.owed := rfl
@[simp] theorem Warp.setThread_stopped (w : Warp) (l : Nat) (t : Thread) : (w.setThread l t).stopped = w.stopped := rfl
@[simp] theorem Warp.setThread_stopReplay (w : Warp) (l : Nat) (t : Thread) : (w.setThread l t).stopReplay = w.stopReplay := rfl
@[simp] theorem Warp.setThread_stopTrap (w : Warp) (l : Nat) (t : Thread) : (w.setThread l t).stopTrap = w.stopTrap := rfl
@[simp] theorem Warp.setThread_log (w : Warp) (l : Nat) (t : Thread) : (w.setThread l t).log = w.log := rfl
@[simp] theorem Warp.setThread_mq (w : Warp) (l : Nat) (t : Thread) : (w.setThread l t).mq = w.mq := rfl
@[simp] theorem Warp.setThread_xq (w : Warp) (l : Nat) (t : Thread) : (w.setThread l t).xq = w.xq := rfl
@[simp] theorem Warp.setThread_fq (w : Warp) (l : Nat) (t : Thread) : (w.setThread l t).fq = w.fq := rfl
@[simp] theorem Warp.setThread_red (w : Warp) (l : Nat) (t : Thread) : (w.setThread l t).red = w.red := rfl
@[simp] theorem Warp.setThread_redSeq (w : Warp) (l : Nat) (t : Thread) : (w.setThread l t).redSeq = w.redSeq := rfl
@[simp] theorem Warp.setThread_retired (w : Warp) (l : Nat) (t : Thread) : (w.setThread l t).retired = w.retired := rfl
@[simp] theorem Warp.setVreg_block (w : Warp) (l r : Nat) (x : VReg) : (w.setVreg l r x).block = w.block := rfl
@[simp] theorem Warp.setVreg_warpNo (w : Warp) (l r : Nat) (x : VReg) : (w.setVreg l r x).warpNo = w.warpNo := rfl
@[simp] theorem Warp.setVreg_pipe (w : Warp) (l r : Nat) (x : VReg) : (w.setVreg l r x).pipe = w.pipe := rfl
@[simp] theorem Warp.setVreg_threads (w : Warp) (l r : Nat) (x : VReg) : (w.setVreg l r x).threads = w.threads := rfl
@[simp] theorem Warp.setVreg_s (w : Warp) (l r : Nat) (x : VReg) : (w.setVreg l r x).s = w.s := rfl
@[simp] theorem Warp.setVreg_sEmpty (w : Warp) (l r : Nat) (x : VReg) : (w.setVreg l r x).sEmpty = w.sEmpty := rfl
@[simp] theorem Warp.setVreg_q (w : Warp) (l r : Nat) (x : VReg) : (w.setVreg l r x).q = w.q := rfl
@[simp] theorem Warp.setVreg_g (w : Warp) (l r : Nat) (x : VReg) : (w.setVreg l r x).g = w.g := rfl
@[simp] theorem Warp.setVreg_gArm (w : Warp) (l r : Nat) (x : VReg) : (w.setVreg l r x).gArm = w.gArm := rfl
@[simp] theorem Warp.setVreg_b (w : Warp) (l r : Nat) (x : VReg) : (w.setVreg l r x).b = w.b := rfl
@[simp] theorem Warp.setVreg_mode (w : Warp) (l r : Nat) (x : VReg) : (w.setVreg l r x).mode = w.mode := rfl
@[simp] theorem Warp.setVreg_tilew (w : Warp) (l r : Nat) (x : VReg) : (w.setVreg l r x).tilew = w.tilew := rfl
@[simp] theorem Warp.setVreg_srseed (w : Warp) (l r : Nat) (x : VReg) : (w.setVreg l r x).srseed = w.srseed := rfl
@[simp] theorem Warp.setVreg_gen (w : Warp) (l r : Nat) (x : VReg) : (w.setVreg l r x).gen = w.gen := rfl
@[simp] theorem Warp.setVreg_mark (w : Warp) (l r : Nat) (x : VReg) : (w.setVreg l r x).mark = w.mark := rfl
@[simp] theorem Warp.setVreg_wfault (w : Warp) (l r : Nat) (x : VReg) : (w.setVreg l r x).wfault = w.wfault := rfl
@[simp] theorem Warp.setVreg_wfaultPc (w : Warp) (l r : Nat) (x : VReg) : (w.setVreg l r x).wfaultPc = w.wfaultPc := rfl
@[simp] theorem Warp.setVreg_wfaultOvl (w : Warp) (l r : Nat) (x : VReg) : (w.setVreg l r x).wfaultOvl = w.wfaultOvl := rfl
@[simp] theorem Warp.setVreg_acc (w : Warp) (l r : Nat) (x : VReg) : (w.setVreg l r x).acc = w.acc := rfl
@[simp] theorem Warp.setVreg_gran (w : Warp) (l r : Nat) (x : VReg) : (w.setVreg l r x).gran = w.gran := rfl
@[simp] theorem Warp.setVreg_spinPc (w : Warp) (l r : Nat) (x : VReg) : (w.setVreg l r x).spinPc = w.spinPc := rfl
@[simp] theorem Warp.setVreg_spinCount (w : Warp) (l r : Nat) (x : VReg) : (w.setVreg l r x).spinCount = w.spinCount := rfl
@[simp] theorem Warp.setVreg_watch (w : Warp) (l r : Nat) (x : VReg) : (w.setVreg l r x).watch = w.watch := rfl
@[simp] theorem Warp.setVreg_floor (w : Warp) (l r : Nat) (x : VReg) : (w.setVreg l r x).floor = w.floor := rfl
@[simp] theorem Warp.setVreg_floorAt (w : Warp) (l r : Nat) (x : VReg) : (w.setVreg l r x).floorAt = w.floorAt := rfl
@[simp] theorem Warp.setVreg_passed (w : Warp) (l r : Nat) (x : VReg) : (w.setVreg l r x).passed = w.passed := rfl
@[simp] theorem Warp.setVreg_waited (w : Warp) (l r : Nat) (x : VReg) : (w.setVreg l r x).waited = w.waited := rfl
@[simp] theorem Warp.setVreg_owed (w : Warp) (l r : Nat) (x : VReg) : (w.setVreg l r x).owed = w.owed := rfl
@[simp] theorem Warp.setVreg_stopped (w : Warp) (l r : Nat) (x : VReg) : (w.setVreg l r x).stopped = w.stopped := rfl
@[simp] theorem Warp.setVreg_stopReplay (w : Warp) (l r : Nat) (x : VReg) : (w.setVreg l r x).stopReplay = w.stopReplay := rfl
@[simp] theorem Warp.setVreg_stopTrap (w : Warp) (l r : Nat) (x : VReg) : (w.setVreg l r x).stopTrap = w.stopTrap := rfl
@[simp] theorem Warp.setVreg_log (w : Warp) (l r : Nat) (x : VReg) : (w.setVreg l r x).log = w.log := rfl
@[simp] theorem Warp.setVreg_mq (w : Warp) (l r : Nat) (x : VReg) : (w.setVreg l r x).mq = w.mq := rfl
@[simp] theorem Warp.setVreg_xq (w : Warp) (l r : Nat) (x : VReg) : (w.setVreg l r x).xq = w.xq := rfl
@[simp] theorem Warp.setVreg_fq (w : Warp) (l r : Nat) (x : VReg) : (w.setVreg l r x).fq = w.fq := rfl
@[simp] theorem Warp.setVreg_red (w : Warp) (l r : Nat) (x : VReg) : (w.setVreg l r x).red = w.red := rfl
@[simp] theorem Warp.setVreg_redSeq (w : Warp) (l r : Nat) (x : VReg) : (w.setVreg l r x).redSeq = w.redSeq := rfl
@[simp] theorem Warp.setVreg_retired (w : Warp) (l r : Nat) (x : VReg) : (w.setVreg l r x).retired = w.retired := rfl

/-! ### What an update's own accessor reads -/

theorem State.isl_setIsl (s : State) (n k : Nat) (x : Island) : (s.setIsl n x).isl k = if n = k then x else s.isl k :=
  NMap.getD_set s.islands n k x _

theorem State.block_setBlock (s : State) (b k : Nat) (x : Block) : (s.setBlock b x).block k = if b = k then x else s.block k :=
  NMap.getD_set s.blocks b k x _

theorem State.grid_setGrid (s : State) (g k : Nat) (x : Grid) : (s.setGrid g x).grid k = if g = k then x else s.grid k :=
  NMap.getD_set s.grids g k x _

theorem State.gauge_setGauge (s : State) (g k : Nat) (x : Gauge) : (s.setGauge g x).gauge k = if g = k then x else s.gauge k :=
  NMap.getD_set s.gauges g k x _

theorem State.core_setCore (s : State) (a b c d : Nat) (x : Core) :
    (s.setCore a b x).core c d = if coreIx a b = coreIx c d then x else s.core c d :=
  NMap.getD_set s.cores _ _ x _

/-- Keys of two registers of indices below 2^40 agree only for one register and one index. -/
theorem regKey_eq {r r' : RegName} {i k : Nat} (hi : i < 2 ^ 40) (hk : k < 2 ^ 40) (h : regKey r i = regKey r' k) : regCode r = regCode r' ∧ i = k := by
  unfold regKey at h; omega

theorem regCode_inj {r r' : RegName} (h : regCode r = regCode r') : r = r' := by
  cases r <;> cases r' <;> first | rfl | (exact absurd h (by decide))

/-- A register reads as written; every other one as before. -/
theorem State.reg_setReg (s : State) (r r' : RegName) (i k v : Nat) (hi : i < 2 ^ 40) (hk : k < 2 ^ 40) :
    (s.setReg r i v).reg r' k = if r = r' ∧ i = k then v else s.reg r' k := by
  unfold State.reg State.setReg
  rw [NMap.getD_set]
  by_cases h : regKey r i = regKey r' k
  · obtain ⟨hr, hik⟩ := regKey_eq hi hk h
    simp [regCode_inj hr, hik]
  · have : ¬ (r = r' ∧ i = k) := fun ⟨a, b⟩ => h (by rw [a, b])
    simp [h, this]

end Sys2Proof.Machine
end

