-- ==== Sys2Proof/Laws/Gauge.lean ====
section
/-!
SUPPORT. The charge of a gauge instruction and the one form of every gauge instruction's step.
-/
namespace Sys2Proof.Machine

/-- The charge changes registers only (R239). -/
theorem chargeGauge_regs (s : State) (g part : Nat) : { s.chargeGauge g part with regs := s.regs } = s := by
  unfold State.chargeGauge
  generalize s.charged part = l
  suffices h : ∀ (l : List Nat) (x : State), { x with regs := s.regs } = s →
      { (l.foldl (fun (s : State) p =>
        let ix := gaugeIx g p
        s.setReg .tgpBud ix (setBits (s.reg .tgpBud ix) 47 24 (bits (s.reg .tgpBud ix) 47 24 - 1))) x) with regs := s.regs } = s from h l s rfl
  intro l
  induction l with
  | nil => exact fun x h => h
  | cons p l ih => exact fun x h => ih _ (by simpa [State.setReg] using h)

@[simp] theorem chargeGauge_mem (s : State) (g part : Nat) : (s.chargeGauge g part).mem = s.mem := by
  have h := chargeGauge_regs s g part
  exact (congrArg State.mem h : _)

@[simp] theorem chargeGauge_gauges (s : State) (g part : Nat) : (s.chargeGauge g part).gauges = s.gauges := by
  have h := chargeGauge_regs s g part
  exact (congrArg State.gauges h : _)

/-- A gauge instruction with a run in progress: charged, performed, and its run put back (R231, R239). -/
theorem gaugeInstr_next {s : State} {g : Nat} {r : GaugeRun} (h : s.activeGauge = some (g, r)) (f : State → Nat → GaugeRun → GaugeOut) :
    gaugeInstr s f = .next ((f (s.chargeGauge g r.part) g r.advance).st.setGaugeRun g (f (s.chargeGauge g r.part) g r.advance).run
      (f (s.chargeGauge g r.part) g r.advance).stop) := by
  simp only [gaugeInstr, h]

theorem gaugeInstr_none {s : State} (h : s.activeGauge = none) (f : State → Nat → GaugeRun → GaugeOut) :
    gaugeInstr s f = .fault .noGaugeRun := by
  simp only [gaugeInstr, h]

/-- A gauge register reads as put, modulo 2⁶⁴; every other one as before. -/
theorem GaugeRun.get_put (r : GaugeRun) (d n : BitVec 4) (v : Nat) : (r.put d v).get n = if n = d then v % 2 ^ 64 else r.get n := by
  unfold GaugeRun.get GaugeRun.put
  rw [NMap.getD_set]
  by_cases h : n = d
  · simp [h]
  · have : ¬ d.toNat = n.toNat := fun e => h (BitVec.eq_of_toNat_eq e.symm)
    simp [h, this]

@[simp] theorem GaugeRun.put_pc (r : GaugeRun) (d : BitVec 4) (v : Nat) : (r.put d v).pc = r.pc := rfl
@[simp] theorem GaugeRun.put_triggers (r : GaugeRun) (d : BitVec 4) (v : Nat) : (r.put d v).triggers = r.triggers := rfl
@[simp] theorem GaugeRun.put_part (r : GaugeRun) (d : BitVec 4) (v : Nat) : (r.put d v).part = r.part := rfl
@[simp] theorem GaugeRun.advance_pc (r : GaugeRun) : r.advance.pc = r.pc + 1 := rfl
@[simp] theorem GaugeRun.advance_part (r : GaugeRun) : r.advance.part = r.part := rfl
@[simp] theorem GaugeRun.advance_get (r : GaugeRun) (n : BitVec 4) : r.advance.get n = r.get n := rfl

end Sys2Proof.Machine
end

