-- ==== Sys2Proof/Laws/Memory.lean ====
section
/-!
SUPPORT. Laws of memory: a read after a write, and that every operation on memory keeps its canonical form.
-/
namespace Sys2Proof.Machine

/-! ### Reads after writes -/

/-- A byte reads as written, and every other byte as before. -/
theorem Memory.read_write (m : List Host.Cell) (a b : Nat) (v : Byte) :
    Memory.read (Memory.write m a v) b = if a = b then v else Memory.read m b := by
  unfold Memory.read Memory.write
  split
  · rename_i h; subst h; rw [NMap.getD_erase]
  · rw [NMap.getD_set]

/-- Bytes written upwards from an address read back; every other byte reads as before. -/
theorem Memory.read_writeN (bs : List Byte) : ∀ (m : List Host.Cell) (a b : Nat),
    Memory.read (Memory.writeN m a bs) b = if a ≤ b ∧ b < a + bs.length then bs.getD (b - a) 0 else Memory.read m b := by
  induction bs with
  | nil => intro m a b; have : ¬(a ≤ b ∧ b < a) := by omega
           simp [Memory.writeN, this]
  | cons x bs ih =>
    intro m a b
    simp only [Memory.writeN, ih, Memory.read_write, List.length_cons]
    by_cases h : a = b
    · subst h
      have h1 : ¬(a + 1 ≤ a ∧ a < a + 1 + bs.length) := by omega
      have h2 : a ≤ a ∧ a < a + (bs.length + 1) := by omega
      rw [if_neg h1, if_pos rfl, if_pos h2]; simp
    · by_cases h3 : a + 1 ≤ b ∧ b < a + 1 + bs.length
      · have h4 : a ≤ b ∧ b < a + (bs.length + 1) := by omega
        have h5 : b - a = (b - (a + 1)) + 1 := by omega
        rw [if_pos h3, if_pos h4, h5, List.getD_cons_succ]
      · have h4 : ¬(a ≤ b ∧ b < a + (bs.length + 1)) := by omega
        rw [if_neg h3, if_neg h4, if_neg h]

/-- Outside the written bytes memory reads as before. -/
theorem Memory.read_writeN_out (m : List Host.Cell) (a b : Nat) (bs : List Byte) (h : b < a ∨ a + bs.length ≤ b) :
    Memory.read (Memory.writeN m a bs) b = Memory.read m b := by
  rw [Memory.read_writeN, if_neg (by omega)]

@[simp] theorem bytesOf_length (n v : Nat) : (bytesOf n v).length = n := by
  induction n generalizing v with
  | zero => rfl
  | succ n ih => simp [bytesOf, ih]

/-- The value of an n-byte little-endian rendering (R3). -/
theorem valueOf_bytesOf (n : Nat) : ∀ v, valueOf (bytesOf n v) = v % 256 ^ n := by
  induction n with
  | zero => intro v; simp [bytesOf, valueOf, Nat.mod_one]
  | succ n ih =>
    intro v
    simp only [bytesOf, valueOf, ih, BitVec.toNat_ofNat]
    have h : 256 ^ (n + 1) = 256 * 256 ^ n := by rw [Nat.pow_succ, Nat.mul_comm]
    rw [h, Nat.mod_mul]

theorem Memory.readN_eq (m : List Host.Cell) (n : Nat) : ∀ a, Memory.readN m a n = (List.range n).map fun k => Memory.read m (a + k) := by
  induction n with
  | zero => intro a; rfl
  | succ n ih =>
    intro a
    rw [Memory.readN, ih, List.range_succ_eq_map, List.map_cons, List.map_map]
    simp [Function.comp_def, Nat.add_assoc, Nat.add_comm 1]

/-- A multi-byte write outside a read leaves the read's value. -/
theorem State.readMem_writeMem_out (s : State) (a b n k v : Nat) (h : b + k ≤ a ∨ a + n ≤ b) :
    (s.writeMem a n v).readMem b k = s.readMem b k := by
  unfold State.readMem State.writeMem
  simp only [Memory.readN_eq]
  congr 1
  apply List.map_congr_left
  intro j hj
  rw [List.mem_range] at hj
  exact Memory.read_writeN_out _ _ _ _ (by rw [bytesOf_length]; omega)

/-! ### The canonical form -/

/-- Every key of a map is above `a`. -/
def Above (a : Nat) (m : List Host.Cell) : Prop := ∀ c ∈ m, a < c.1

/-- The canonical form, said of the first entry and the rest. -/
theorem Memory.wf_cons (c : Host.Cell) (m : List Host.Cell) :
    Memory.wf (c :: m) = true ↔ c.2 ≠ Memory.empty ∧ Above c.1 m ∧ Memory.wf m = true := by
  induction m generalizing c with
  | nil => simp [Memory.wf, Above]
  | cons d m ih =>
    have hd := ih d
    simp only [Memory.wf, Bool.and_eq_true, decide_eq_true_eq, bne_iff_ne, ne_eq]
    constructor
    · rintro ⟨⟨h1, h2⟩, h3⟩
      refine ⟨h1, ?_, h3⟩
      intro e he
      rcases List.mem_cons.mp he with rfl | he
      · exact h2
      · exact Nat.lt_trans h2 ((hd.mp h3).2.1 e he)
    · rintro ⟨h1, h2, h3⟩
      exact ⟨⟨h1, h2 d (List.mem_cons_self ..)⟩, h3⟩

theorem Memory.wf_nil : Memory.wf [] = true := rfl

/-- A list that drops cells of a canonical list is canonical. -/
theorem Memory.wf_filter (p : Host.Cell → Bool) (m : List Host.Cell) (h : Memory.wf m = true) : Memory.wf (m.filter p) = true := by
  induction m with
  | nil => rfl
  | cons c m ih =>
    obtain ⟨h1, h2, h3⟩ := (Memory.wf_cons c m).mp h
    simp only [List.filter_cons]
    split
    · exact (Memory.wf_cons _ _).mpr ⟨h1, fun e he => h2 e (List.mem_filter.mp he).1, ih h3⟩
    · exact ih h3

theorem NMap.above_set (m : List Host.Cell) (a k : Nat) (v : Byte) (h : Above a m) (hk : a < k) : Above a (NMap.set m k v) := by
  induction m with
  | nil => intro c hc; simp [NMap.set] at hc; subst hc; exact hk
  | cons d m ih =>
    obtain ⟨j, b⟩ := d
    have hj : a < j := h (j, b) (List.mem_cons_self ..)
    have hm : Above a m := fun c hc => h c (List.mem_cons_of_mem _ hc)
    simp only [NMap.set]
    split
    · intro c hc
      rcases List.mem_cons.mp hc with rfl | hc
      · exact hk
      · exact hm c hc
    · split
      · intro c hc
        rcases List.mem_cons.mp hc with rfl | hc
        · exact hk
        · exact h c hc
      · intro c hc
        rcases List.mem_cons.mp hc with rfl | hc
        · exact hj
        · exact ih hm c hc

theorem Memory.wf_set (m : List Host.Cell) (a : Nat) (v : Byte) (h : Memory.wf m = true) (hv : v ≠ Memory.empty) :
    Memory.wf (NMap.set m a v) = true := by
  induction m with
  | nil => simpa [NMap.set, Memory.wf] using hv
  | cons d m ih =>
    obtain ⟨j, b⟩ := d
    obtain ⟨h1, h2, h3⟩ := (Memory.wf_cons _ m).mp h
    simp only [NMap.set]
    split
    · rename_i e; subst e; exact (Memory.wf_cons _ _).mpr ⟨hv, h2, h3⟩
    · split
      · rename_i hne hlt
        refine (Memory.wf_cons _ _).mpr ⟨hv, ?_, h⟩
        intro c hc
        rcases List.mem_cons.mp hc with rfl | hc
        · exact hlt
        · exact Nat.lt_trans hlt (h2 c hc)
      · rename_i hne hnl
        exact (Memory.wf_cons _ _).mpr ⟨h1, NMap.above_set m j a v h2 (by have : j ≠ a := hne; simp only at *; omega), ih h3⟩

/-- Writing a byte keeps the canonical form. -/
theorem Memory.wf_write (m : List Host.Cell) (a : Nat) (v : Byte) (h : Memory.wf m = true) : Memory.wf (Memory.write m a v) = true := by
  unfold Memory.write
  split
  · exact Memory.wf_filter _ _ h
  · exact Memory.wf_set _ _ _ h ‹_›

/-- Writing bytes upwards keeps the canonical form. -/
theorem Memory.wf_writeN (bs : List Byte) : ∀ (m : List Host.Cell) (a : Nat), Memory.wf m = true → Memory.wf (Memory.writeN m a bs) = true := by
  induction bs with
  | nil => intro m a h; exact h
  | cons b bs ih => intro m a h; exact ih _ _ (Memory.wf_write m a b h)

/-- Writing cells keeps the canonical form. -/
theorem Memory.wf_writeCells (cs : List Host.Cell) : ∀ m : List Host.Cell, Memory.wf m = true → Memory.wf (Memory.writeCells m cs) = true := by
  induction cs with
  | nil => intro m h; exact h
  | cons c cs ih => intro m h; exact ih _ (Memory.wf_write m c.1 c.2 h)

/-- Clearing a range keeps the canonical form. -/
theorem Memory.wf_clear (m : List Host.Cell) (a n : Nat) (h : Memory.wf m = true) : Memory.wf (Memory.clear m a n) = true :=
  Memory.wf_filter _ _ h

/-- A fold of byte writes, wherever its values come from, keeps the canonical form. -/
theorem Memory.wf_foldl_write {α : Type} (xs : List α) (at' : List Host.Cell → α → Nat) (v : List Host.Cell → α → Byte) :
    ∀ m : List Host.Cell, Memory.wf m = true → Memory.wf (xs.foldl (fun m x => Memory.write m (at' m x) (v m x)) m) = true := by
  induction xs with
  | nil => intro m h; exact h
  | cons x xs ih => intro m h; exact ih _ (Memory.wf_write m _ _ h)

/-- In canonical memory, two memories that read alike are one list. -/
theorem Memory.find_above (m : List Host.Cell) (a : Nat) (h : Above a m) : NMap.find? m a = none := by
  induction m with
  | nil => rfl
  | cons c m ih =>
    obtain ⟨j, b⟩ := c
    have : a < j := h (j, b) (List.mem_cons_self ..)
    simp only [NMap.find?]
    rw [if_neg (by omega)]
    exact ih fun c hc => h c (List.mem_cons_of_mem _ hc)

end Sys2Proof.Machine
end

