-- ==== Sys2Proof/Laws/PerInstr.lean ====
section
/-!
SUPPORT. Facts of each instruction as syntax, one lemma a constructor. Length: what an instruction encodes to is nothing (an event), one gauge
word of 4 bytes, one Umavi word of 8, or two.
-/
namespace Sys2Proof.Laws.Length

/-- The lengths an encoding may have (R240, R231). -/
def Statement (i : Instr) : Prop :=
  (encodeBytes i).length = 0 ∨ (encodeBytes i).length = 4 ∨ (encodeBytes i).length = 8 ∨ (encodeBytes i).length = 16

theorem of_code (i : Instr) : Statement i := by
  unfold Statement encodeBytes
  cases encode i with
  | none => exact .inl rfl
  | some c => cases c <;> simp

end Sys2Proof.Laws.Length

theorem Sys2Proof.Laws.Length.iadd (w : WordV3) : Sys2Proof.Laws.Length.Statement (.iadd w) := Sys2Proof.Laws.Length.of_code _
theorem Sys2Proof.Laws.Length.isub (w : WordV3) : Sys2Proof.Laws.Length.Statement (.isub w) := Sys2Proof.Laws.Length.of_code _
theorem Sys2Proof.Laws.Length.imul (w : WordV3) : Sys2Proof.Laws.Length.Statement (.imul w) := Sys2Proof.Laws.Length.of_code _
theorem Sys2Proof.Laws.Length.imulh (w : WordV3) : Sys2Proof.Laws.Length.Statement (.imulh w) := Sys2Proof.Laws.Length.of_code _
theorem Sys2Proof.Laws.Length.imad (w : WordV4) : Sys2Proof.Laws.Length.Statement (.imad w) := Sys2Proof.Laws.Length.of_code _
theorem Sys2Proof.Laws.Length.iaddi (w : WordVI) : Sys2Proof.Laws.Length.Statement (.iaddi w) := Sys2Proof.Laws.Length.of_code _
theorem Sys2Proof.Laws.Length.imuli (w : WordVI) : Sys2Proof.Laws.Length.Statement (.imuli w) := Sys2Proof.Laws.Length.of_code _
theorem Sys2Proof.Laws.Length.idiv (w : WordV3) : Sys2Proof.Laws.Length.Statement (.idiv w) := Sys2Proof.Laws.Length.of_code _
theorem Sys2Proof.Laws.Length.irem (w : WordV3) : Sys2Proof.Laws.Length.Statement (.irem w) := Sys2Proof.Laws.Length.of_code _
theorem Sys2Proof.Laws.Length.imin (w : WordV3) : Sys2Proof.Laws.Length.Statement (.imin w) := Sys2Proof.Laws.Length.of_code _
theorem Sys2Proof.Laws.Length.imax (w : WordV3) : Sys2Proof.Laws.Length.Statement (.imax w) := Sys2Proof.Laws.Length.of_code _
theorem Sys2Proof.Laws.Length.iabs (w : WordV3) : Sys2Proof.Laws.Length.Statement (.iabs w) := Sys2Proof.Laws.Length.of_code _
theorem Sys2Proof.Laws.Length.ineg (w : WordV3) : Sys2Proof.Laws.Length.Statement (.ineg w) := Sys2Proof.Laws.Length.of_code _
theorem Sys2Proof.Laws.Length.idot4 (w : WordV4) : Sys2Proof.Laws.Length.Statement (.idot4 w) := Sys2Proof.Laws.Length.of_code _
theorem Sys2Proof.Laws.Length.and (w : WordV3) : Sys2Proof.Laws.Length.Statement (.and w) := Sys2Proof.Laws.Length.of_code _
theorem Sys2Proof.Laws.Length.or (w : WordV3) : Sys2Proof.Laws.Length.Statement (.or w) := Sys2Proof.Laws.Length.of_code _
theorem Sys2Proof.Laws.Length.xor (w : WordV3) : Sys2Proof.Laws.Length.Statement (.xor w) := Sys2Proof.Laws.Length.of_code _
theorem Sys2Proof.Laws.Length.not (w : WordV3) : Sys2Proof.Laws.Length.Statement (.not w) := Sys2Proof.Laws.Length.of_code _
theorem Sys2Proof.Laws.Length.andi (w : WordVI) : Sys2Proof.Laws.Length.Statement (.andi w) := Sys2Proof.Laws.Length.of_code _
theorem Sys2Proof.Laws.Length.ori (w : WordVI) : Sys2Proof.Laws.Length.Statement (.ori w) := Sys2Proof.Laws.Length.of_code _
theorem Sys2Proof.Laws.Length.xori (w : WordVI) : Sys2Proof.Laws.Length.Statement (.xori w) := Sys2Proof.Laws.Length.of_code _
theorem Sys2Proof.Laws.Length.lut3 (w : WordV4) : Sys2Proof.Laws.Length.Statement (.lut3 w) := Sys2Proof.Laws.Length.of_code _
theorem Sys2Proof.Laws.Length.shl (w : WordV3) : Sys2Proof.Laws.Length.Statement (.shl w) := Sys2Proof.Laws.Length.of_code _
theorem Sys2Proof.Laws.Length.shr (w : WordV3) : Sys2Proof.Laws.Length.Statement (.shr w) := Sys2Proof.Laws.Length.of_code _
theorem Sys2Proof.Laws.Length.sra (w : WordV3) : Sys2Proof.Laws.Length.Statement (.sra w) := Sys2Proof.Laws.Length.of_code _
theorem Sys2Proof.Laws.Length.extr (w : WordV4) : Sys2Proof.Laws.Length.Statement (.extr w) := Sys2Proof.Laws.Length.of_code _
theorem Sys2Proof.Laws.Length.bfx (w : WordV3) : Sys2Proof.Laws.Length.Statement (.bfx w) := Sys2Proof.Laws.Length.of_code _
theorem Sys2Proof.Laws.Length.bfi (w : WordV4) : Sys2Proof.Laws.Length.Statement (.bfi w) := Sys2Proof.Laws.Length.of_code _
theorem Sys2Proof.Laws.Length.brev (w : WordV3) : Sys2Proof.Laws.Length.Statement (.brev w) := Sys2Proof.Laws.Length.of_code _
theorem Sys2Proof.Laws.Length.popc (w : WordV3) : Sys2Proof.Laws.Length.Statement (.popc w) := Sys2Proof.Laws.Length.of_code _
theorem Sys2Proof.Laws.Length.clz (w : WordV3) : Sys2Proof.Laws.Length.Statement (.clz w) := Sys2Proof.Laws.Length.of_code _
theorem Sys2Proof.Laws.Length.ctz (w : WordV3) : Sys2Proof.Laws.Length.Statement (.ctz w) := Sys2Proof.Laws.Length.of_code _
theorem Sys2Proof.Laws.Length.icmp (w : WordV3) : Sys2Proof.Laws.Length.Statement (.icmp w) := Sys2Proof.Laws.Length.of_code _
theorem Sys2Proof.Laws.Length.icmpi (w : WordVI) : Sys2Proof.Laws.Length.Statement (.icmpi w) := Sys2Proof.Laws.Length.of_code _
theorem Sys2Proof.Laws.Length.sel (w : WordV4) : Sys2Proof.Laws.Length.Statement (.sel w) := Sys2Proof.Laws.Length.of_code _
theorem Sys2Proof.Laws.Length.plop (w : WordV3) : Sys2Proof.Laws.Length.Statement (.plop w) := Sys2Proof.Laws.Length.of_code _
theorem Sys2Proof.Laws.Length.mov (w : WordV3) : Sys2Proof.Laws.Length.Statement (.mov w) := Sys2Proof.Laws.Length.of_code _
theorem Sys2Proof.Laws.Length.movi (w : WordVI) : Sys2Proof.Laws.Length.Statement (.movi w) := Sys2Proof.Laws.Length.of_code _
theorem Sys2Proof.Laws.Length.movw (w : WordV4) : Sys2Proof.Laws.Length.Statement (.movw w) := Sys2Proof.Laws.Length.of_code _
theorem Sys2Proof.Laws.Length.icvt (w : WordV3) : Sys2Proof.Laws.Length.Statement (.icvt w) := Sys2Proof.Laws.Length.of_code _
theorem Sys2Proof.Laws.Length.lea (w : WordV3) : Sys2Proof.Laws.Length.Statement (.lea w) := Sys2Proof.Laws.Length.of_code _
theorem Sys2Proof.Laws.Length.brec (w : WordS) : Sys2Proof.Laws.Length.Statement (.brec w) := Sys2Proof.Laws.Length.of_code _
theorem Sys2Proof.Laws.Length.bget (w : WordS) : Sys2Proof.Laws.Length.Statement (.bget w) := Sys2Proof.Laws.Length.of_code _
theorem Sys2Proof.Laws.Length.sadd (w : WordS) : Sys2Proof.Laws.Length.Statement (.sadd w) := Sys2Proof.Laws.Length.of_code _
theorem Sys2Proof.Laws.Length.ssub (w : WordS) : Sys2Proof.Laws.Length.Statement (.ssub w) := Sys2Proof.Laws.Length.of_code _
theorem Sys2Proof.Laws.Length.smul (w : WordS) : Sys2Proof.Laws.Length.Statement (.smul w) := Sys2Proof.Laws.Length.of_code _
theorem Sys2Proof.Laws.Length.sand (w : WordS) : Sys2Proof.Laws.Length.Statement (.sand w) := Sys2Proof.Laws.Length.of_code _
theorem Sys2Proof.Laws.Length.sor (w : WordS) : Sys2Proof.Laws.Length.Statement (.sor w) := Sys2Proof.Laws.Length.of_code _
theorem Sys2Proof.Laws.Length.sxor (w : WordS) : Sys2Proof.Laws.Length.Statement (.sxor w) := Sys2Proof.Laws.Length.of_code _
theorem Sys2Proof.Laws.Length.sshl (w : WordS) : Sys2Proof.Laws.Length.Statement (.sshl w) := Sys2Proof.Laws.Length.of_code _
theorem Sys2Proof.Laws.Length.sshr (w : WordS) : Sys2Proof.Laws.Length.Statement (.sshr w) := Sys2Proof.Laws.Length.of_code _
theorem Sys2Proof.Laws.Length.ssra (w : WordS) : Sys2Proof.Laws.Length.Statement (.ssra w) := Sys2Proof.Laws.Length.of_code _
theorem Sys2Proof.Laws.Length.smin (w : WordS) : Sys2Proof.Laws.Length.Statement (.smin w) := Sys2Proof.Laws.Length.of_code _
theorem Sys2Proof.Laws.Length.smax (w : WordS) : Sys2Proof.Laws.Length.Statement (.smax w) := Sys2Proof.Laws.Length.of_code _
theorem Sys2Proof.Laws.Length.scmp (w : WordS) : Sys2Proof.Laws.Length.Statement (.scmp w) := Sys2Proof.Laws.Length.of_code _
theorem Sys2Proof.Laws.Length.smov (w : WordS) : Sys2Proof.Laws.Length.Statement (.smov w) := Sys2Proof.Laws.Length.of_code _
theorem Sys2Proof.Laws.Length.ssel (w : WordS) : Sys2Proof.Laws.Length.Statement (.ssel w) := Sys2Proof.Laws.Length.of_code _
theorem Sys2Proof.Laws.Length.qlop (w : WordS) : Sys2Proof.Laws.Length.Statement (.qlop w) := Sys2Proof.Laws.Length.of_code _
theorem Sys2Proof.Laws.Length.fadd (w : WordV3) : Sys2Proof.Laws.Length.Statement (.fadd w) := Sys2Proof.Laws.Length.of_code _
theorem Sys2Proof.Laws.Length.fsub (w : WordV3) : Sys2Proof.Laws.Length.Statement (.fsub w) := Sys2Proof.Laws.Length.of_code _
theorem Sys2Proof.Laws.Length.fmul (w : WordV3) : Sys2Proof.Laws.Length.Statement (.fmul w) := Sys2Proof.Laws.Length.of_code _
theorem Sys2Proof.Laws.Length.ffma (w : WordV4) : Sys2Proof.Laws.Length.Statement (.ffma w) := Sys2Proof.Laws.Length.of_code _
theorem Sys2Proof.Laws.Length.fmin (w : WordV3) : Sys2Proof.Laws.Length.Statement (.fmin w) := Sys2Proof.Laws.Length.of_code _
theorem Sys2Proof.Laws.Length.fmax (w : WordV3) : Sys2Proof.Laws.Length.Statement (.fmax w) := Sys2Proof.Laws.Length.of_code _
theorem Sys2Proof.Laws.Length.fabs (w : WordV3) : Sys2Proof.Laws.Length.Statement (.fabs w) := Sys2Proof.Laws.Length.of_code _
theorem Sys2Proof.Laws.Length.fneg (w : WordV3) : Sys2Proof.Laws.Length.Statement (.fneg w) := Sys2Proof.Laws.Length.of_code _
theorem Sys2Proof.Laws.Length.fdiv (w : WordV3) : Sys2Proof.Laws.Length.Statement (.fdiv w) := Sys2Proof.Laws.Length.of_code _
theorem Sys2Proof.Laws.Length.fsqrt (w : WordV3) : Sys2Proof.Laws.Length.Statement (.fsqrt w) := Sys2Proof.Laws.Length.of_code _
theorem Sys2Proof.Laws.Length.frsqrt (w : WordV3) : Sys2Proof.Laws.Length.Statement (.frsqrt w) := Sys2Proof.Laws.Length.of_code _
theorem Sys2Proof.Laws.Length.frcp (w : WordV3) : Sys2Proof.Laws.Length.Statement (.frcp w) := Sys2Proof.Laws.Length.of_code _
theorem Sys2Proof.Laws.Length.fcmp (w : WordV3) : Sys2Proof.Laws.Length.Statement (.fcmp w) := Sys2Proof.Laws.Length.of_code _
theorem Sys2Proof.Laws.Length.fclass (w : WordV3) : Sys2Proof.Laws.Length.Statement (.fclass w) := Sys2Proof.Laws.Length.of_code _
theorem Sys2Proof.Laws.Length.faddi (w : WordVI) : Sys2Proof.Laws.Length.Statement (.faddi w) := Sys2Proof.Laws.Length.of_code _
theorem Sys2Proof.Laws.Length.fmuli (w : WordVI) : Sys2Proof.Laws.Length.Statement (.fmuli w) := Sys2Proof.Laws.Length.of_code _
theorem Sys2Proof.Laws.Length.fdot2 (w : WordV4) : Sys2Proof.Laws.Length.Statement (.fdot2 w) := Sys2Proof.Laws.Length.of_code _
theorem Sys2Proof.Laws.Length.fdot4 (w : WordV4) : Sys2Proof.Laws.Length.Statement (.fdot4 w) := Sys2Proof.Laws.Length.of_code _
theorem Sys2Proof.Laws.Length.fround (w : WordV3) : Sys2Proof.Laws.Length.Statement (.fround w) := Sys2Proof.Laws.Length.of_code _
theorem Sys2Proof.Laws.Length.fcvt (w : WordV3) : Sys2Proof.Laws.Length.Statement (.fcvt w) := Sys2Proof.Laws.Length.of_code _
theorem Sys2Proof.Laws.Length.f2i (w : WordV3) : Sys2Proof.Laws.Length.Statement (.f2i w) := Sys2Proof.Laws.Length.of_code _
theorem Sys2Proof.Laws.Length.i2f (w : WordV3) : Sys2Proof.Laws.Length.Statement (.i2f w) := Sys2Proof.Laws.Length.of_code _
theorem Sys2Proof.Laws.Length.fpack (w : WordV4) : Sys2Proof.Laws.Length.Statement (.fpack w) := Sys2Proof.Laws.Length.of_code _
theorem Sys2Proof.Laws.Length.funpack (w : WordV3) : Sys2Proof.Laws.Length.Statement (.funpack w) := Sys2Proof.Laws.Length.of_code _
theorem Sys2Proof.Laws.Length.fscale (w : WordV3) : Sys2Proof.Laws.Length.Statement (.fscale w) := Sys2Proof.Laws.Length.of_code _
theorem Sys2Proof.Laws.Length.fexp2 (w : WordV3) : Sys2Proof.Laws.Length.Statement (.fexp2 w) := Sys2Proof.Laws.Length.of_code _
theorem Sys2Proof.Laws.Length.flog2 (w : WordV3) : Sys2Proof.Laws.Length.Statement (.flog2 w) := Sys2Proof.Laws.Length.of_code _
theorem Sys2Proof.Laws.Length.fsin (w : WordV3) : Sys2Proof.Laws.Length.Statement (.fsin w) := Sys2Proof.Laws.Length.of_code _
theorem Sys2Proof.Laws.Length.fcos (w : WordV3) : Sys2Proof.Laws.Length.Statement (.fcos w) := Sys2Proof.Laws.Length.of_code _
theorem Sys2Proof.Laws.Length.ftanh (w : WordV3) : Sys2Proof.Laws.Length.Statement (.ftanh w) := Sys2Proof.Laws.Length.of_code _
theorem Sys2Proof.Laws.Length.fsigm (w : WordV3) : Sys2Proof.Laws.Length.Statement (.fsigm w) := Sys2Proof.Laws.Length.of_code _
theorem Sys2Proof.Laws.Length.fsgn (w : WordV3) : Sys2Proof.Laws.Length.Statement (.fsgn w) := Sys2Proof.Laws.Length.of_code _
theorem Sys2Proof.Laws.Length.ffrac (w : WordV3) : Sys2Proof.Laws.Length.Statement (.ffrac w) := Sys2Proof.Laws.Length.of_code _
theorem Sys2Proof.Laws.Length.fmxsc (w : WordV3) : Sys2Proof.Laws.Length.Statement (.fmxsc w) := Sys2Proof.Laws.Length.of_code _
theorem Sys2Proof.Laws.Length.shfl (w : WordV3) : Sys2Proof.Laws.Length.Statement (.shfl w) := Sys2Proof.Laws.Length.of_code _
theorem Sys2Proof.Laws.Length.vote (w : WordV3) : Sys2Proof.Laws.Length.Statement (.vote w) := Sys2Proof.Laws.Length.of_code _
theorem Sys2Proof.Laws.Length.ballot (w : WordV3) : Sys2Proof.Laws.Length.Statement (.ballot w) := Sys2Proof.Laws.Length.of_code _
theorem Sys2Proof.Laws.Length.matchLanes (w : WordV3) : Sys2Proof.Laws.Length.Statement (.matchLanes w) := Sys2Proof.Laws.Length.of_code _
theorem Sys2Proof.Laws.Length.qswap (w : WordV3) : Sys2Proof.Laws.Length.Statement (.qswap w) := Sys2Proof.Laws.Length.of_code _
theorem Sys2Proof.Laws.Length.qbcast (w : WordV3) : Sys2Proof.Laws.Length.Statement (.qbcast w) := Sys2Proof.Laws.Length.of_code _
theorem Sys2Proof.Laws.Length.wred (w : WordV3) : Sys2Proof.Laws.Length.Statement (.wred w) := Sys2Proof.Laws.Length.of_code _
theorem Sys2Proof.Laws.Length.wscan (w : WordV3) : Sys2Proof.Laws.Length.Statement (.wscan w) := Sys2Proof.Laws.Length.of_code _
theorem Sys2Proof.Laws.Length.tilew (w : WordVI) : Sys2Proof.Laws.Length.Statement (.tilew w) := Sys2Proof.Laws.Length.of_code _
theorem Sys2Proof.Laws.Length.rdlane (w : WordV3) : Sys2Proof.Laws.Length.Statement (.rdlane w) := Sys2Proof.Laws.Length.of_code _
theorem Sys2Proof.Laws.Length.wrlane (w : WordV3) : Sys2Proof.Laws.Length.Statement (.wrlane w) := Sys2Proof.Laws.Length.of_code _
theorem Sys2Proof.Laws.Length.grpmask (w : WordV3) : Sys2Proof.Laws.Length.Statement (.grpmask w) := Sys2Proof.Laws.Length.of_code _
theorem Sys2Proof.Laws.Length.ldg (w : WordM) : Sys2Proof.Laws.Length.Statement (.ldg w) := Sys2Proof.Laws.Length.of_code _
theorem Sys2Proof.Laws.Length.ldgWait (w : WordM) : Sys2Proof.Laws.Length.Statement (.ldgWait w) := Sys2Proof.Laws.Length.of_code _
theorem Sys2Proof.Laws.Length.stg (w : WordM) : Sys2Proof.Laws.Length.Statement (.stg w) := Sys2Proof.Laws.Length.of_code _
theorem Sys2Proof.Laws.Length.ldl (w : WordM) : Sys2Proof.Laws.Length.Statement (.ldl w) := Sys2Proof.Laws.Length.of_code _
theorem Sys2Proof.Laws.Length.stl (w : WordM) : Sys2Proof.Laws.Length.Statement (.stl w) := Sys2Proof.Laws.Length.of_code _
theorem Sys2Proof.Laws.Length.lds (w : WordM) : Sys2Proof.Laws.Length.Statement (.lds w) := Sys2Proof.Laws.Length.of_code _
theorem Sys2Proof.Laws.Length.sts (w : WordM) : Sys2Proof.Laws.Length.Statement (.sts w) := Sys2Proof.Laws.Length.of_code _
theorem Sys2Proof.Laws.Length.ldc (w : WordM) : Sys2Proof.Laws.Length.Statement (.ldc w) := Sys2Proof.Laws.Length.of_code _
theorem Sys2Proof.Laws.Length.stc (w : WordM) : Sys2Proof.Laws.Length.Statement (.stc w) := Sys2Proof.Laws.Length.of_code _
theorem Sys2Proof.Laws.Length.ldbm (w : WordM) : Sys2Proof.Laws.Length.Statement (.ldbm w) := Sys2Proof.Laws.Length.of_code _
theorem Sys2Proof.Laws.Length.stbm (w : WordM) : Sys2Proof.Laws.Length.Statement (.stbm w) := Sys2Proof.Laws.Length.of_code _
theorem Sys2Proof.Laws.Length.atom (w : WordMA) : Sys2Proof.Laws.Length.Statement (.atom w) := Sys2Proof.Laws.Length.of_code _
theorem Sys2Proof.Laws.Length.atoms (w : WordMA) : Sys2Proof.Laws.Length.Statement (.atoms w) := Sys2Proof.Laws.Length.of_code _
theorem Sys2Proof.Laws.Length.atomc (w : WordMA) : Sys2Proof.Laws.Length.Statement (.atomc w) := Sys2Proof.Laws.Length.of_code _
theorem Sys2Proof.Laws.Length.sldg (w : WordM) : Sys2Proof.Laws.Length.Statement (.sldg w) := Sys2Proof.Laws.Length.of_code _
theorem Sys2Proof.Laws.Length.red (w : WordMA) : Sys2Proof.Laws.Length.Statement (.red w) := Sys2Proof.Laws.Length.of_code _
theorem Sys2Proof.Laws.Length.redOrd (w : WordMA) : Sys2Proof.Laws.Length.Statement (.redOrd w) := Sys2Proof.Laws.Length.of_code _
theorem Sys2Proof.Laws.Length.redflush (w : WordV3) : Sys2Proof.Laws.Length.Statement (.redflush w) := Sys2Proof.Laws.Length.of_code _
theorem Sys2Proof.Laws.Length.fence (w : WordM) : Sys2Proof.Laws.Length.Statement (.fence w) := Sys2Proof.Laws.Length.of_code _
theorem Sys2Proof.Laws.Length.fenceLanes (w : WordV3) : Sys2Proof.Laws.Length.Statement (.fenceLanes w) := Sys2Proof.Laws.Length.of_code _
theorem Sys2Proof.Laws.Length.fenceFetch (w : WordV3) : Sys2Proof.Laws.Length.Statement (.fenceFetch w) := Sys2Proof.Laws.Length.of_code _
theorem Sys2Proof.Laws.Length.wb (w : WordM) : Sys2Proof.Laws.Length.Statement (.wb w) := Sys2Proof.Laws.Length.of_code _
theorem Sys2Proof.Laws.Length.inv (w : WordM) : Sys2Proof.Laws.Length.Statement (.inv w) := Sys2Proof.Laws.Length.of_code _
theorem Sys2Proof.Laws.Length.bar (w : WordV3) : Sys2Proof.Laws.Length.Statement (.bar w) := Sys2Proof.Laws.Length.of_code _
theorem Sys2Proof.Laws.Length.ldrec (w : WordM) : Sys2Proof.Laws.Length.Statement (.ldrec w) := Sys2Proof.Laws.Length.of_code _
theorem Sys2Proof.Laws.Length.pref (w : WordM) : Sys2Proof.Laws.Length.Statement (.pref w) := Sys2Proof.Laws.Length.of_code _
theorem Sys2Proof.Laws.Length.br (w : WordB) : Sys2Proof.Laws.Length.Statement (.br w) := Sys2Proof.Laws.Length.of_code _
theorem Sys2Proof.Laws.Length.brm (w : WordBM) : Sys2Proof.Laws.Length.Statement (.brm w) := Sys2Proof.Laws.Length.of_code _
theorem Sys2Proof.Laws.Length.call (w : WordB) : Sys2Proof.Laws.Length.Statement (.call w) := Sys2Proof.Laws.Length.of_code _
theorem Sys2Proof.Laws.Length.callr (w : WordV3) : Sys2Proof.Laws.Length.Statement (.callr w) := Sys2Proof.Laws.Length.of_code _
theorem Sys2Proof.Laws.Length.fcall (w : WordB) : Sys2Proof.Laws.Length.Statement (.fcall w) := Sys2Proof.Laws.Length.of_code _
theorem Sys2Proof.Laws.Length.ret (w : WordV3) : Sys2Proof.Laws.Length.Statement (.ret w) := Sys2Proof.Laws.Length.of_code _
theorem Sys2Proof.Laws.Length.jmpr (w : WordV3) : Sys2Proof.Laws.Length.Statement (.jmpr w) := Sys2Proof.Laws.Length.of_code _
theorem Sys2Proof.Laws.Length.exit (w : WordV3) : Sys2Proof.Laws.Length.Statement (.exit w) := Sys2Proof.Laws.Length.of_code _
theorem Sys2Proof.Laws.Length.nop (w : WordV3) : Sys2Proof.Laws.Length.Statement (.nop w) := Sys2Proof.Laws.Length.of_code _
theorem Sys2Proof.Laws.Length.brq (w : WordB) : Sys2Proof.Laws.Length.Statement (.brq w) := Sys2Proof.Laws.Length.of_code _
theorem Sys2Proof.Laws.Length.wbload (w : WordE) : Sys2Proof.Laws.Length.Statement (.wbload w) := Sys2Proof.Laws.Length.of_code _
theorem Sys2Proof.Laws.Length.mloop (w : WordE) : Sys2Proof.Laws.Length.Statement (.mloop w) := Sys2Proof.Laws.Length.of_code _
theorem Sys2Proof.Laws.Length.mloopc (w : WordE) : Sys2Proof.Laws.Length.Statement (.mloopc w) := Sys2Proof.Laws.Length.of_code _
theorem Sys2Proof.Laws.Length.accrd (w : WordV4) : Sys2Proof.Laws.Length.Statement (.accrd w) := Sys2Proof.Laws.Length.of_code _
theorem Sys2Proof.Laws.Length.accwr (w : WordV4) : Sys2Proof.Laws.Length.Statement (.accwr w) := Sys2Proof.Laws.Length.of_code _
theorem Sys2Proof.Laws.Length.acczero (w : WordV3) : Sys2Proof.Laws.Length.Statement (.acczero w) := Sys2Proof.Laws.Length.of_code _
theorem Sys2Proof.Laws.Length.wbzero (w : WordE) : Sys2Proof.Laws.Length.Statement (.wbzero w) := Sys2Proof.Laws.Length.of_code _
theorem Sys2Proof.Laws.Length.put (w : WordE) : Sys2Proof.Laws.Length.Statement (.put w) := Sys2Proof.Laws.Length.of_code _
theorem Sys2Proof.Laws.Length.get (w : WordE) : Sys2Proof.Laws.Length.Statement (.get w) := Sys2Proof.Laws.Length.of_code _
theorem Sys2Proof.Laws.Length.ratom (w : WordE) : Sys2Proof.Laws.Length.Statement (.ratom w) := Sys2Proof.Laws.Length.of_code _
theorem Sys2Proof.Laws.Length.arm (w : WordS) : Sys2Proof.Laws.Length.Statement (.arm w) := Sys2Proof.Laws.Length.of_code _
theorem Sys2Proof.Laws.Length.waitarr (w : WordS) : Sys2Proof.Laws.Length.Statement (.waitarr w) := Sys2Proof.Laws.Length.of_code _
theorem Sys2Proof.Laws.Length.notify (w : WordE) : Sys2Proof.Laws.Length.Statement (.notify w) := Sys2Proof.Laws.Length.of_code _
theorem Sys2Proof.Laws.Length.garm (w : WordV3) : Sys2Proof.Laws.Length.Statement (.garm w) := Sys2Proof.Laws.Length.of_code _
theorem Sys2Proof.Laws.Length.gset (w : WordV3) : Sys2Proof.Laws.Length.Statement (.gset w) := Sys2Proof.Laws.Length.of_code _
theorem Sys2Proof.Laws.Length.xfill (w : WordE) : Sys2Proof.Laws.Length.Statement (.xfill w) := Sys2Proof.Laws.Length.of_code _
theorem Sys2Proof.Laws.Length.ovld (w : WordE) : Sys2Proof.Laws.Length.Statement (.ovld w) := Sys2Proof.Laws.Length.of_code _
theorem Sys2Proof.Laws.Length.onceinit (w : WordE) : Sys2Proof.Laws.Length.Statement (.onceinit w) := Sys2Proof.Laws.Length.of_code _
theorem Sys2Proof.Laws.Length.launch (w : WordE) : Sys2Proof.Laws.Length.Statement (.launch w) := Sys2Proof.Laws.Length.of_code _
theorem Sys2Proof.Laws.Length.keymap (w : WordV3) : Sys2Proof.Laws.Length.Statement (.keymap w) := Sys2Proof.Laws.Length.of_code _
theorem Sys2Proof.Laws.Length.srd (w : WordVI) : Sys2Proof.Laws.Length.Statement (.srd w) := Sys2Proof.Laws.Length.of_code _
theorem Sys2Proof.Laws.Length.swr (w : WordVI) : Sys2Proof.Laws.Length.Statement (.swr w) := Sys2Proof.Laws.Length.of_code _
theorem Sys2Proof.Laws.Length.trap (w : WordVI) : Sys2Proof.Laws.Length.Statement (.trap w) := Sys2Proof.Laws.Length.of_code _
theorem Sys2Proof.Laws.Length.sleep (w : WordVI) : Sys2Proof.Laws.Length.Statement (.sleep w) := Sys2Proof.Laws.Length.of_code _
theorem Sys2Proof.Laws.Length.sysrd (w : WordS) : Sys2Proof.Laws.Length.Statement (.sysrd w) := Sys2Proof.Laws.Length.of_code _
theorem Sys2Proof.Laws.Length.syswr (w : WordS) : Sys2Proof.Laws.Length.Statement (.syswr w) := Sys2Proof.Laws.Length.of_code _
theorem Sys2Proof.Laws.Length.gmark (w : WordVI) : Sys2Proof.Laws.Length.Statement (.gmark w) := Sys2Proof.Laws.Length.of_code _
theorem Sys2Proof.Laws.Length.unassignedOpcode (word : BitVec 64) : Sys2Proof.Laws.Length.Statement (.unassignedOpcode word) := Sys2Proof.Laws.Length.of_code _
theorem Sys2Proof.Laws.Length.gaugeDone : Sys2Proof.Laws.Length.Statement (.gaugeDone) := Sys2Proof.Laws.Length.of_code _
theorem Sys2Proof.Laws.Length.gaugeMov (d : BitVec 4) (a : BitVec 4) : Sys2Proof.Laws.Length.Statement (.gaugeMov d a) := Sys2Proof.Laws.Length.of_code _
theorem Sys2Proof.Laws.Length.gaugeLi (d : BitVec 4) (i : BitVec 14) : Sys2Proof.Laws.Length.Statement (.gaugeLi d i) := Sys2Proof.Laws.Length.of_code _
theorem Sys2Proof.Laws.Length.gaugeAdd (d : BitVec 4) (a : BitVec 4) (b : BitVec 4) : Sys2Proof.Laws.Length.Statement (.gaugeAdd d a b) := Sys2Proof.Laws.Length.of_code _
theorem Sys2Proof.Laws.Length.gaugeSub (d : BitVec 4) (a : BitVec 4) (b : BitVec 4) : Sys2Proof.Laws.Length.Statement (.gaugeSub d a b) := Sys2Proof.Laws.Length.of_code _
theorem Sys2Proof.Laws.Length.gaugeAnd (d : BitVec 4) (a : BitVec 4) (b : BitVec 4) : Sys2Proof.Laws.Length.Statement (.gaugeAnd d a b) := Sys2Proof.Laws.Length.of_code _
theorem Sys2Proof.Laws.Length.gaugeOr (d : BitVec 4) (a : BitVec 4) (b : BitVec 4) : Sys2Proof.Laws.Length.Statement (.gaugeOr d a b) := Sys2Proof.Laws.Length.of_code _
theorem Sys2Proof.Laws.Length.gaugeXor (d : BitVec 4) (a : BitVec 4) (b : BitVec 4) : Sys2Proof.Laws.Length.Statement (.gaugeXor d a b) := Sys2Proof.Laws.Length.of_code _
theorem Sys2Proof.Laws.Length.gaugeAddi (d : BitVec 4) (a : BitVec 4) (i : BitVec 14) : Sys2Proof.Laws.Length.Statement (.gaugeAddi d a i) := Sys2Proof.Laws.Length.of_code _
theorem Sys2Proof.Laws.Length.gaugeShl (d : BitVec 4) (a : BitVec 4) (i : BitVec 6) : Sys2Proof.Laws.Length.Statement (.gaugeShl d a i) := Sys2Proof.Laws.Length.of_code _
theorem Sys2Proof.Laws.Length.gaugeShr (d : BitVec 4) (a : BitVec 4) (i : BitVec 6) : Sys2Proof.Laws.Length.Statement (.gaugeShr d a i) := Sys2Proof.Laws.Length.of_code _
theorem Sys2Proof.Laws.Length.gaugeMin (d : BitVec 4) (a : BitVec 4) (b : BitVec 4) : Sys2Proof.Laws.Length.Statement (.gaugeMin d a b) := Sys2Proof.Laws.Length.of_code _
theorem Sys2Proof.Laws.Length.gaugeClz (d : BitVec 4) (a : BitVec 4) : Sys2Proof.Laws.Length.Statement (.gaugeClz d a) := Sys2Proof.Laws.Length.of_code _
theorem Sys2Proof.Laws.Length.gaugeHash (d : BitVec 4) (a : BitVec 4) (i : BitVec 14) : Sys2Proof.Laws.Length.Statement (.gaugeHash d a i) := Sys2Proof.Laws.Length.of_code _
theorem Sys2Proof.Laws.Length.gaugeLd (d : BitVec 4) (a : BitVec 4) (i : BitVec 14) : Sys2Proof.Laws.Length.Statement (.gaugeLd d a i) := Sys2Proof.Laws.Length.of_code _
theorem Sys2Proof.Laws.Length.gaugeSt (a : BitVec 4) (b : BitVec 4) (i : BitVec 14) : Sys2Proof.Laws.Length.Statement (.gaugeSt a b i) := Sys2Proof.Laws.Length.of_code _
theorem Sys2Proof.Laws.Length.gaugeAcc (a : BitVec 4) (b : BitVec 4) (i : BitVec 14) : Sys2Proof.Laws.Length.Statement (.gaugeAcc a b i) := Sys2Proof.Laws.Length.of_code _
theorem Sys2Proof.Laws.Length.histLin (a : BitVec 4) (b : BitVec 4) (s : BitVec 6) (n : BitVec 6) : Sys2Proof.Laws.Length.Statement (.histLin a b s n) := Sys2Proof.Laws.Length.of_code _
theorem Sys2Proof.Laws.Length.histLog (a : BitVec 4) (b : BitVec 4) (s : BitVec 6) (n : BitVec 6) : Sys2Proof.Laws.Length.Statement (.histLog a b s n) := Sys2Proof.Laws.Length.of_code _
theorem Sys2Proof.Laws.Length.gaugeCms (a : BitVec 4) (b : BitVec 4) (w : BitVec 4) : Sys2Proof.Laws.Length.Statement (.gaugeCms a b w) := Sys2Proof.Laws.Length.of_code _
theorem Sys2Proof.Laws.Length.gaugeCmq (d : BitVec 4) (a : BitVec 4) (b : BitVec 4) (w : BitVec 4) : Sys2Proof.Laws.Length.Statement (.gaugeCmq d a b w) := Sys2Proof.Laws.Length.of_code _
theorem Sys2Proof.Laws.Length.gaugeBz (a : BitVec 4) (i : BitVec 14) : Sys2Proof.Laws.Length.Statement (.gaugeBz a i) := Sys2Proof.Laws.Length.of_code _
theorem Sys2Proof.Laws.Length.gaugeBnz (a : BitVec 4) (i : BitVec 14) : Sys2Proof.Laws.Length.Statement (.gaugeBnz a i) := Sys2Proof.Laws.Length.of_code _
theorem Sys2Proof.Laws.Length.gaugeBltu (a : BitVec 4) (b : BitVec 4) (i : BitVec 14) : Sys2Proof.Laws.Length.Statement (.gaugeBltu a b i) := Sys2Proof.Laws.Length.of_code _
theorem Sys2Proof.Laws.Length.gaugeNtfy (a : BitVec 4) (i : BitVec 14) : Sys2Proof.Laws.Length.Statement (.gaugeNtfy a i) := Sys2Proof.Laws.Length.of_code _
theorem Sys2Proof.Laws.Length.gaugeIrq (v : BitVec 8) : Sys2Proof.Laws.Length.Statement (.gaugeIrq v) := Sys2Proof.Laws.Length.of_code _
theorem Sys2Proof.Laws.Length.gaugeTrc (a : BitVec 4) (b : BitVec 4) : Sys2Proof.Laws.Length.Statement (.gaugeTrc a b) := Sys2Proof.Laws.Length.of_code _
theorem Sys2Proof.Laws.Length.gaugeFrz : Sys2Proof.Laws.Length.Statement (.gaugeFrz) := Sys2Proof.Laws.Length.of_code _
theorem Sys2Proof.Laws.Length.warpIssueSelect (island : Nat) (core : Nat) (pipe : Nat) : Sys2Proof.Laws.Length.Statement (.warpIssueSelect island core pipe) := Sys2Proof.Laws.Length.of_code _
theorem Sys2Proof.Laws.Length.warpOwed (warp : Nat) : Sys2Proof.Laws.Length.Statement (.warpOwed warp) := Sys2Proof.Laws.Length.of_code _
theorem Sys2Proof.Laws.Length.spinFloorFall (warp : Nat) : Sys2Proof.Laws.Length.Statement (.spinFloorFall warp) := Sys2Proof.Laws.Length.of_code _
theorem Sys2Proof.Laws.Length.spinFloorTimeout (warp : Nat) : Sys2Proof.Laws.Length.Statement (.spinFloorTimeout warp) := Sys2Proof.Laws.Length.of_code _
theorem Sys2Proof.Laws.Length.loadReturn (id : Nat) : Sys2Proof.Laws.Length.Statement (.loadReturn id) := Sys2Proof.Laws.Length.of_code _
theorem Sys2Proof.Laws.Length.divideReturn (id : Nat) : Sys2Proof.Laws.Length.Statement (.divideReturn id) := Sys2Proof.Laws.Length.of_code _
theorem Sys2Proof.Laws.Length.specialFunctionReturn (id : Nat) : Sys2Proof.Laws.Length.Statement (.specialFunctionReturn id) := Sys2Proof.Laws.Length.of_code _
theorem Sys2Proof.Laws.Length.accrdReturn (id : Nat) : Sys2Proof.Laws.Length.Statement (.accrdReturn id) := Sys2Proof.Laws.Length.of_code _
theorem Sys2Proof.Laws.Length.keymapReturn (id : Nat) : Sys2Proof.Laws.Length.Statement (.keymapReturn id) := Sys2Proof.Laws.Length.of_code _
theorem Sys2Proof.Laws.Length.ldrecComplete (id : Nat) : Sys2Proof.Laws.Length.Statement (.ldrecComplete id) := Sys2Proof.Laws.Length.of_code _
theorem Sys2Proof.Laws.Length.onceWaitTimeout (id : Nat) : Sys2Proof.Laws.Length.Statement (.onceWaitTimeout id) := Sys2Proof.Laws.Length.of_code _
theorem Sys2Proof.Laws.Length.sleepWake (warp : Nat) (lane : Nat) : Sys2Proof.Laws.Length.Statement (.sleepWake warp lane) := Sys2Proof.Laws.Length.of_code _
theorem Sys2Proof.Laws.Length.waitarrRelease (id : Nat) : Sys2Proof.Laws.Length.Statement (.waitarrRelease id) := Sys2Proof.Laws.Length.of_code _
theorem Sys2Proof.Laws.Length.engineCommandStart (warp : Nat) (queue : Nat) : Sys2Proof.Laws.Length.Statement (.engineCommandStart warp queue) := Sys2Proof.Laws.Length.of_code _
theorem Sys2Proof.Laws.Length.matrixKStep (warp : Nat) : Sys2Proof.Laws.Length.Statement (.matrixKStep warp) := Sys2Proof.Laws.Length.of_code _
theorem Sys2Proof.Laws.Length.engineCommandEnd (id : Nat) : Sys2Proof.Laws.Length.Statement (.engineCommandEnd id) := Sys2Proof.Laws.Length.of_code _
theorem Sys2Proof.Laws.Length.engineLineRetry (id : Nat) : Sys2Proof.Laws.Length.Statement (.engineLineRetry id) := Sys2Proof.Laws.Length.of_code _
theorem Sys2Proof.Laws.Length.warpRetire (warp : Nat) : Sys2Proof.Laws.Length.Statement (.warpRetire warp) := Sys2Proof.Laws.Length.of_code _
theorem Sys2Proof.Laws.Length.blockRetire (block : Nat) : Sys2Proof.Laws.Length.Statement (.blockRetire block) := Sys2Proof.Laws.Length.of_code _
theorem Sys2Proof.Laws.Length.gridEnd (grid : Nat) : Sys2Proof.Laws.Length.Statement (.gridEnd grid) := Sys2Proof.Laws.Length.of_code _
theorem Sys2Proof.Laws.Length.blockPlacement (island : Nat) : Sys2Proof.Laws.Length.Statement (.blockPlacement island) := Sys2Proof.Laws.Length.of_code _
theorem Sys2Proof.Laws.Length.reservationTimeout (island : Nat) : Sys2Proof.Laws.Length.Statement (.reservationTimeout island) := Sys2Proof.Laws.Length.of_code _
theorem Sys2Proof.Laws.Length.lkpQtailWrite (queue : Nat) (value : Nat) : Sys2Proof.Laws.Length.Statement (.lkpQtailWrite queue value) := Sys2Proof.Laws.Length.of_code _
theorem Sys2Proof.Laws.Length.lkpQbaseWrite (queue : Nat) (value : Nat) : Sys2Proof.Laws.Length.Statement (.lkpQbaseWrite queue value) := Sys2Proof.Laws.Length.of_code _
theorem Sys2Proof.Laws.Length.lkpQctlWrite (queue : Nat) (value : Nat) : Sys2Proof.Laws.Length.Statement (.lkpQctlWrite queue value) := Sys2Proof.Laws.Length.of_code _
theorem Sys2Proof.Laws.Length.recordRelease : Sys2Proof.Laws.Length.Statement (.recordRelease) := Sys2Proof.Laws.Length.of_code _
theorem Sys2Proof.Laws.Length.launchRecordArrival (grid : Nat) : Sys2Proof.Laws.Length.Statement (.launchRecordArrival grid) := Sys2Proof.Laws.Length.of_code _
theorem Sys2Proof.Laws.Length.gridPreempt (grid : Nat) : Sys2Proof.Laws.Length.Statement (.gridPreempt grid) := Sys2Proof.Laws.Length.of_code _
theorem Sys2Proof.Laws.Length.gridResume (grid : Nat) : Sys2Proof.Laws.Length.Statement (.gridResume grid) := Sys2Proof.Laws.Length.of_code _
theorem Sys2Proof.Laws.Length.gridEndRequest (grid : Nat) : Sys2Proof.Laws.Length.Statement (.gridEndRequest grid) := Sys2Proof.Laws.Length.of_code _
theorem Sys2Proof.Laws.Length.blockHalt (block : Nat) : Sys2Proof.Laws.Length.Statement (.blockHalt block) := Sys2Proof.Laws.Length.of_code _
theorem Sys2Proof.Laws.Length.contextRestore (block : Nat) : Sys2Proof.Laws.Length.Statement (.contextRestore block) := Sys2Proof.Laws.Length.of_code _
theorem Sys2Proof.Laws.Length.accessReplay (warp : Nat) (entry : Nat) : Sys2Proof.Laws.Length.Statement (.accessReplay warp entry) := Sys2Proof.Laws.Length.of_code _
theorem Sys2Proof.Laws.Length.replayAsid (island : Nat) (asid : Nat) : Sys2Proof.Laws.Length.Statement (.replayAsid island asid) := Sys2Proof.Laws.Length.of_code _
theorem Sys2Proof.Laws.Length.replayAll (island : Nat) : Sys2Proof.Laws.Length.Statement (.replayAll island) := Sys2Proof.Laws.Length.of_code _
theorem Sys2Proof.Laws.Length.faultRecordPost (island : Nat) : Sys2Proof.Laws.Length.Statement (.faultRecordPost island) := Sys2Proof.Laws.Length.of_code _
theorem Sys2Proof.Laws.Length.islFqheadWrite (island : Nat) (value : Nat) : Sys2Proof.Laws.Length.Statement (.islFqheadWrite island value) := Sys2Proof.Laws.Length.of_code _
theorem Sys2Proof.Laws.Length.islFqbaseWrite (island : Nat) (value : Nat) : Sys2Proof.Laws.Length.Statement (.islFqbaseWrite island value) := Sys2Proof.Laws.Length.of_code _
theorem Sys2Proof.Laws.Length.gets (id : Nat) : Sys2Proof.Laws.Length.Statement (.gets id) := Sys2Proof.Laws.Length.of_code _
theorem Sys2Proof.Laws.Length.getx (id : Nat) : Sys2Proof.Laws.Length.Statement (.getx id) := Sys2Proof.Laws.Length.of_code _
theorem Sys2Proof.Laws.Length.sliceWrite (id : Nat) : Sys2Proof.Laws.Length.Statement (.sliceWrite id) := Sys2Proof.Laws.Length.of_code _
theorem Sys2Proof.Laws.Length.farAtom (id : Nat) : Sys2Proof.Laws.Length.Statement (.farAtom id) := Sys2Proof.Laws.Length.of_code _
theorem Sys2Proof.Laws.Length.wback (id : Nat) : Sys2Proof.Laws.Length.Statement (.wback id) := Sys2Proof.Laws.Length.of_code _
theorem Sys2Proof.Laws.Length.queuedWritePerform (id : Nat) : Sys2Proof.Laws.Length.Statement (.queuedWritePerform id) := Sys2Proof.Laws.Length.of_code _
theorem Sys2Proof.Laws.Length.drainEntry (id : Nat) : Sys2Proof.Laws.Length.Statement (.drainEntry id) := Sys2Proof.Laws.Length.of_code _
theorem Sys2Proof.Laws.Length.recall (id : Nat) : Sys2Proof.Laws.Length.Statement (.recall id) := Sys2Proof.Laws.Length.of_code _
theorem Sys2Proof.Laws.Length.dataMsg (id : Nat) : Sys2Proof.Laws.Length.Statement (.dataMsg id) := Sys2Proof.Laws.Length.of_code _
theorem Sys2Proof.Laws.Length.xdata (id : Nat) : Sys2Proof.Laws.Length.Statement (.xdata id) := Sys2Proof.Laws.Length.of_code _
theorem Sys2Proof.Laws.Length.wack (id : Nat) : Sys2Proof.Laws.Length.Statement (.wack id) := Sys2Proof.Laws.Length.of_code _
theorem Sys2Proof.Laws.Length.aack (id : Nat) : Sys2Proof.Laws.Length.Statement (.aack id) := Sys2Proof.Laws.Length.of_code _
theorem Sys2Proof.Laws.Length.leaseLapse (id : Nat) : Sys2Proof.Laws.Length.Statement (.leaseLapse id) := Sys2Proof.Laws.Length.of_code _
theorem Sys2Proof.Laws.Length.mirrorWrite (id : Nat) : Sys2Proof.Laws.Length.Statement (.mirrorWrite id) := Sys2Proof.Laws.Length.of_code _
theorem Sys2Proof.Laws.Length.mapkCopy (window : Nat) (word : Nat) : Sys2Proof.Laws.Length.Statement (.mapkCopy window word) := Sys2Proof.Laws.Length.of_code _
theorem Sys2Proof.Laws.Length.switchMessage (window : Nat) : Sys2Proof.Laws.Length.Statement (.switchMessage window) := Sys2Proof.Laws.Length.of_code _
theorem Sys2Proof.Laws.Length.cohmodePlainWrite (island : Nat) (value : Nat) : Sys2Proof.Laws.Length.Statement (.cohmodePlainWrite island value) := Sys2Proof.Laws.Length.of_code _
theorem Sys2Proof.Laws.Length.predclr (island : Nat) : Sys2Proof.Laws.Length.Statement (.predclr island) := Sys2Proof.Laws.Length.of_code _
theorem Sys2Proof.Laws.Length.islLeaseWrite (island : Nat) (value : Nat) : Sys2Proof.Laws.Length.Statement (.islLeaseWrite island value) := Sys2Proof.Laws.Length.of_code _
theorem Sys2Proof.Laws.Length.coreDrainWrite (island : Nat) (core : Nat) (value : Nat) : Sys2Proof.Laws.Length.Statement (.coreDrainWrite island core value) := Sys2Proof.Laws.Length.of_code _
theorem Sys2Proof.Laws.Length.mapkRqtailWrite (part : Nat) (island : Nat) (value : Nat) : Sys2Proof.Laws.Length.Statement (.mapkRqtailWrite part island value) := Sys2Proof.Laws.Length.of_code _
theorem Sys2Proof.Laws.Length.mapkRqbaseWrite (part : Nat) (island : Nat) (value : Nat) : Sys2Proof.Laws.Length.Statement (.mapkRqbaseWrite part island value) := Sys2Proof.Laws.Length.of_code _
theorem Sys2Proof.Laws.Length.map (part : Nat) (island : Nat) : Sys2Proof.Laws.Length.Statement (.map part island) := Sys2Proof.Laws.Length.of_code _
theorem Sys2Proof.Laws.Length.unmap (part : Nat) (island : Nat) : Sys2Proof.Laws.Length.Statement (.unmap part island) := Sys2Proof.Laws.Length.of_code _
theorem Sys2Proof.Laws.Length.protect (part : Nat) (island : Nat) : Sys2Proof.Laws.Length.Statement (.protect part island) := Sys2Proof.Laws.Length.of_code _
theorem Sys2Proof.Laws.Length.chtype (part : Nat) (island : Nat) : Sys2Proof.Laws.Length.Statement (.chtype part island) := Sys2Proof.Laws.Length.of_code _
theorem Sys2Proof.Laws.Length.migrate (part : Nat) (island : Nat) : Sys2Proof.Laws.Length.Statement (.migrate part island) := Sys2Proof.Laws.Length.of_code _
theorem Sys2Proof.Laws.Length.asidget (part : Nat) (island : Nat) : Sys2Proof.Laws.Length.Statement (.asidget part island) := Sys2Proof.Laws.Length.of_code _
theorem Sys2Proof.Laws.Length.asidput (part : Nat) (island : Nat) : Sys2Proof.Laws.Length.Statement (.asidput part island) := Sys2Proof.Laws.Length.of_code _
theorem Sys2Proof.Laws.Length.transitTimeout (id : Nat) : Sys2Proof.Laws.Length.Statement (.transitTimeout id) := Sys2Proof.Laws.Length.of_code _
theorem Sys2Proof.Laws.Length.routerForward (what : Forwarded) : Sys2Proof.Laws.Length.Statement (.routerForward what) := Sys2Proof.Laws.Length.of_code _
theorem Sys2Proof.Laws.Length.packetSend (id : Nat) : Sys2Proof.Laws.Length.Statement (.packetSend id) := Sys2Proof.Laws.Length.of_code _
theorem Sys2Proof.Laws.Length.allowanceReturn (node : Nat) (port : Nat) (cls : Nat) (flits : Nat) : Sys2Proof.Laws.Length.Statement (.allowanceReturn node port cls flits) := Sys2Proof.Laws.Length.of_code _
theorem Sys2Proof.Laws.Length.flitAcknowledge (node : Nat) (port : Nat) (flits : Nat) : Sys2Proof.Laws.Length.Statement (.flitAcknowledge node port flits) := Sys2Proof.Laws.Length.of_code _
theorem Sys2Proof.Laws.Length.codewordError (node : Nat) (fault : CodewordFault) : Sys2Proof.Laws.Length.Statement (.codewordError node fault) := Sys2Proof.Laws.Length.of_code _
theorem Sys2Proof.Laws.Length.replayRequest (node : Nat) (port : Nat) (seq : Nat) : Sys2Proof.Laws.Length.Statement (.replayRequest node port seq) := Sys2Proof.Laws.Length.of_code _
theorem Sys2Proof.Laws.Length.replayLimit (node : Nat) (port : Nat) : Sys2Proof.Laws.Length.Statement (.replayLimit node port) := Sys2Proof.Laws.Length.of_code _
theorem Sys2Proof.Laws.Length.sourceFailure (node : Nat) (port : Nat) (window : SourceWindow) : Sys2Proof.Laws.Length.Statement (.sourceFailure node port window) := Sys2Proof.Laws.Length.of_code _
theorem Sys2Proof.Laws.Length.wavelengthChangeRequest (node : Nat) (port : Nat) : Sys2Proof.Laws.Length.Statement (.wavelengthChangeRequest node port) := Sys2Proof.Laws.Length.of_code _
theorem Sys2Proof.Laws.Length.wavelengthChangeAck (node : Nat) (port : Nat) : Sys2Proof.Laws.Length.Statement (.wavelengthChangeAck node port) := Sys2Proof.Laws.Length.of_code _
theorem Sys2Proof.Laws.Length.wavelengthChangeComplete (node : Nat) (port : Nat) : Sys2Proof.Laws.Length.Statement (.wavelengthChangeComplete node port) := Sys2Proof.Laws.Length.of_code _
theorem Sys2Proof.Laws.Length.drain (node : Nat) (port : Nat) : Sys2Proof.Laws.Length.Statement (.drain node port) := Sys2Proof.Laws.Length.of_code _
theorem Sys2Proof.Laws.Length.dark (node : Nat) (port : Nat) : Sys2Proof.Laws.Length.Statement (.dark node port) := Sys2Proof.Laws.Length.of_code _
theorem Sys2Proof.Laws.Length.relock (node : Nat) (port : Nat) : Sys2Proof.Laws.Length.Statement (.relock node port) := Sys2Proof.Laws.Length.of_code _
theorem Sys2Proof.Laws.Length.clrerr (node : Nat) (port : Nat) : Sys2Proof.Laws.Length.Statement (.clrerr node port) := Sys2Proof.Laws.Length.of_code _
theorem Sys2Proof.Laws.Length.drainMarkerAck (node : Nat) (port : Nat) : Sys2Proof.Laws.Length.Statement (.drainMarkerAck node port) := Sys2Proof.Laws.Length.of_code _
theorem Sys2Proof.Laws.Length.darkmaxExpiry (node : Nat) (port : Nat) : Sys2Proof.Laws.Length.Statement (.darkmaxExpiry node port) := Sys2Proof.Laws.Length.of_code _
theorem Sys2Proof.Laws.Length.lightLoss (node : Nat) (port : Nat) : Sys2Proof.Laws.Length.Statement (.lightLoss node port) := Sys2Proof.Laws.Length.of_code _
theorem Sys2Proof.Laws.Length.portTrained (node : Nat) (port : Nat) (farNode : Nat) (farPort : Nat) (farPanel : Nat) : Sys2Proof.Laws.Length.Statement (.portTrained node port farNode farPort farPanel) := Sys2Proof.Laws.Length.of_code _
theorem Sys2Proof.Laws.Length.relockTimeout (node : Nat) (port : Nat) : Sys2Proof.Laws.Length.Statement (.relockTimeout node port) := Sys2Proof.Laws.Length.of_code _
theorem Sys2Proof.Laws.Length.putPacketAtTarget (id : Nat) : Sys2Proof.Laws.Length.Statement (.putPacketAtTarget id) := Sys2Proof.Laws.Length.of_code _
theorem Sys2Proof.Laws.Length.getRequestAtTarget (id : Nat) : Sys2Proof.Laws.Length.Statement (.getRequestAtTarget id) := Sys2Proof.Laws.Length.of_code _
theorem Sys2Proof.Laws.Length.ratomAtTarget (id : Nat) : Sys2Proof.Laws.Length.Statement (.ratomAtTarget id) := Sys2Proof.Laws.Length.of_code _
theorem Sys2Proof.Laws.Length.sourceCounterAdvance (id : Nat) : Sys2Proof.Laws.Length.Statement (.sourceCounterAdvance id) := Sys2Proof.Laws.Length.of_code _
theorem Sys2Proof.Laws.Length.getDataReturn (id : Nat) : Sys2Proof.Laws.Length.Statement (.getDataReturn id) := Sys2Proof.Laws.Length.of_code _
theorem Sys2Proof.Laws.Length.ratomResultReturn (id : Nat) : Sys2Proof.Laws.Length.Statement (.ratomResultReturn id) := Sys2Proof.Laws.Length.of_code _
theorem Sys2Proof.Laws.Length.errorNotice (id : Nat) : Sys2Proof.Laws.Length.Statement (.errorNotice id) := Sys2Proof.Laws.Length.of_code _
theorem Sys2Proof.Laws.Length.retryNotice (id : Nat) : Sys2Proof.Laws.Length.Statement (.retryNotice id) := Sys2Proof.Laws.Length.of_code _
theorem Sys2Proof.Laws.Length.retryResend (id : Nat) : Sys2Proof.Laws.Length.Statement (.retryResend id) := Sys2Proof.Laws.Length.of_code _
theorem Sys2Proof.Laws.Length.notifyAddition (id : Nat) : Sys2Proof.Laws.Length.Statement (.notifyAddition id) := Sys2Proof.Laws.Length.of_code _
theorem Sys2Proof.Laws.Length.islNctrWrite (island : Nat) (counter : Nat) (value : Nat) : Sys2Proof.Laws.Length.Statement (.islNctrWrite island counter value) := Sys2Proof.Laws.Length.of_code _
theorem Sys2Proof.Laws.Length.rankEntryWrite (job : Nat) (island : Nat) (rank : Nat) (value : Nat) : Sys2Proof.Laws.Length.Statement (.rankEntryWrite job island rank value) := Sys2Proof.Laws.Length.of_code _
theorem Sys2Proof.Laws.Length.referenceLoss (loss : ClockLoss) : Sys2Proof.Laws.Length.Statement (.referenceLoss loss) := Sys2Proof.Laws.Length.of_code _
theorem Sys2Proof.Laws.Length.reroot : Sys2Proof.Laws.Length.Statement (.reroot) := Sys2Proof.Laws.Length.of_code _
theorem Sys2Proof.Laws.Length.islandRelock (island : Nat) : Sys2Proof.Laws.Length.Statement (.islandRelock island) := Sys2Proof.Laws.Length.of_code _
theorem Sys2Proof.Laws.Length.itimeCatchUp (island : Nat) : Sys2Proof.Laws.Length.Statement (.itimeCatchUp island) := Sys2Proof.Laws.Length.of_code _
theorem Sys2Proof.Laws.Length.lkpTstageGo (value : Nat) : Sys2Proof.Laws.Length.Statement (.lkpTstageGo value) := Sys2Proof.Laws.Length.of_code _
theorem Sys2Proof.Laws.Length.tableVerify (check : RouterCheck) : Sys2Proof.Laws.Length.Statement (.tableVerify check) := Sys2Proof.Laws.Length.of_code _
theorem Sys2Proof.Laws.Length.tableAnswer : Sys2Proof.Laws.Length.Statement (.tableAnswer) := Sys2Proof.Laws.Length.of_code _
theorem Sys2Proof.Laws.Length.tableCommit : Sys2Proof.Laws.Length.Statement (.tableCommit) := Sys2Proof.Laws.Length.of_code _
theorem Sys2Proof.Laws.Length.budgetPeriodBoundary (island : Nat) : Sys2Proof.Laws.Length.Statement (.budgetPeriodBoundary island) := Sys2Proof.Laws.Length.of_code _
theorem Sys2Proof.Laws.Length.partBudWrite (part : Nat) (island : Nat) (value : Nat) : Sys2Proof.Laws.Length.Statement (.partBudWrite part island value) := Sys2Proof.Laws.Length.of_code _
theorem Sys2Proof.Laws.Length.partCfgWrite (part : Nat) (value : Nat) : Sys2Proof.Laws.Length.Statement (.partCfgWrite part value) := Sys2Proof.Laws.Length.of_code _
theorem Sys2Proof.Laws.Length.partSliceWrite (part : Nat) (island : Nat) (value : Nat) : Sys2Proof.Laws.Length.Statement (.partSliceWrite part island value) := Sys2Proof.Laws.Length.of_code _
theorem Sys2Proof.Laws.Length.partShareWrite (part : Nat) (island : Nat) (value : Nat) : Sys2Proof.Laws.Length.Statement (.partShareWrite part island value) := Sys2Proof.Laws.Length.of_code _
theorem Sys2Proof.Laws.Length.partToffWrite (part : Nat) (value : Nat) : Sys2Proof.Laws.Length.Statement (.partToffWrite part value) := Sys2Proof.Laws.Length.of_code _
theorem Sys2Proof.Laws.Length.partPresWrite (part : Nat) (island : Nat) (presented : Nat) (value : Nat) : Sys2Proof.Laws.Length.Statement (.partPresWrite part island presented value) := Sys2Proof.Laws.Length.of_code _
theorem Sys2Proof.Laws.Length.attestationRequest (part : Nat) : Sys2Proof.Laws.Length.Statement (.attestationRequest part) := Sys2Proof.Laws.Length.of_code _
theorem Sys2Proof.Laws.Length.attestationReport : Sys2Proof.Laws.Length.Statement (.attestationReport) := Sys2Proof.Laws.Length.of_code _
theorem Sys2Proof.Laws.Length.imageKeyEnrol (slot : Nat) (key : Nat) : Sys2Proof.Laws.Length.Statement (.imageKeyEnrol slot key) := Sys2Proof.Laws.Length.of_code _
theorem Sys2Proof.Laws.Length.imageKeyLock : Sys2Proof.Laws.Length.Statement (.imageKeyLock) := Sys2Proof.Laws.Length.of_code _
theorem Sys2Proof.Laws.Length.gaugeEvent (gauge : Nat) (code : Nat) (unit : Nat) (part : Option Nat) (payload : Nat) : Sys2Proof.Laws.Length.Statement (.gaugeEvent gauge code unit part payload) := Sys2Proof.Laws.Length.of_code _
theorem Sys2Proof.Laws.Length.gaugeRunStart (gauge : Nat) : Sys2Proof.Laws.Length.Statement (.gaugeRunStart gauge) := Sys2Proof.Laws.Length.of_code _
theorem Sys2Proof.Laws.Length.gaugeRunEnd (gauge : Nat) : Sys2Proof.Laws.Length.Statement (.gaugeRunEnd gauge) := Sys2Proof.Laws.Length.of_code _
theorem Sys2Proof.Laws.Length.tgpAttEnable (gauge : Nat) (att : Nat) (value : Nat) : Sys2Proof.Laws.Length.Statement (.tgpAttEnable gauge att value) := Sys2Proof.Laws.Length.of_code _
theorem Sys2Proof.Laws.Length.tgpAttVerifyEnd (gauge : Nat) (att : Nat) : Sys2Proof.Laws.Length.Statement (.tgpAttVerifyEnd gauge att) := Sys2Proof.Laws.Length.of_code _
theorem Sys2Proof.Laws.Length.tgpAttDisable (gauge : Nat) (att : Nat) (value : Nat) : Sys2Proof.Laws.Length.Statement (.tgpAttDisable gauge att value) := Sys2Proof.Laws.Length.of_code _
theorem Sys2Proof.Laws.Length.ipendClear (gauge : Nat) (att : Nat) : Sys2Proof.Laws.Length.Statement (.ipendClear gauge att) := Sys2Proof.Laws.Length.of_code _
theorem Sys2Proof.Laws.Length.tgpGwinWrite (gauge : Nat) (part : Nat) (value : Nat) : Sys2Proof.Laws.Length.Statement (.tgpGwinWrite gauge part value) := Sys2Proof.Laws.Length.of_code _
theorem Sys2Proof.Laws.Length.tgpBudWrite (gauge : Nat) (part : Nat) (value : Nat) : Sys2Proof.Laws.Length.Statement (.tgpBudWrite gauge part value) := Sys2Proof.Laws.Length.of_code _
theorem Sys2Proof.Laws.Length.gaugeBudgetPeriod (gauge : Nat) : Sys2Proof.Laws.Length.Statement (.gaugeBudgetPeriod gauge) := Sys2Proof.Laws.Length.of_code _
theorem Sys2Proof.Laws.Length.powerOn : Sys2Proof.Laws.Length.Statement (.powerOn) := Sys2Proof.Laws.Length.of_code _
theorem Sys2Proof.Laws.Length.startWarm : Sys2Proof.Laws.Length.Statement (.startWarm) := Sys2Proof.Laws.Length.of_code _
theorem Sys2Proof.Laws.Length.startCold : Sys2Proof.Laws.Length.Statement (.startCold) := Sys2Proof.Laws.Length.of_code _
theorem Sys2Proof.Laws.Length.stage0 (found : PanelFound) : Sys2Proof.Laws.Length.Statement (.stage0 found) := Sys2Proof.Laws.Length.of_code _
theorem Sys2Proof.Laws.Length.stage1 : Sys2Proof.Laws.Length.Statement (.stage1) := Sys2Proof.Laws.Length.of_code _
theorem Sys2Proof.Laws.Length.stage2 (results : List SiteResult) : Sys2Proof.Laws.Length.Statement (.stage2 results) := Sys2Proof.Laws.Length.of_code _
theorem Sys2Proof.Laws.Length.stage3 : Sys2Proof.Laws.Length.Statement (.stage3) := Sys2Proof.Laws.Length.of_code _
theorem Sys2Proof.Laws.Length.firmwareRecovery (image : List (BitVec 8)) : Sys2Proof.Laws.Length.Statement (.firmwareRecovery image) := Sys2Proof.Laws.Length.of_code _
theorem Sys2Proof.Laws.Length.powerControlAction (island : Nat) (power : Nat) (temp : Nat) : Sys2Proof.Laws.Length.Statement (.powerControlAction island power temp) := Sys2Proof.Laws.Length.of_code _
theorem Sys2Proof.Laws.Length.hbmUncorrectable (island : Nat) (error : HbmError) : Sys2Proof.Laws.Length.Statement (.hbmUncorrectable island error) := Sys2Proof.Laws.Length.of_code _
theorem Sys2Proof.Laws.Length.coreSoftError (island : Nat) (core : Nat) (fails : Bool) : Sys2Proof.Laws.Length.Statement (.coreSoftError island core fails) := Sys2Proof.Laws.Length.of_code _
theorem Sys2Proof.Laws.Length.laserAgeingRefresh (node : Nat) (port : Nat) (source : Nat) (lasa : Nat) (lasb : Nat) : Sys2Proof.Laws.Length.Statement (.laserAgeingRefresh node port source lasa lasb) := Sys2Proof.Laws.Length.of_code _
theorem Sys2Proof.Laws.Length.replaceRequestClear : Sys2Proof.Laws.Length.Statement (.replaceRequestClear) := Sys2Proof.Laws.Length.of_code _
theorem Sys2Proof.Laws.Length.registerWrite (reg : RegName) (index : Nat) (value : Nat) : Sys2Proof.Laws.Length.Statement (.registerWrite reg index value) := Sys2Proof.Laws.Length.of_code _
theorem Sys2Proof.Laws.Length.belyelImageLoad (place : LoadPlace) (image : List (BitVec 8)) : Sys2Proof.Laws.Length.Statement (.belyelImageLoad place image) := Sys2Proof.Laws.Length.of_code _
theorem Sys2Proof.Laws.Length.gaugeMemoryWrite (reach : GaugeReach) (address : Nat) (bytes : List (BitVec 8)) : Sys2Proof.Laws.Length.Statement (.gaugeMemoryWrite reach address bytes) := Sys2Proof.Laws.Length.of_code _
theorem Sys2Proof.Laws.Length.drainMarker (node : Nat) (port : Nat) : Sys2Proof.Laws.Length.Statement (.drainMarker node port) := Sys2Proof.Laws.Length.of_code _
theorem Sys2Proof.Laws.Length.queuedGetxGrant (id : Nat) : Sys2Proof.Laws.Length.Statement (.queuedGetxGrant id) := Sys2Proof.Laws.Length.of_code _
end

