-- ==== Sys2Proof/Tests/Slice0.lean ====
section
/-!
SUPPORT. Tests of one step each, the words and the well-formedness checks, and for every statement a state and operands that meet its
hypotheses. Expected values are those of the spec's own examples.
-/
namespace Sys2Proof.Tests
open Sys2Proof.Machine

-- the evaluations run one after another: each takes a large stack
set_option Elab.async false

/-! ### A small machine: block 0 of grid 1 on core 0 of island 0, one warp of 32 lanes, its group in progress at word 1 of slot 0 -/

def sys : State := State.reset.placeUmavi 0
def grp : Issue := ⟨0, List.range 32, [], ⟨0, 1⟩, 0⟩
/-- The block given local memories: scratchpad, slice with a call area, weight buffer and an owned accumulator tile pair. -/
def sysBlock : Block := { sys.block 0 with scrSize := 4096, sliceSize := 4096, callArea := 1024, wbSize := 65536 }
def sysWarp (x : Warp) : State := { sys with warps := NMap.set sys.warps 0 x }
/-- Lane l's registers 2 and 4 hold 8·l and 0; s1 and s2 are set. -/
def lanesV (f : Nat → BitVec 32) (r : Nat) (w : Warp) : Warp :=
  (List.range 32).foldl (fun (w : Warp) l => w.setVreg l r ⟨f l, true, false⟩) w
def loc : State := { sysWarp (lanesV (fun l => BitVec.ofNat 32 (8 * l)) 2 { sys.warp 0 with acc := [0, 1] }) with blocks := NMap.set sys.blocks 0 sysBlock }
/-- The group's code with ENTRY headers at words 2 and 3 of its slot. -/
def code : State := (loc.writeMem (slotAddr 0 0 0 2) 8 0xFF01005000000100).writeMem (slotAddr 0 0 0 3) 8 0xFF01005000000100

theorem grp_sys : Group sys grp :=
  ⟨by decide +kernel, by decide +kernel, by decide +kernel, by decide +kernel, by decide +kernel, by decide +kernel⟩
theorem grp_loc : Group loc grp :=
  ⟨by decide +kernel, by decide +kernel, by decide +kernel, by decide +kernel, by decide +kernel, by decide +kernel⟩
theorem grp_code : Group code grp :=
  ⟨by decide +kernel, by decide +kernel, by decide +kernel, by decide +kernel, by decide +kernel, by decide +kernel⟩

/-- The warp with v2 = 32 in every lane; and a privileged grid. -/
def narrow : State := sysWarp (lanesV (fun _ => 32) 2 (sys.warp 0))
def priv : State := { sys with grids := NMap.set sys.grids 1 { sys.grid 1 with priv := true } }

theorem witness_integerArithmetic : Group sys grp ∧ (∀ i ∈ ([.iadd ⟨7, 6, 2, 4, 0, 0, 0, 0⟩, .isub ⟨7, 6, 2, 4, 0, 0, 0, 0⟩, .imul ⟨7, 6, 2, 4, 0, 0, 0, 0⟩, .imulh ⟨7, 6, 2, 4, 0, 0, 0, 0⟩, .imad ⟨7, 6, 2, 4, 0, 0, 0, 0, 8, 0, 0, 0⟩, .iaddi ⟨7, 6, 2, 0, 0, 5⟩, .imuli ⟨7, 6, 2, 0, 0, 5⟩, .imin ⟨7, 6, 2, 4, 0, 0, 0, 0⟩, .imax ⟨7, 6, 2, 4, 0, 0, 0, 0⟩, .iabs ⟨7, 6, 2, 0, 0, 0, 0, 0⟩, .ineg ⟨7, 6, 2, 0, 0, 0, 0, 0⟩, .idot4 ⟨7, 6, 2, 4, 0, 0, 12, 8, 8, 0, 0, 0⟩] : List Instr), laneChecks (useOf i) 7 (fun _ => .go) (sys.ctx grp) = .go) :=
  ⟨grp_sys, by decide +kernel⟩

theorem witness_divides : Group sys grp ∧ ∀ p ∈ ([(.idiv ⟨7, 6, 2, 4, 0, 0, 0, 0⟩, ⟨7, 6, 2, 4, 0, 0, 0, 0⟩), (.irem ⟨7, 6, 2, 4, 0, 0, 3, 0⟩, ⟨7, 6, 2, 4, 0, 0, 3, 0⟩)] : List (Instr × WordV3)),
    laneChecks (useOf p.1) 7 (divRules sys p.2 (useOf p.1)) (sys.ctx grp) = .go :=
  ⟨grp_sys, by decide +kernel⟩

/-- MODE.DIVTRAP over lanes whose divisor, v4, is zero. -/
def trapping : State := sysWarp { sys.warp 0 with mode := 8 }
theorem witness_divideTraps : Group trapping grp ∧ ∀ p ∈ ([(.idiv ⟨7, 6, 2, 4, 0, 0, 0, 0⟩), (.irem ⟨7, 6, 2, 4, 0, 0, 0, 0⟩)] : List Instr),
    let c := trapping.ctx grp
    laneChecks (useOf p) 7 (fun _ => .go) c = .go ∧ dividerBusy trapping c = false ∧ c.w.divtrap = true ∧
      (c.members 7).filter (fun l => decide (readInt 0 (argN (operands c.w (useOf p) l) 1) = 0)) ≠ [] :=
  ⟨⟨by decide +kernel, by decide +kernel, by decide +kernel, by decide +kernel, by decide +kernel, by decide +kernel⟩, by decide +kernel⟩

/-- Operands of each case of a division: by zero, the most negative value by −1, and one more than it by −1. -/
theorem witness_divideCases : readInt 0 (argN [5, 0] 1) = 0 ∧
    (tySigned 0 = true ∧ readInt 0 (argN [0x80000000, 0xFFFFFFFF] 0) = -(2 ^ 31 : Nat) ∧ readInt 0 (argN [0x80000000, 0xFFFFFFFF] 1) = -1) ∧
    readInt 0 (argN [0x80000001, 0xFFFFFFFF] 1) ≠ 0 ∧ readInt 0 (argN [0x80000001, 0xFFFFFFFF] 0) ≠ -(2 ^ 31 : Nat) := by decide +kernel

theorem witness_logicLanes : Group sys grp ∧ (∀ i ∈ ([.and ⟨7, 6, 2, 4, 0, 0, 3, 0⟩, .or ⟨7, 6, 2, 4, 0, 0, 3, 0⟩, .xor ⟨7, 6, 2, 4, 0, 0, 3, 0⟩, .not ⟨7, 6, 2, 0, 0, 0, 3, 0⟩, .andi ⟨7, 6, 2, 0, 2, 5⟩, .ori ⟨7, 6, 2, 0, 2, 5⟩, .xori ⟨7, 6, 2, 0, 2, 5⟩, .lut3 ⟨7, 6, 2, 4, 0, 0, 3, 0, 8, 0, 0, 0⟩] : List Instr), laneChecks (useOf i) 7 (fun _ => .go) (sys.ctx grp) = .go) :=
  ⟨grp_sys, by decide +kernel⟩

theorem witness_shiftsFieldsCounts : Group sys grp ∧ (∀ i ∈ ([.shl ⟨7, 6, 2, 4, 0, 0, 3, 0⟩, .shr ⟨7, 6, 2, 4, 0, 0, 3, 0⟩, .sra ⟨7, 6, 2, 4, 0, 0, 3, 0⟩, .extr ⟨7, 6, 2, 4, 0, 0, 15, 0, 8, 0, 0, 0⟩, .bfx ⟨7, 6, 2, 4, 0, 0, 3, 0⟩, .bfi ⟨7, 6, 2, 4, 0, 0, 3, 0, 8, 0, 0, 0⟩, .brev ⟨7, 6, 2, 0, 0, 0, 3, 0⟩, .popc ⟨7, 6, 2, 0, 0, 0, 3, 0⟩, .clz ⟨7, 6, 2, 0, 0, 0, 3, 0⟩, .ctz ⟨7, 6, 2, 0, 0, 0, 3, 0⟩] : List Instr), laneChecks (useOf i) 7 (fun _ => .go) (sys.ctx grp) = .go) :=
  ⟨grp_sys, by decide +kernel⟩

theorem witness_comparesMovesAddresses : Group sys grp ∧ (∀ i ∈ ([.icmp ⟨7, 6, 2, 4, 0, 0, 0, 0⟩, .icmpi ⟨7, 6, 2, 0, 0, 5⟩, .sel ⟨7, 6, 2, 0, 0, 0, 3, 0, 0, 0, 0, 0⟩, .plop ⟨7, 6, 2, 4, 0, 0, 0, 0⟩, .mov ⟨7, 6, 2, 0, 0, 0, 3, 0⟩, .movi ⟨7, 6, 0, 0, 0, 5⟩, .movw ⟨7, 6, 0, 0, 0, 0, 2, 0, 0, 0, 0, 0⟩, .icvt ⟨7, 6, 2, 0, 0, 0, 0, 0⟩, .lea ⟨7, 6, 2, 4, 0, 0, 0, 0⟩, .grpmask ⟨7, 6, 0, 0, 0, 0, 0, 0⟩] : List Instr), laneChecks (useOf i) 7 (fun _ => .go) (sys.ctx grp) = .go) :=
  ⟨grp_sys, by decide +kernel⟩

theorem witness_scalarInstructions : Group sys grp ∧ ∀ i ∈ ([.sadd ⟨7, 3, 1, 2, 0, 0⟩, .ssub ⟨7, 3, 1, 2, 0, 0⟩, .smul ⟨7, 3, 1, 2, 0, 0⟩, .sand ⟨7, 3, 1, 2, 0, 0⟩, .sor ⟨7, 3, 1, 2, 0, 0⟩, .sxor ⟨7, 3, 1, 2, 0, 0⟩, .sshl ⟨7, 3, 1, 2, 0, 0⟩, .sshr ⟨7, 3, 1, 2, 0, 0⟩, .ssra ⟨7, 3, 1, 2, 0, 0⟩, .smin ⟨7, 3, 1, 2, 0, 0⟩, .smax ⟨7, 3, 1, 2, 0, 0⟩, .scmp ⟨7, 3, 1, 2, 0, 5⟩, .smov ⟨7, 3, 0, 0, 0, 0⟩, .ssel ⟨7, 3, 1, 2, 0, 5⟩, .qlop ⟨7, 3, 1, 2, 0, 0⟩, .brec ⟨7, 3, 1, 2, 0, 0⟩, .bget ⟨7, 3, 1, 0, 0, 0⟩] : List Instr), scalarChecks (useOf i) 7 (sys.ctx grp) = .go :=
  ⟨grp_sys, by decide +kernel⟩

theorem witness_floatArithmetic : Group sys grp ∧ (∀ i ∈ ([.fadd ⟨7, 6, 2, 4, 0, 0, 4, 0⟩, .fsub ⟨7, 6, 2, 4, 0, 0, 4, 0⟩, .fmul ⟨7, 6, 2, 4, 0, 0, 4, 0⟩, .ffma ⟨7, 6, 2, 4, 0, 0, 4, 0, 8, 0, 0, 0⟩, .ffrac ⟨7, 6, 2, 0, 0, 0, 4, 0⟩, .fmin ⟨7, 6, 2, 4, 0, 0, 4, 0⟩, .fmax ⟨7, 6, 2, 4, 0, 0, 4, 0⟩, .fabs ⟨7, 6, 2, 0, 0, 0, 4, 0⟩, .fneg ⟨7, 6, 2, 0, 0, 0, 4, 0⟩, .fsgn ⟨7, 6, 2, 4, 0, 0, 4, 1⟩, .fscale ⟨7, 6, 2, 4, 0, 0, 4, 0⟩, .faddi ⟨7, 6, 2, 0, 4, 5⟩, .fmuli ⟨7, 6, 2, 0, 4, 5⟩, .fround ⟨7, 6, 2, 0, 0, 0, 4, 0⟩] : List Instr), laneChecks (useOf i) 7 (fun _ => .go) (sys.ctx grp) = .go) :=
  ⟨grp_sys, by decide +kernel⟩

theorem witness_floatComparesConversions : Group sys grp ∧ (∀ i ∈ ([.fcmp ⟨7, 6, 2, 4, 0, 0, 4, 0⟩, .fclass ⟨7, 6, 2, 0, 0, 0, 4, 0⟩, .fdot2 ⟨7, 6, 2, 4, 0, 0, 6, 8, 8, 0, 0, 0⟩, .fdot4 ⟨7, 6, 2, 4, 0, 0, 8, 8, 8, 0, 0, 0⟩, .fcvt ⟨7, 6, 2, 0, 0, 0, 4, 0⟩, .f2i ⟨7, 6, 2, 0, 0, 0, 0, 0⟩, .i2f ⟨7, 6, 2, 0, 0, 0, 4, 0⟩, .fpack ⟨7, 6, 2, 4, 0, 0, 8, 0, 8, 0, 0, 0⟩, .funpack ⟨7, 6, 2, 0, 0, 0, 6, 0⟩, .fmxsc ⟨7, 6, 2, 0, 0, 0, 4, 0⟩] : List Instr), laneChecks (useOf i) 7 (fun _ => .go) (sys.ctx grp) = .go) :=
  ⟨grp_sys, by decide +kernel⟩

theorem witness_specialFunctions : Group sys grp ∧ (∀ i ∈ ([.fdiv ⟨7, 6, 2, 4, 0, 0, 4, 0⟩, .fsqrt ⟨7, 6, 2, 0, 0, 0, 4, 0⟩, .frsqrt ⟨7, 6, 2, 0, 0, 0, 4, 0⟩, .frcp ⟨7, 6, 2, 0, 0, 0, 4, 0⟩, .fexp2 ⟨7, 6, 2, 0, 0, 0, 4, 0⟩, .flog2 ⟨7, 6, 2, 0, 0, 0, 4, 0⟩, .fsin ⟨7, 6, 2, 0, 0, 0, 4, 0⟩, .fcos ⟨7, 6, 2, 0, 0, 0, 4, 0⟩, .ftanh ⟨7, 6, 2, 0, 0, 0, 4, 0⟩, .fsigm ⟨7, 6, 2, 0, 0, 0, 4, 0⟩] : List Instr), laneChecks (useOf i) 7 (fun _ => .go) (sys.ctx grp) = .go) :=
  ⟨grp_sys, by decide +kernel⟩

/-- Lane exchange over the whole group, every lane arrived; `vote` and its like without a mask. -/
theorem witness_laneExchange : Group sys grp ∧
    (let c := sys.ctx grp
     let late : Ctx → Bool := fun c => !c.arrived 7 none
     let all : Ctx → Nat → List Nat := fun c l => c.contributors 7 none l
     let w : WordV3 := ⟨7, 6, 2, 0, 0, 0, 3, 0⟩
     exchangeChecks 7 (useOf (.shfl w)) false late (fun c l => [(shflFrom c w l).1]) c = .go ∧
     exchangeChecks 7 (useOf (.vote ⟨7, 6, 2, 0, 0, 0, 0, 0⟩)) true late (fun _ l => [l]) c = .go ∧
     exchangeChecks 7 (useOf (.ballot ⟨7, 6, 2, 0, 0, 0, 0, 0⟩)) true late (fun _ l => [l]) c = .go ∧
     exchangeChecks 7 (useOf (.matchLanes w)) false (fun _ => false) (fun c l => l :: matchSet c w l) c = .go ∧
     exchangeChecks 7 (useOf (.qswap w)) false (fun _ => false) (fun c l => [if c.i.lanes.contains (l ^^^ 1) || c.i.helpers.contains (l ^^^ 1) then l ^^^ 1 else l]) c = .go ∧
     exchangeChecks 7 (useOf (.qbcast w)) false (fun _ => false) (fun c l => [if c.i.lanes.contains (l / 4 * 4) || c.i.helpers.contains (l / 4 * 4) then l / 4 * 4 else l]) c = .go ∧
     exchangeChecks 7 (useOf (.wred ⟨7, 6, 2, 0, 0, 0, 0, 0⟩)) false late all c = .go ∧
     exchangeChecks 7 (useOf (.wscan ⟨7, 6, 2, 0, 0, 0, 0, 0⟩)) false late (fun c l => (all c l).filter fun k => k ≤ l) c = .go) :=
  ⟨grp_sys, by decide +kernel⟩

/-- A header at the target (word 2) and no header at word 4. -/
theorem witness_branches : Group code grp ∧
    (let c := code.ctx grp
     (∀ i ∈ ([.br ⟨7, 1, 0, 0⟩, .brq ⟨7, 1, 0, 0⟩, .call ⟨7, 1, 0, 0⟩, .brm ⟨7, 7, 1, 15, 0, 0, 15, 0, 15, 0, 0⟩, .jmpr ⟨7, 0, 6, 0, 0, 0, 0, 0⟩, .nop ⟨7, 0, 0, 0, 0, 0, 0, 0⟩] : List Instr),
       checkEncoding c (useOf i) = .go) ∧
     code.headerAt c 0 2 false = true ∧ code.headerAt c 0 2 true = true ∧ code.headerAt c 0 4 false = false ∧ code.headerAt c 0 4 true = false) :=
  ⟨grp_code, by decide +kernel⟩

/-- `jmpr` and `callr` through v6, which holds 2 in every lane. -/
def far : State := { code with warps := NMap.set code.warps 0 (lanesV (fun _ => 2) 6 (code.warp 0)) }
theorem witness_registerTargets :
    let c := far.ctx grp
    Group far grp ∧ checkEncoding c (useOf (.callr ⟨7, 0, 6, 0, 0, 0, 0, 0⟩)) = .go ∧ checkSources c (useOf (.jmpr ⟨7, 0, 6, 0, 0, 0, 0, 0⟩)) [] = .go ∧
      checkSources c (useOf (.callr ⟨7, 0, 6, 0, 0, 0, 0, 0⟩)) [] = .go ∧
      (∀ l ∈ c.members 7, readV c.w l 6 1 < 8192 ∧ far.headerAt c 0 (readV c.w l 6 1 : Nat) true = true) ∧
      far.headerAt c 0 (1 + 1 : Nat) false = true ∧ c.b.callArea ≤ c.b.sliceSize ∧ ∀ l ∈ c.members 7, 16 * ((c.w.thread l).depth + 1) ≤ c.b.callArea :=
  ⟨⟨by decide +kernel, by decide +kernel, by decide +kernel, by decide +kernel, by decide +kernel, by decide +kernel⟩, by decide +kernel, by decide +kernel,
    by decide +kernel, by decide +kernel, by decide +kernel, by decide +kernel, by decide +kernel⟩

/-- Targets that are none: v6 names word 4, which is no header; no header follows the call; no slot holds the overlay, or its word 4 is no header;
a pair of `brm` names word 4. And a call area that no frame fits. -/
def astray : State := { code with warps := NMap.set code.warps 0 (lanesV (fun _ => 4) 6 (code.warp 0)) }
def cramped : State := { far with blocks := NMap.set far.blocks 0 { sysBlock with callArea := 0 } }
theorem witness_badTargets :
    (let c := astray.ctx grp
     let w : WordV3 := ⟨7, 0, 6, 0, 0, 0, 0, 0⟩
     Group astray grp ∧ checkEncoding c (useOf (.jmpr w)) = .go ∧ checkSources c (useOf (.jmpr w)) [] = .go ∧ astray.headerAt c 0 (1 + 1 : Nat) false = true ∧
       ∀ e ∈ [true, false], (c.members 7).filter (fun l => !(decide (readV c.w l 6 1 < 8192) && astray.headerAt c 0 (readV c.w l 6 1 : Nat) e)) ≠ []) ∧
    (let c := loc.ctx grp
     Group loc grp ∧ loc.headerAt c 0 (1 + 1 : Nat) false = false ∧ checkEncoding c (useOf (.call ⟨7, 1, 0, 0⟩)) = .go ∧
       checkEncoding c (useOf (.callr ⟨7, 0, 6, 0, 0, 0, 0, 0⟩)) = .go ∧ checkEncoding c (useOf (.fcall ⟨7, 2, 1, 0⟩)) = .go ∧
       loc.headerAt c 0 (1 + 3 : Nat) false = false ∧ checkEncoding c (useOf (.brm ⟨7, 7, 3, 15, 0, 0, 15, 0, 15, 0, 0⟩)) = .go) ∧
    (let c := code.ctx grp
     checkEncoding c (useOf (.fcall ⟨7, 2, 1, 0⟩)) = .go ∧ code.headerAt c 0 (1 + 1 : Nat) false = true ∧ c.members 7 ≠ [] ∧ findOverlay code c 1 = none) ∧
    (let c := cramped.ctx grp
     Group cramped grp ∧ checkEncoding c (useOf (.call ⟨7, 1, 0, 0⟩)) = .go ∧ checkSources c (useOf (.callr ⟨7, 0, 6, 0, 0, 0, 0, 0⟩)) [] = .go ∧
       cramped.headerAt c 0 (1 + 1 : Nat) true = true ∧ cramped.headerAt c 0 (1 + 1 : Nat) false = true ∧ bits c.w.wfault.toNat 31 0 = 0 ∧
       (∀ l ∈ c.members 7, readV c.w l 6 1 < 8192 ∧ cramped.headerAt c 0 (readV c.w l 6 1 : Nat) true = true) ∧
       ∃ l ∈ c.members 7, ¬ 16 * ((c.w.thread l).depth + 1) ≤ c.b.callArea) :=
  ⟨⟨⟨by decide +kernel, by decide +kernel, by decide +kernel, by decide +kernel, by decide +kernel, by decide +kernel⟩, by decide +kernel⟩, ⟨grp_loc, by decide +kernel⟩, by decide +kernel, ⟨⟨by decide +kernel, by decide +kernel, by decide +kernel, by decide +kernel, by decide +kernel, by decide +kernel⟩, by decide +kernel⟩⟩

/-- Overlay 1 of image 1 in slot 1, with an ENTRY header at its word 2. -/
def overlays : State := (code.modCore 0 0 fun k => { k with tags := [(1, ⟨1, 1, 0, 0⟩)] }).writeMem (slotAddr 0 0 1 2) 8 0xFF01005000000100
theorem witness_fcall : let c := overlays.ctx grp
    Group overlays grp ∧ checkEncoding c (useOf (.fcall ⟨7, 2, 1, 0⟩)) = .go ∧ findOverlay overlays c 1 = some 1 ∧
      overlays.headerAt c 0 (1 + 1 : Nat) false = true ∧ overlays.headerAt c 1 2 true = true ∧ overlays.headerAt c 1 4 true = false :=
  ⟨⟨by decide +kernel, by decide +kernel, by decide +kernel, by decide +kernel, by decide +kernel, by decide +kernel⟩, by decide +kernel⟩

theorem witness_threadsEnd : Group loc grp ∧ (∀ k ∈ (loc.block 0).warps, ∀ x ∈ (loc.warp k).threads, x.st ≠ .atBarrier) ∧
    checkEncoding (loc.ctx grp) (useOf (.exit ⟨7, 0, 0, 0, 0, 0, 0, 0⟩)) = .go ∧
    checkEncoding (loc.ctx grp) (useOf (.ret ⟨7, 0, 0, 0, 0, 0, 0, 0⟩)) = .go ∧ staleReturns loc (loc.ctx grp) 7 = [] ∧ badReturns loc (loc.ctx grp) 7 = [] :=
  ⟨grp_loc, by decide +kernel⟩

/-- A second warp of the block has yet to arrive; and all lanes of a block at one barrier. -/
def pair : State := { sys with blocks := NMap.set sys.blocks 0 { sys.block 0 with warps := [0, 1] }, warps := NMap.set sys.warps 1 (sys.warp 0) }
def met : State := { sys with warps := NMap.set sys.warps 0 ((sys.warp 0).modThreads (List.range 32) fun t => { t with st := .atBarrier, bar := 3 }) }
theorem pair_active : ∀ k ∈ (pair.block 0).warps, ∀ x ∈ (pair.warp k).threads, x.st ≠ .atBarrier := by decide +kernel
theorem witness_barrier :
    (Group pair grp ∧ checkEncoding (pair.ctx grp) (useOf (.bar ⟨7, 0, 0, 0, 0, 0, 0, 3⟩)) = .go ∧ (∀ l ∈ grp.lanes, pair.outstanding 0 l = [] ∧ (pair.ctx grp).w.parkedReads l = []) ∧
      (∀ m, m ≠ 3 → ∀ k ∈ (pair.block 0).warps, ∀ x ∈ (pair.warp k).threads, ¬ (x.st = .atBarrier ∧ x.bar = m)) ∧
      ∃ k ∈ (pair.block 0).warps, ∃ l, l < (pair.warp k).threads.length ∧ (k = 0 → l ∉ grp.lanes) ∧
        (((pair.warp k).thread l).st = .active ∨ ((pair.warp k).thread l).st = .parked)) ∧
    ((met.block 0).warps.Nodup ∧ met.barrierMet (met.block 0) 3 = true ∧ (∀ k ∈ (met.block 0).warps, (met.warp k).red = [] ∧ (met.warp k).redLate = []) ∧
      ∀ m ∈ met.msgs, m.isDrain = false) :=
  ⟨⟨⟨by decide +kernel, by decide +kernel, by decide +kernel, by decide +kernel, by decide +kernel, by decide +kernel⟩, by decide +kernel,
    by decide +kernel, fun m _ k hk x hx h => absurd h.1 (pair_active k hk x hx), 1, by decide +kernel, 0, by decide +kernel⟩, by decide +kernel⟩

/-- The last group to arrive: every thread of the other warp stands at the barrier. -/
def last : State := { pair with warps := NMap.set pair.warps 1 ((pair.warp 1).modThreads (List.range 32) fun t => { t with st := .atBarrier, bar := 3 }) }
theorem witness_lastArrival : Group last grp ∧ checkEncoding (last.ctx grp) (useOf (.bar ⟨7, 0, 0, 0, 0, 0, 0, 3⟩)) = .go ∧
    (∀ l ∈ grp.lanes, last.outstanding 0 l = [] ∧ (last.ctx grp).w.parkedReads l = []) ∧ grp.lanes ≠ [] ∧
    0 ∈ (last.block 0).warps ∧ (last.block 0).warps.Nodup ∧
    (∀ k ∈ (last.block 0).warps, ∀ l, l < (last.warp k).threads.length → ((last.warp k).thread l).st.live = true → ¬ (k = 0 ∧ l ∈ grp.lanes) →
      ((last.warp k).thread l).st = .atBarrier ∧ ((last.warp k).thread l).bar = 3) ∧
    (∀ k ∈ (last.block 0).warps, (last.warp k).red = [] ∧ (last.warp k).redLate = []) ∧ ∀ m ∈ last.msgs, m.isDrain = false :=
  ⟨⟨by decide +kernel, by decide +kernel, by decide +kernel, by decide +kernel, by decide +kernel, by decide +kernel⟩, by decide +kernel⟩

/-- Special registers; `swr` of TILEW takes a width, here the largest. -/
theorem witness_specialRegisters : let c := narrow.ctx grp
    Group narrow grp ∧ laneChecks (useOf (.srd ⟨7, 6, 0, 0, 6, 5⟩)) 7 (fun _ => .go) c = .go ∧ laneChecks (useOf (.srd ⟨7, 6, 0, 0, 3, 0x10⟩)) 7 (fun _ => .go) c = .go ∧
      laneChecks (useOf (.swr ⟨7, 0, 2, 0, 6, 4⟩)) 7 (fun _ => .go) c = .go ∧ readV c.w ((c.members 7).headD 0) 2 1 = 32 ∧
      laneChecks (useOf (.swr ⟨7, 0, 2, 0, 6, 0x19⟩)) 7 (fun _ => .go) c = .go ∧
      checkEncoding c (useOf (.tilew ⟨7, 0, 0, 0, 0, 32⟩)) = .go ∧ checkEncoding c (useOf (.gmark ⟨7, 0, 0, 0, 0, 5⟩)) = .go ∧
      checkEncoding c (useOf (.sleep ⟨7, 0, 0, 0, 0, 5⟩)) = .go ∧
      checkEncoding c (useOf (.rdlane ⟨7, 6, 2, 31, 0, 0, 15, 0⟩)) = .go ∧ checkEmpty c (useOf (.rdlane ⟨7, 6, 2, 31, 0, 0, 15, 0⟩)) [] = .go ∧
      isDead c.w 31 2 1 = false ∧
      checkEncoding c (useOf (.wrlane ⟨7, 6, 2, 31, 0, 0, 15, 0⟩)) = .go ∧
      checkEmpty c (useOf (.wrlane ⟨7, 6, 2, 31, 0, 0, 15, 0⟩)) ((c.members 7).filter fun l => l == 31) = .go :=
  ⟨⟨by decide +kernel, by decide +kernel, by decide +kernel, by decide +kernel, by decide +kernel, by decide +kernel⟩, by decide +kernel⟩

/-- A grid that is privileged, and one that is not. -/
theorem witness_systemRegisters :
    (let c := priv.ctx grp
     Group priv grp ∧ checkEncoding c (useOf (.sysrd ⟨7, 3, 0, 0, 0, 0x210⟩)) = .go ∧ c.g.priv = true ∧ checkSources c (useOf (.sysrd ⟨7, 3, 0, 0, 0, 0x210⟩)) [] = .go ∧
      checkEncoding c (useOf (.syswr ⟨7, 0, 1, 0, 0, 0x100⟩)) = .go ∧ checkEncoding c (useOf (.syswr ⟨7, 0, 1, 0, 0, 0x110⟩)) = .go ∧
      checkEncoding c (useOf (.syswr ⟨7, 0, 1, 0, 0, 0x211⟩)) = .go ∧ c.qOn 7 = true ∧ checkSources c (useOf (.syswr ⟨7, 0, 1, 0, 0, 0x211⟩)) [] = .go ∧
      -- a q guard that is false, and a selector that none is
      checkEncoding c (useOf (.syswr ⟨0, 0, 1, 0, 0, 0x211⟩)) = .go ∧ c.qOn 0 = false ∧ checkEncoding c (useOf (.syswr ⟨7, 0, 1, 0, 0, 0x210⟩)) = .go) ∧
    Group sys grp ∧ checkEncoding (sys.ctx grp) (useOf (.syswr ⟨7, 0, 1, 0, 0, 0x100⟩)) = .go ∧
    checkEncoding (sys.ctx grp) (useOf (.sysrd ⟨7, 3, 0, 0, 0, 0x212⟩)) = .go ∧ (sys.ctx grp).g.priv = false :=
  ⟨⟨⟨by decide +kernel, by decide +kernel, by decide +kernel, by decide +kernel, by decide +kernel, by decide +kernel⟩, by decide +kernel⟩, grp_sys, by decide +kernel⟩

theorem witness_traps : Group sys grp ∧ checkEncoding (sys.ctx grp) (useOf (.trap ⟨7, 0, 0, 0, 0, 5⟩)) = .go ∧ (sys.ctx grp).members 7 ≠ [] ∧
    checkEncoding (sys.ctx grp) (useOf (.trap ⟨0, 0, 0, 0, 0, 5⟩)) = .go ∧ (sys.ctx grp).members 0 = [] :=
  ⟨grp_sys, by decide +kernel⟩

/-- The first fault of a warp, and one after another of the other class. -/
theorem witness_laneFaults : let x := (sys.warp 0).switchOff [4] 0x20 ⟨0, 1⟩ 0
    (∀ l ∈ [31, 0], l < 32 ∧ l < (sys.warp 0).threads.length) ∧ (sys.warp 0).wfault.toNat % 2 ^ 32 = 0 ∧ x.wfault.toNat % 2 ^ 32 ≠ 0 ∧
      x.wfault.toNat / 2 ^ 32 % 256 = 0x20 := by decide +kernel

/-- A machine for global accesses: a page of 64 KiB at virtual 0x10000 held in the last level's TLB, readable, writable and of page type
SEQ; b0 describes 1,024 elements of 4 bytes there. -/
def leafOf7 (ty : Nat) : Nat := 0x1C3 + 4 * ty + 0x20000 * 2 ^ 32
def rec4 : BitVec 128 := BitVec.ofNat 128 (0x10000 + 2 * 2 ^ 48 + 1024 * 2 ^ 64)
def rec1 : BitVec 128 := BitVec.ofNat 128 (0x10000 + 4096 * 2 ^ 64)
def paged : State := { loc with
  warps := NMap.set loc.warps 0 { loc.warp 0 with b := [(0, rec4), (1, rec1)] }
  tlb := [⟨0, none, 0, 0, 1, 16, leafOf7 0, none⟩] }
theorem grp_paged : Group paged grp :=
  ⟨by decide +kernel, by decide +kernel, by decide +kernel, by decide +kernel, by decide +kernel, by decide +kernel⟩
/-- The same page with type REL, which ordered reductions ask for. -/
def rel : State := { paged with tlb := [⟨0, none, 0, 0, 1, 16, leafOf7 1, none⟩] }
theorem grp_rel : Group rel grp :=
  ⟨by decide +kernel, by decide +kernel, by decide +kernel, by decide +kernel, by decide +kernel, by decide +kernel⟩
/-- An access that stops nothing and waits for nothing, each of whose pages answers. -/
def goes (s : State) (a : Access) : Bool :=
  (stopsOf a (s.resolveAll a a.lanes).1).isEmpty && (s.resolveAll a a.lanes).1.all fun r =>
    match r.2 with
    | .ok e pa => !(s.resolveAll a a.lanes).2.mustWait a r.1 e pa
    | _ => false
theorem mayGo_of_goes {s : State} {a : Access} (h : goes s a = true) : MayGo s a ∧ ∀ r ∈ (s.resolveAll a a.lanes).1, ∃ e pa, r.2 = .ok e pa := by
  simp only [goes, Bool.and_eq_true, List.isEmpty_iff, List.all_eq_true] at h
  refine ⟨⟨h.1, fun r hr => ⟨fun _ hb => ?_, fun e pa he _ => ?_⟩⟩, fun r hr => ?_⟩
  · have := h.2 r hr
    simp [hb] at this
  · have := h.2 r hr
    simpa [he] using this
  · have := h.2 r hr
    split at this
    · next e pa he => exact ⟨e, pa, he⟩
    · exact absurd this (by simp)

theorem witness_localAccesses : Group loc grp ∧
    (∀ p ∈ ([(.ldl, .slice), (.lds, .scratch), (.ldc, .cluster), (.stl, .slice), (.sts, .scratch), (.stc, .cluster)] : List ((WordM → Instr) × Space)),
      let c := loc.ctx grp
      let w : WordM := ⟨7, 6, 0, 2, 0, 2, 0, 0, 0⟩
      laneChecks (useOf (p.1 w)) 7 (localRules loc 7 2 0 4 0) c = .go ∧ ∀ l ∈ c.members 7, (loc.localCell c p.2 l ((readV c.w l 2 1 : Int)) 4).isSome = true) :=
  ⟨grp_loc, by decide +kernel⟩

/-- The berm's window is one granule of 64 KiB. -/
def bermed : State := { loc with grids := NMap.set loc.grids 1 { loc.grid 1 with record := [0, BitVec.ofNat 64 (2 ^ 29)] } }
theorem witness_bermAccesses : Group bermed grp ∧
    (∀ i ∈ ([.ldbm ⟨7, 6, 0, 2, 0, 2, 0, 0, 0⟩, .stbm ⟨7, 6, 0, 2, 0, 2, 0, 0, 0⟩] : List Instr),
      laneChecks (useOf i) 7 (localRules bermed 7 2 0 4 0) (bermed.ctx grp) = .go) ∧
    ∀ l ∈ (bermed.ctx grp).members 7, (bermed.localCell (bermed.ctx grp) .berm l (readV (bermed.ctx grp).w l 2 1 : Int) 4).isSome = true :=
  ⟨⟨by decide +kernel, by decide +kernel, by decide +kernel, by decide +kernel, by decide +kernel, by decide +kernel⟩, by decide +kernel⟩

/-- Scratchpad and cluster atomics; an unsigned 32-bit add with a result. -/
theorem witness_localAtomics : Group loc grp ∧ dropsRel 0 0 = false ∧
    (∀ p ∈ ([(.atoms, .scratch), (.atomc, .cluster)] : List ((WordMA → Instr) × Space)),
      let c := loc.ctx grp
      let w : WordMA := ⟨7, 6, 0, 2, 0, 2, 0, 0, 0, 0, 1, 0, 8, 1, 0, 0, 0⟩
      laneChecks (useOf (p.1 w)) 7 (localRules loc 7 2 0 4 0) c = .go ∧ ∀ l ∈ c.members 7, (loc.localCell c p.2 l (readV c.w l 2 1 : Int) 4).isSome = true) :=
  ⟨grp_loc, by decide +kernel⟩

/-- The last of the operations, compare-and-swap, on an operation that is not of a float type. -/
theorem witness_atomicOperations : isF32or64 1 = false ∧ (7 : Nat) ≤ 7 ∧ (AtomOp.mk 0 64 7 1 0 0 5 9).new 9 = some 5 := by decide +kernel

/-- Loads whose pages answer and wait for nothing. -/
theorem witness_globalLoads : Group paged grp ∧
    (let c := paged.ctx grp
     let w : WordM := ⟨7, 6, 0, 2, 0, 2, 0, 0, 0⟩
     ∀ p ∈ ([(.ldg w, .load), (.ldgWait w, .loadWait)] : List (Instr × AccKind)),
       let a := (accessM w p.2 0 [] []).filled paged c 0 (argsM w false c) []
       let t := paged.setWarp 0 (globalWarp c (useOf p.1) 7 a 1 false)
       laneChecks (useOf p.1) 7 (globalRules paged 7 0 2 0 4) c = .go ∧ a.lanes ≠ [] ∧ goes t a = true) :=
  ⟨grp_paged, by decide +kernel⟩

/-- A helper lane whose index is dead under MODE.PTRAP. -/
def grpH : Issue := ⟨0, List.range 31, [31], ⟨0, 1⟩, 0⟩
def dead : State := { paged with
  issue := some grpH
  warps := NMap.set paged.warps 0 { (paged.warp 0).setVreg 31 2 ⟨0xFFC00001, true, true⟩ with mode := 16 } }
theorem witness_deadHelper : Group dead grpH ∧ (let c := dead.ctx grpH
    let w : WordM := ⟨7, 6, 0, 2, 0, 2, 0, 0, 0⟩
    let a := (accessM w .load 0 [] []).filled dead c 0 (argsM w false c) (c.zeroed w)
    let t := dead.setWarp 0 (globalWarp c (useOf (.ldg w)) 7 a 1 false)
    31 ∈ c.helpers 7 ∧ c.poisoned (useLoad w true) 31 = true ∧ laneChecks (useOf (.ldg w)) 7 (globalRules dead 7 0 2 0 4) c = .go ∧ a.lanes ≠ [] ∧
      goes t a = true) :=
  ⟨⟨by decide +kernel, by decide +kernel, by decide +kernel, by decide +kernel, by decide +kernel, by decide +kernel⟩, by decide +kernel⟩

theorem witness_scalarLoad : Group paged grp ∧
    (let c := paged.ctx grp
     let w : WordM := ⟨7, 6, 0, 2, 0, 2, 0, 0, 0⟩
     let a := sldgAccess w paged c
     let t := paged.setWarp 0 (sldgWarp w c a)
     sldgChecks w paged c = .go ∧ c.members 7 ≠ [] ∧ a.lanes ≠ [] ∧ goes t a = true) ∧
    sldgChecks ⟨0, 6, 0, 2, 0, 2, 0, 0, 0⟩ paged (paged.ctx grp) = .go ∧ (paged.ctx grp).members 0 = [] :=
  ⟨grp_paged, by decide +kernel⟩

theorem witness_globalWrites : Group paged grp ∧
    (let c := paged.ctx grp
     let w : WordM := ⟨7, 6, 0, 2, 0, 2, 0, 0, 0⟩
     let a := (accessM w .store 0 [] []).filled paged c 0 (argsM w true c) []
     let t := paged.setWarp 0 (globalWarp c (useOf (.stg w)) 7 a 1 false)
     laneChecks (useOf (.stg w)) 7 (globalRules paged 7 0 2 0 4) c = .go ∧ a.lanes ≠ [] ∧ goes t a = true) ∧
    (let c := paged.ctx grp
     ∀ p ∈ ([(.atom, .atomic, ⟨7, 6, 0, 2, 0, 2, 0, 0, 0, 0, 1, 0, 8, 1, 0, 0, 0⟩), (.red, .red, ⟨7, 6, 0, 2, 0, 2, 0, 0, 0, 0, 1, 0, 0, 0, 0, 0, 0⟩)] : List ((WordMA → Instr) × AccKind × WordMA)),
       let w := p.2.2
       let a := (accessMA w p.2.1 0 []).filled paged c 0 (argsMA w c) []
       let t := paged.setWarp 0 (globalWarp c (useOf (p.1 w)) 7 a 2 true)
       laneChecks (useOf (p.1 w)) 7 (globalRules paged 7 0 2 0 4) c = .go ∧ a.lanes ≠ [] ∧ goes t a = true) :=
  ⟨grp_paged, by decide +kernel⟩

def redEntry : RedEntry := ⟨2 ^ 33, 0, 4, 1, 0, 0, 0, 0, 0, 0⟩
/-- The warp of `rel` with n entries in its buffer: with room for all its lanes, for some of them, and, where the buffer is on its way, for none. -/
def buffered (n : Nat) (late : Bool) : State :=
  rel.setWarp 0 { rel.warp 0 with red := List.replicate n redEntry, redLate := if late then [redEntry] else [] }
theorem grp_buffered (n : Nat) (late : Bool) : Group (buffered n late) grp := by
  have h : ((buffered n late).warp 0).threads = (rel.warp 0).threads := by simp [buffered]
  exact ⟨grp_rel.on, grp_rel.once, grp_rel.onceH, grp_rel.apart,
    by simpa only [Warp.thread, grp, h] using grp_rel.lanes, by simpa only [grp, h] using grp_rel.helpers⟩
theorem witness_orderedReduction : ∀ s ∈ [buffered 0 false, buffered 1020 false, buffered 0 true],
    let c := s.ctx grp
    let w : WordMA := ⟨7, 6, 0, 2, 0, 2, 0, 0, 0, 0, 4, 0, 0, 0, 0, 0, 0⟩
    let a := (accessMA w .redOrd 0 []).filled s c 0 (argsMA w c) []
    let t := s.setWarp 0 (globalWarp c (useOf (.redOrd w)) 7 a 2 true)
    laneChecks (useOf (.redOrd w)) 7 (globalRules s 7 0 2 0 4) c = .go ∧ a.lanes.length = 32 ∧ goes t a = true := by decide +kernel

/-! ### Gauge runs -/

/-- A run of partition 1 on gauge 0, whose window is page 0 with a trace ring of 64 records, and whose budget is 100. -/
def gz : State :=
  let s := State.reset.placeGauge 0
  let s := (s.setReg .tgpGwin (gaugeIx 0 1) (2 ^ 8 + 2 ^ 16)).setReg .tgpBud (gaugeIx 0 1) (100 + 100 * 2 ^ 24)
  s.modGauge 0 fun x => { x with run := x.run.map fun r => { r with part := 1 } }
def gzRun : GaugeRun := ⟨[], 0, 0, 0, 1, [], 0, 0, []⟩

/-- A run in progress; its partition's LEFT is charged; the window's last 8 bytes are a cell and the 8 past them none. -/
theorem witness_gaugeRuns : gz.activeGauge = some (0, gzRun) ∧ (gz.charged 1).Nodup ∧ gz.charged 1 = [1] ∧
    (∀ p ∈ gz.charged 1, gaugeIx 0 p < 2 ^ 40 ∧ 1 ≤ bits (gz.reg .tgpBud (gaugeIx 0 p)) 47 24) := by decide +kernel
theorem witness_gaugeCells :
    windowCell (gz.chargeGauge 0 1) 0 1 4088 8 8 (gaugeAddr 0 4088) ∧ windowCell (gz.chargeGauge 0 1) 0 1 4092 4 4 (gaugeAddr 0 4092) ∧
    (¬ ∃ p, windowCell (gz.chargeGauge 0 1) 0 1 4096 8 8 p) ∧ ¬ ∃ p, windowCell (gz.chargeGauge 0 1) 0 1 4096 4 4 p := by
  refine ⟨⟨by decide +kernel, by decide +kernel, by decide +kernel⟩, ⟨by decide +kernel, by decide +kernel, by decide +kernel⟩,
    fun ⟨_, h⟩ => absurd h.2.1 (by decide +kernel), fun ⟨_, h⟩ => absurd h.2.1 (by decide +kernel)⟩
/-- Four cells of a sketch of width 16 at window offset 0, for a run whose h0 and h1 are 0. -/
theorem witness_sketch : ∀ k ∈ [0, 1, 2, 3], let ofs := (gzRun.get 1 + 4 * (k * 2 ^ 4 + mix64 (gzRun.get 0 + 0x9E3779B97F4A7C15 * (k + 1)) % 2 ^ 4)) % 2 ^ 64
    ofs % 4 = 0 ∧ ofs + 4 ≤ bits ((gz.chargeGauge 0 1).reg .tgpGwin (gaugeIx 0 1)) 14 8 * 4096 := by decide +kernel

/-! ### Cache controls, fences, engines, tiles, guard slots, counters -/

theorem witness_cacheControls : Group paged grp ∧ laneChecks (useCache ⟨7, 0, 0, 2, 0, 0, 0, 0, 0⟩) 7 (cacheRules ⟨7, 0, 0, 2, 0, 0, 0, 0, 0⟩ paged) (paged.ctx grp) = .go ∧
    ldrecChecks ⟨7, 6, 0, 2, 0, 4, 0, 0, 0⟩ paged (paged.ctx grp) = .go ∧ (paged.ctx grp).members 7 ≠ [] ∧
    (paged.localCell (paged.ctx grp) .scratch 0 (ldrecAddr ⟨7, 6, 0, 2, 0, 4, 0, 0, 0⟩ (paged.ctx grp)) 16).isSome = true ∧
    ldrecChecks ⟨0, 6, 0, 2, 0, 4, 0, 0, 0⟩ paged (paged.ctx grp) = .go ∧ (paged.ctx grp).members 0 = [] :=
  ⟨grp_paged, by decide +kernel⟩

theorem witness_fences : Group loc grp ∧ (∀ w ∈ ([⟨7, 0, 0, 0, 0, 0, 3, 3, 0⟩, ⟨7, 0, 0, 0, 0, 0, 0, 0, 0⟩, ⟨7, 0, 0, 0, 0, 0, 1, 2, 0⟩] : List WordM),
      checkEncoding (loc.ctx grp) (useFence w) = .go) ∧
    checkEncoding (loc.ctx grp) (useUnguarded ⟨7, 0, 0, 0, 0, 0, 0, 0⟩) = .go ∧ (∀ l ∈ grp.lanes, loc.outstanding 0 l = [] ∧ (loc.ctx grp).w.parkedReads l = []) ∧
    (∀ l ∈ grp.lanes, ∀ k ∈ tileOf (loc.warp 0) l, ((loc.warp 0).thread k).st.live = true → k ∈ grp.lanes) :=
  ⟨grp_loc, by decide +kernel⟩

/-- Engine commands: s1 to s3 zero, s4 four, s5 sixteen; guard slot 1 true and slot 2 false. -/
def eng : State := { loc with warps := NMap.set loc.warps 0 { loc.warp 0 with b := [(0, rec4), (1, rec1)], s := [(4, 4), (5, 16)], g := [(1, .isTrue), (2, .isFalse)] } }
def engGo (i : Instr) (w : WordE) (op : Nat) (r : WordE → Ctx → List Nat → Check) : Prop := engineChecks w op (useOf i) (r w) (eng.ctx grp) = .go
theorem witness_engineCommands :
    engGo (.wbload ⟨0, 0, 0, 1, 2, 0, 0, 0, 1, 0x20000⟩) ⟨0, 0, 0, 1, 2, 0, 0, 0, 1, 0x20000⟩ 0xD0 wbloadRules ∧
    engGo (.mloop ⟨0, 0, 0, 1, 2, 3, 0, 0, 0, 0⟩) ⟨0, 0, 0, 1, 2, 3, 0, 0, 0, 0⟩ 0xD1 mloopRules ∧
    engGo (.mloopc ⟨0, 0, 0, 1, 2, 3, 0, 4, 0, 0⟩) ⟨0, 0, 0, 1, 2, 3, 0, 4, 0, 0⟩ 0xD2 mloopcRules ∧
    engGo (.wbzero ⟨0, 0, 0, 0, 0, 0, 0, 0, 0, 0⟩) ⟨0, 0, 0, 0, 0, 0, 0, 0, 0, 0⟩ 0xD6 wbzeroRules ∧
    engGo (.put ⟨0, 0, 0, 1, 2, 3, 4, 5, 64, 0⟩) ⟨0, 0, 0, 1, 2, 3, 4, 5, 64, 0⟩ 0xE0 putRules ∧
    engGo (.get ⟨0, 0, 0, 1, 2, 3, 4, 5, 64, 0⟩) ⟨0, 0, 0, 1, 2, 3, 4, 5, 64, 0⟩ 0xE1 getRules ∧
    engGo (.ratom ⟨0, 0, 0, 1, 2, 3, 0, 0, 0, 0⟩) ⟨0, 0, 0, 1, 2, 3, 0, 0, 0, 0⟩ 0xE2 ratomRules ∧
    engGo (.notify ⟨0, 0, 0, 1, 2, 0, 0, 0, 0, 1⟩) ⟨0, 0, 0, 1, 2, 0, 0, 0, 0, 1⟩ 0xE5 notifyRules ∧
    engGo (.xfill ⟨0, 0, 0, 1, 2, 4, 0, 0, 0, 0⟩) ⟨0, 0, 0, 1, 2, 4, 0, 0, 0, 0⟩ 0xE8 xfillRules ∧
    engGo (.ovld ⟨0, 0, 0, 1, 4, 0, 0, 0, 0, 0⟩) ⟨0, 0, 0, 1, 4, 0, 0, 0, 0, 0⟩ 0xE9 ovldRules ∧
    engGo (.onceinit ⟨0, 0, 0, 1, 4, 0, 0, 0, 0, 0⟩) ⟨0, 0, 0, 1, 4, 0, 0, 0, 0, 0⟩ 0xEA onceinitRules ∧
    engGo (.launch ⟨0, 0, 0, 1, 2, 0, 0, 0, 1, 0⟩) ⟨0, 0, 0, 1, 2, 0, 0, 0, 1, 0⟩ 0xEB launchRules := by
  unfold engGo; decide +kernel
/-- The same under a guard slot that is true, and under one that is false, which decides against the command. -/
theorem witness_engineGuards : Group eng grp ∧
    engineChecks ⟨1, 1, 0, 0, 0, 0, 0, 0, 0, 0⟩ 0xD6 (useOf (.wbzero ⟨1, 1, 0, 0, 0, 0, 0, 0, 0, 0⟩)) (wbzeroRules ⟨1, 1, 0, 0, 0, 0, 0, 0, 0, 0⟩) (eng.ctx grp) = .go ∧
    engineChecks ⟨2, 1, 0, 0, 0, 0, 0, 0, 0, 0⟩ 0xD6 (useOf (.wbzero ⟨2, 1, 0, 0, 0, 0, 0, 0, 0, 0⟩)) (wbzeroRules ⟨2, 1, 0, 0, 0, 0, 0, 0, 0, 0⟩) (eng.ctx grp) = .go ∧
    (eng.ctx grp).w.guard 1 = .isTrue ∧ (eng.ctx grp).w.guard 2 = .isFalse :=
  ⟨⟨by decide +kernel, by decide +kernel, by decide +kernel, by decide +kernel, by decide +kernel, by decide +kernel⟩, by decide +kernel⟩

/-- Tile 1, the last that the warp owns, for binary32; the pair 0 and 1 for binary64. -/
theorem witness_tiles : Group loc grp ∧
    (let c := loc.ctx grp
     let w : WordV4 := ⟨7, 6, 1, 0, 0, 0, 4, 0, 0, 0, 0, 31⟩
     let z : WordV4 := ⟨7, 1, 2, 0, 0, 0, 4, 0, 0, 0, 0, 31⟩
     let d : WordV4 := ⟨7, 0, 2, 0, 0, 0, 5, 0, 0, 0, 0, 31⟩
     (checkEncoding c (useAccrd w)).andThen ((checkSources c (useAccrd w) (c.members 7)).andThen (tileCheck 4 1 c)) = .go ∧
     laneChecks (useAccwr z) 7 (tileCheck 4 1) c = .go ∧ laneChecks (useAccwr d) 7 (tileCheck 5 0) c = .go ∧ c.w.acc.getD 0 0 ≠ c.w.acc.getD 1 0 ∧
     (checkEncoding c (useAcczero ⟨7, 1, 0, 0, 0, 0, 4, 0⟩)).andThen (tileCheck 4 1 c) = .go ∧
     (checkEncoding c (useAcczero ⟨7, 0, 0, 0, 0, 0, 5, 0⟩)).andThen (tileCheck 5 0 c) = .go) :=
  ⟨grp_loc, by decide +kernel⟩

/-- Guard slot 15, the last; a slot that is pending is decided from a predicate and from two s registers. -/
def armed : State := { loc with warps := NMap.set loc.warps 0 { loc.warp 0 with g := [(3, .pending)], gArm := [(3, 1)] } }
theorem witness_guardSlots : Group armed grp ∧ checkEncoding (armed.ctx grp) (useOf (.garm ⟨7, 3, 0, 0, 0, 0, 0, 0⟩)) = .go ∧
    (armed.ctx grp).w.guard 3 = .pending ∧ (armed.ctx grp).w.guard 4 ≠ .pending ∧ checkEncoding (armed.ctx grp) (useOf (.gset ⟨7, 4, 1, 0, 0, 0, 0, 1⟩)) = .go ∧
    checkSources (armed.ctx grp) (useOf (.gset ⟨7, 4, 1, 0, 0, 0, 0, 1⟩)) [] = .go ∧ (∀ l ∈ grp.lanes, (armed.ctx grp).w.parkedReads l = []) ∧
    garmChecks ⟨7, 15, 0, 0, 0, 0, 0, 0⟩ (armed.ctx grp) = .go ∧
    gsetChecks ⟨7, 3, 1, 0, 0, 0, 0, 1⟩ (armed.ctx grp) = .go ∧ gsetChecks ⟨7, 3, 2, 4, 0, 0, 2, 3⟩ (armed.ctx grp) = .go ∧ (armed.ctx grp).members 7 ≠ [] ∧
    laneChecks (useOf (.keymap ⟨7, 6, 2, 0, 0, 0, 3, 0⟩)) 7 (fun _ => .go) (armed.ctx grp) = .go :=
  ⟨⟨by decide +kernel, by decide +kernel, by decide +kernel, by decide +kernel, by decide +kernel, by decide +kernel⟩, by decide +kernel⟩

/-- s1 names a counter on the page of `paged`, s2 one on a page that nothing maps. -/
def counted : State := { paged with warps := NMap.set paged.warps 0 { paged.warp 0 with s := [(1, 0x10010), (2, 0x20000)] } }
theorem witness_counters : Group counted grp ∧
    (let c := counted.ctx grp
     counterChecks ⟨7, 0, 1, 0, 1, 5⟩ (useArm ⟨7, 0, 1, 0, 1, 5⟩) true counted c = .go ∧ c.qOn 7 = true ∧
     (counted.counterAt 0 0x10010 true).1 = .ok (0x200000000 + 16) (leafOf7 0) ∧
     counterChecks ⟨7, 0, 1, 0, 0, 0⟩ (useWaitarr ⟨7, 0, 1, 0, 0, 0⟩) false counted c = .go ∧
     (counted.counterAt 0 0x10010 false).1 = .ok (0x200000000 + 16) (leafOf7 0) ∧
     counterChecks ⟨7, 0, 2, 0, 0, 0⟩ (useWaitarr ⟨7, 0, 2, 0, 0, 0⟩) false counted c = .go ∧ (counted.counterAt 0 0x20000 false).1 = .fault 0x10 ∧
     counterChecks ⟨0, 0, 2, 0, 0, 0⟩ (useWaitarr ⟨0, 0, 2, 0, 0, 0⟩) false counted c = .go ∧ c.qOn 0 = false) :=
  ⟨⟨by decide +kernel, by decide +kernel, by decide +kernel, by decide +kernel, by decide +kernel, by decide +kernel⟩, by decide +kernel⟩

/-! ### Results, waits, engines -/

/-- A finished result of warp 0 in lane 31's v6. -/
def done (k : PendKind) : Pend := ⟨9, 0, 0, 0, k, 6, 4, [], [], [], [], [], [(31, 6, 7)], [(31, 1)], 10, 0, false, [], ⟨0, 1⟩, 0, 0, [], 0, none⟩
def back (k : PendKind) : State := { loc with pend := [done k], clk := 10 }
theorem witness_results : ∀ p ∈ ([([.load, .loadWait, .scalarLoad, .atomic], .scalarLoad), ([.divide], .divide), ([.special], .special), ([.accrd], .accrd),
      ([.keymap], .keymap), ([.ldrec], .ldrec)] : List (List PendKind × PendKind)),
    (back p.2).pend.find? (fun q => q.id == 9 && p.1.contains q.kind) = some (done p.2) ∧ (done p.2).waiting = [] ∧ (done p.2).due ≤ (back p.2).clk ∧
      (∀ x ∈ (done p.2).results, x.1 < 32) ∧ ((back p.2).warp 0).gen.toNat = (done p.2).gen := by decide +kernel

/-- Lane 31 of a `ldg.wait` whose ONCE word is not written. -/
def waiting : Pend := { done .loadWait with waiting := [3], lanes := [⟨31, false, 2 ^ 33, []⟩] }
/-- What the group of a held `waitarr` needs to begin again. -/
def waitEntry : LogEntry := ⟨1, [], ⟨0, 1⟩, 0, [0], [], 0, 0, 0, 0, true, false, [], 4⟩
/-- A lane that sleeps until now; a `ldg.wait` that has waited 65,536 ns; counters that are reached by ARMED, and one that overflowed. -/
def late : State := { loc with
  warps := NMap.set loc.warps 0 ((loc.warp 0).modThread 31 fun t => { t with wake := some 65536 })
  islands := NMap.set loc.islands 0 { loc.isl 0 with itime := 65536 }
  pend := [waiting]
  msgs := [{ Msg.blank 3 .gets 0 0 0 with words := [2 ^ 31], ptype := 2, asker := some 9 }]
  waits := [⟨1, 0, [0], ⟨0, 1⟩, 4096, 0, 0, waitEntry, false⟩, ⟨2, 0, [0], ⟨0, 1⟩, 8192, 0, 0, waitEntry, false⟩]
  mem := Memory.writeN (Memory.writeN loc.mem 4096 (bytesOf 16 (5 + 5 * 2 ^ 64 + 2 ^ 127))) 8192 (bytesOf 16 (2 ^ 126)) }
theorem witness_waits : ((late.warp 0).thread 31).wake = some 65536 ∧ 65536 ≤ late.itime (late.block (late.warp 0).block).island ∧
    late.pend.find? (fun p => p.id == 9 && p.kind == .loadWait) = some waiting ∧
    (late.warp 0).gen.toNat = waiting.gen ∧ 9 ∈ (late.stillWaiting waiting).map (fun q => q.id) ∧ waiting.issueTime + 65536 ≤ late.itime 0 ∧
    (∀ x ∈ late.waits, (∀ l ∈ x.lanes, late.outstanding x.warp l = []) ∧ late.holders 0 (wordsOf x.pa 16) = []) ∧
    (let v := late.readMem 4096 16
     bits v 126 126 = 0 ∧ bits v 127 127 = 1 ∧ bits v 111 64 ≤ bits v 47 0) ∧ bits (late.readMem 8192 16) 126 126 = 1 ∧
    (∀ x ∈ late.waits, x.stale = false ∧ ({ x with stale := true } : WaitArr).stale = true) ∧ late.logTaken 0 < 16 ∧ late.boot.starting = false ∧
    waiting.entry = none ∧ ({ waiting with entry := some 1 } : Pend).entry = some 1 ∧ 1 ∈ [waitEntry].map (fun e => e.num) := by decide +kernel

/-- Commands of warp 0: heads that may start, a matrix loop on tiles of its format and off it, and transfers that are answered. -/
def cmd (op : Nat) (w : WordE) (run : Bool) : Cmd :=
  ⟨5, op, w, [0, 0, 0, 4, 0], rec4, 0, 0, some true, some 0, run, ⟨0, 1⟩, 0, 0, 0, 0, 0, 0, 0, none, [], 0, 0, 0, [], false⟩
def queued (q : Nat) (c : Cmd) : State :=
  { loc with warps := NMap.set loc.warps 0 ((loc.warp 0).pushCmd q c), clk := 16 }
theorem witness_starts : ∀ op ∈ [0xD0, 0xD1, 0xD2, 0xD6, 0xE8, 0xE9], let q := queueOf op
    let c := cmd op ⟨0, 0, 0, 0, 0, 0, 0, 0, 0, 0⟩ false
    ((queued q c).warp 0).headCmd q = some c ∧ (queued q c).mayStart 0 c = true ∧ c.completion = none := by decide +kernel
/-- A job with rank 0 on island 0: a transfer to it, and a notify. -/
def ranked (c : Cmd) : State := { queued 1 c with
  ranks := [(rankKey 0 0 0, 32 + 0xFFFFFFFF * 2 ^ 8)], nranks := [(0, 1)], windows := [(windowKey 0 0 0, 0x10000 + 2 ^ 60 + 4096 * 2 ^ 64)] }
def rankIs (r : RankRes) (e : Nat) : Bool := match r with | .ok x => x == e | _ => false
theorem witness_transferStarts : ∀ op ∈ [0xE0, 0xE1, 0xE2, 0xE5],
    let c := cmd op ⟨0, 0, 0, 0, 0, 0, 0, 0, 0, 0⟩ false
    ((ranked c).warp 0).headCmd 1 = some c ∧ (ranked c).mayStart 0 c = true ∧ rankIs ((ranked c).checkRank 0 c).1 (32 + 0xFFFFFFFF * 2 ^ 8) = true ∧
      c.sourceCounter = none ∧ c.completion = none := by decide +kernel
def loopCmd : Cmd := { cmd 0xD1 ⟨0, 0, 0, 1, 2, 3, 0, 0, 0, 0⟩ true with doneAt := 16, sv := [0, 0, 0, 0, 0], begun := true }
def looping (on : Bool) : State := (queued 0 loopCmd).modCore 0 0 fun k => { k with wtags := if on then (List.range 64).map fun i => (i, (0, 0)) else [] }
theorem witness_kSteps : ∀ on ∈ [true, false], ((looping on).warp 0).loop = some loopCmd ∧ loopCmd.begun = true ∧ loopCmd.stepDue ≤ (looping on).clk ∧
    (looping on).tagsOk ((looping on).block 0) loopCmd (mlBofs loopCmd.sv 0 0).toNat = on ∧
    (mlFmt loopCmd.w == 11) = false := by decide +kernel
/-- A loop of binary64 into the pair of tiles 0 and 1. -/
theorem witness_matrixElement : (mlFmt ⟨0, 0, 0, 1, 2, 3, 0, 0, 11 * 2 ^ 9, 0⟩ == 11) = true ∧ (loc.warp 0).acc.getD 0 0 ≠ (loc.warp 0).acc.getD 1 0 := by decide +kernel
theorem witness_commandEnds :
    (∀ op ∈ [0xE0, 0xE1, 0xE2], let c : Cmd := { cmd op ⟨0, 0, 0, 0, 0, 0, 0, 0, 0, 0⟩ true with bytes := 4 }
      (queued 1 c).cmdOf 5 = some (0, c) ∧ (queued 1 c).unitReady 0 c = true ∧ c.bytes = c.length ∧ c.inFlight = 0) ∧
    (let c := cmd 0xE1 ⟨0, 0, 0, 0, 0, 0, 0, 0, 0, 0⟩ true
     (queued 1 c).cmdOf 5 = some (0, c) ∧ (queued 1 c).unitReady 0 c = true ∧ c.bytes ≠ c.length) ∧
    (let c : Cmd := { loopCmd with k := 1, m := 0, n := 0 }
     (queued 0 c).cmdOf 5 = some (0, c) ∧ (queued 0 c).unitReady 0 c = true ∧ c.completion = none) ∧
    -- the ends of the others: `wbzero`, `xfill`, `ovld`, `onceinit`, `launch`
    (∀ x ∈ [(0xD6, 1, 0), (0xE8, 0, 0), (0xE9, 0, 0), (0xEA, 0, 0), (0xEB, 1, 0)],
      let c : Cmd := { cmd x.1 ⟨0, 0, 0, 0, 0, 0, 0, 0, 0, 0⟩ true with n := x.2.1, bytes := x.2.2 }
      let q := queueOf x.1
      (queued q c).cmdOf 5 = some (0, c) ∧ (queued q c).unitReady 0 c = true ∧ c.completion = none ∧ c.sourceCounter = none ∧ fillDq c.w = false ∧
        c.sv.getD 1 0 = 0 ∧ c.sv.getD 2 0 = 0) ∧
    -- a fill between local memories, its first line
    (∀ mode ∈ [2, 3], let c : Cmd := { cmd 0xE8 ⟨0, 0, 0, 0, 0, 0, 0, 0, BitVec.ofNat _ (mode * 2 ^ 10), 0⟩ true with sv := [0, 0, 512, 0, 0] }
      (queued 2 c).cmdOf 5 = some (0, c) ∧ (queued 2 c).unitReady 0 c = true ∧ fillDq c.w = false ∧ fillMode c.w = mode ∧ c.bytes ≠ c.sv.getD 2 0) ∧
    (let c : Cmd := { cmd 0xE0 ⟨0, 0, 0, 0, 0, 0, 0, 0, 0, 0⟩ true with lineFault := some (256, 0) }
     (queued 1 c).cmdOf 5 = some (0, c) ∧ (queued 1 c).warpUnposted 0 = false) := by decide +kernel
/-! ### Launch, placement, pre-emption, faults -/

def retiring : State := { sys with warps := NMap.set sys.warps 0 ((sys.warp 0).modThreads (List.range 32) fun t => { t with st := .exited }) }
def retired : State := { sys with warps := NMap.set sys.warps 0 { retiring.warp 0 with retired := true } }
/-- Grid 1 with its only block done; its record asks for an end report at LPDDR6 address 4096. -/
def ended (report : Nat) : State := { sys with grids := NMap.set sys.grids 1 { sys.grid 1 with
  done := 1, record := (1 : Word) :: List.replicate 13 0 ++ [BitVec.ofNat 64 report] } }
theorem witness_retirement :
    (let x := retiring.warp 0
     x.threads ≠ [] ∧ x.retired = false ∧ retiring.warpBusy 0 = false ∧ (retiring.block x.block).halting = false) ∧
    (let b := retired.block 0
     b.warps ≠ [] ∧ b.retired = false ∧ b.saved = false ∧ b.halting = false ∧ (∀ w ∈ b.warps, (retired.warp w).retired = true) ∧
       (retired.flushBlock 0).draining 0 = false ∧ (retired.flushBlock 0).postRoom b = true) ∧
    (∀ r ∈ [0, 4096], let g := (ended r).grid 1
     NMap.find? (ended r).grids 1 = some g ∧ g.endCode = 0 ∧ g.status = .inTable ∧ g.done = recBits g.record 0 31 0 ∧
       (ended r).unposted g.island (recordOfGrid 1) = false ∧ recBits g.record 14 47 4 * 16 = r) := by decide +kernel
/-- Grid 1 of one block, being pre-empted or resumed, its block saved. -/
def leaving (st : GridStatus) (code : Nat) : State := { sys with
  grids := NMap.set sys.grids 1 { sys.grid 1 with record := (1 : Word) :: List.replicate 15 0, status := st, endCode := code, preempting := true }
  blocks := NMap.set sys.blocks 0 { sys.block 0 with saved := true } }
theorem witness_gridEnds : (∀ x ∈ [(GridStatus.inTable, 2), (.inTable, 0), (.inTable, 3), (.parked, 0), (.held, 0)], let s := leaving x.1 x.2
      NMap.find? s.grids 1 = some (s.grid 1) ∧ (s.grid 1).endCode = x.2 ∧ (s.grid 1).status = x.1 ∧ s.gridQuiet 1 = true ∧ s.allSaved 1 = true ∧
        (s.grid 1).done ≠ recBits (s.grid 1).record 0 31 0 ∧ (s.grid 1).preempting = true ∧ s.unposted (s.grid 1).island (recordOfGrid 1) = false) ∧
    (let s := leaving .parked 0
     s.tableTaken (s.grid 1).island < 64 ∧ recBerm (s.grid 1).record ≤ s.bermFree (s.grid 1).part (s.grid 1).island) := by decide +kernel

/-- A host with core 0 of island 0 presented in partition 0, ASID 5 live there and rank 0 of job 0 on island 0. -/
def host : State :=
  let s := (State.reset.setReg .partPres (presIx 0 0 0) 256).setReg .lkpQctl 0 1
  { s with asids := [(5, (0, 1))], ranks := [(rankKey 0 24 0, 32)], nranks := [(0, 1)] }
/-- A record of one block of one warp: REGG 1, ASID 5, an overlay of one word. -/
def launchWords : List Word := [1, BitVec.ofNat 64 (1 + 5 * 2 ^ 39), 0, BitVec.ofNat 64 (2 ^ 32)] ++ List.replicate 12 0
def ringed : State := { host with queueRecs := [⟨0, 0, launchWords, 0, true⟩] }
/-- The tail register of an empty ring of 16: its last index, 15; and 16, past it. -/
theorem witness_launchQueues : host.qSize 0 = 16 ∧ (15 < host.qSize 0 ∧ ¬ 16 < host.qSize 0) ∧ (0 + 16 - host.qHead 0 % 16) % 16 ≤ (15 + 16 - host.qHead 0 % 16) % 16 ∧
    host.boot.starting = false ∧ ({ host with boot := { host.boot with starting := true } } : State).boot.starting = true := by decide +kernel
theorem witness_release : NMap.getD ringed.rr releaseClock 0 ≤ ringed.clk ∧ ringed.nextQueue = some 0 ∧
    ringed.headRec 0 = some ⟨0, 0, launchWords, 0, true⟩ ∧ ringed.rankCause launchWords = 0 ∧ launchWords.length = 16 ∧ ringed.gidsInUse.length < 65535 ∧
    (∀ x ∈ ringed.queueRecs, x.queue = 0 → x.index = (ringed.qHead 0 + 1) % ringed.qSize 0 → x.cause = 0) := by
  decide +kernel
def sent : Packet := { Packet.blank 3 .launchRec 24 with grid := 1, record := launchWords, place := .atTarget 0 }
def arriving : State := { host with grids := [(1, { Grid.absent with record := launchWords, status := .released })], packets := [sent] }
theorem witness_arrival : (arriving.packets.find? fun p => p.kind == .launchRec && p.grid == 1 &&
    (match p.place with | .atTarget n => n == (arriving.grid 1).island | _ => false)) = some sent ∧ (arriving.grid 1).status = .released := by decide +kernel
/-- A grid in the table that has waited 16 µs; its code stands in slot 0 already. -/
def placing : State :=
  let s := { host with grids := [(1, { Grid.absent with record := launchWords, status := .inTable, waitingSince := some 0 })] }
  (s.modCore 0 0 fun k => { k with tags := [(0, ⟨0, 0, 0, 5⟩)] }).modIsl 0 fun x => { x with itime := 16000 }
theorem witness_placement :
    (placing.waitingGrids 0).find? (fun p => (placing.fitNext p.1 p.2).isSome) = some (1, placing.grid 1) ∧
    (placing.fitNext 1 (placing.grid 1)) = some ([(0, 0, false)], []) ∧
    (placing.table 0).find? (fun p => !((placing.isl 0).reservers.any fun r => (placing.grid r).part == p.2.part) && match p.2.waitingSince with | some k => decide (k + 16000 ≤ placing.itime 0) | none => false) = some (1, placing.grid 1) ∧
    host.waitingGrids 0 = [] := by decide +kernel

/-- LKP_GRIDCTL on grids that are in the table, parked, held, or absent. -/
def inState (st : GridStatus) (code : Nat) : State := { sys with grids := NMap.set sys.grids 1 { sys.grid 1 with status := st, endCode := code } }
theorem witness_gridctl : sys.gridctl = none ∧ NMap.find? sys.grids 7 = none ∧ (NMap.find? sys.grids 1 = some (sys.grid 1) ∧ (sys.grid 1).status = .inTable ∧
      (sys.grid 1).endCode = 0 ∧ (sys.grid 1).preempting = false) ∧
    -- RES 2: a grid that is parked, one that is in its table, one that has ended
    ¬ (((inState .parked 0).grid 1).status = .inTable) ∧ ¬ (((inState .inTable 0).grid 1).status = .parked ∨ ((inState .inTable 0).grid 1).status = .held) ∧
    ¬ (((inState .inTable 2).grid 1).endCode = 0 ∨ ((inState .inTable 2).grid 1).endCode = 3) ∧
    ((inState .held 3).grid 1).endCode = 3 ∧ (∀ st ∈ [GridStatus.parked, .held], ((inState st 0).grid 1).status = st) ∧
    bits (sys.reg .partIpres (partIx (sys.grid 1).part (sys.grid 1).presIsland)) 5 5 = 0 := by decide +kernel
def halting (k : Nat) : State := { sys with blocks := NMap.set sys.blocks 0 { sys.block 0 with halting := true, haltStep := k }, pend := [{ done .divide with ops := [(31, 0, 7)] }] }
theorem witness_halt : ∀ k ∈ [0, 1], let s := halting k
    let b := s.block 0
    b.halting = true ∧ b.saved = false ∧ (s.isl b.island).inHold = false ∧ (s.grid b.grid).discards = false ∧ b.haltStep = k ∧
      (∀ p ∈ s.groupOf b, ∀ w ∈ p.2.warps, s.writesOut w = false ∧ s.stoppedWork w = false ∧ (s.warp w).midUnit = false) ∧
      ((s.groupOf b).flatMap fun p => p.2.warps).Nodup ∧
      (∀ q ∈ s.pend, q.warp = 0 ∧ q.gen = (s.warp 0).gen.toNat ∧ q.kind ≠ .atomic ∧ q.kind ≠ .ldrec ∧ q.kind ≠ .load ∧ q.entry = none ∧ q.who = []) ∧
      ∀ p ∈ s.groupOf b, ((s.groupOf b).foldl (fun (s : State) p => s.modBlock p.1 fun x => { x with halting := true }) s).draining p.1 = false := by
  decide +kernel
def restoring : State := ({ sys with blocks := NMap.set sys.blocks 0 { sys.block 0 with saved := true } } : State).setReg .partPres (presIx 0 0 0) 256
theorem witness_restore : restoring.awaitsRestore (restoring.block 0) = true ∧ restoring.fitRestore (restoring.block 0) = some ([(0, 0)], []) ∧
    restoring.turn (restoring.block 0).island = some ((restoring.block 0).grid, some 0) := by decide +kernel

/-- A record on chip with room in the island's ring of 16; and a ring that is full. -/
def posted : State := sys.modIsl 0 fun x => { x with onchip := [List.replicate 8 1] }
theorem witness_records : (posted.isl 0).onchip = [List.replicate 8 1] ∧ (List.replicate 8 (1 : Word)).length = 8 ∧ posted.fqFull 0 = false ∧
    (posted.setReg .islFqhead 0 1).fqFull 0 = true := by decide +kernel
/-- Entries of an operand log: a request packet of an `idiv`, and a parked `ldg` and `stg` of lane 0; all marked for replay. -/
def packetEntry : LogEntry := ⟨1, [0x0870180100280000], ⟨0, 1⟩, 0, [31], [(31, 0, 7), (31, 1, 2)], 0, 0, 0, 0, false, true, [], 4⟩
def loadEntry : LogEntry := ⟨2, [0xA0700C0004100000], ⟨0, 1⟩, 0, [0], [(0, 0, 0)], rec4, 0, 0, 0, true, true, [], 4⟩
def storeEntry : LogEntry := { loadEntry with num := 3, words := [0xA2700C0004100000], ops := [(0, 0, 0), (0, 1, 5)] }
def logged (es : List LogEntry) : State := { paged with
  warps := NMap.set paged.warps 0 { paged.warp 0 with log := es }
  stalls := [⟨8, 0, loadEntry, 0, 0x10000, false⟩, ⟨5, 0, loadEntry, 0, 0x10000, false⟩] }
def stalled : State :=
  let s := logged [loadEntry]
  { s with islands := NMap.set s.islands 0 { s.isl 0 with itime := 65536 }
           warps := NMap.set s.warps 0 { s.warp 0 with xq := [cmd 0xE0 ⟨0, 0, 0, 0, 0, 0, 0, 0, 0, 0⟩ true] } }
theorem witness_replays :
    (∀ e ∈ [packetEntry, loadEntry, storeEntry], let s := logged [e]
     (s.warp 0).log.find? (fun x => x.num == e.num) = some e ∧ e.replay = true ∧ (s.warp 0).stopped = false ∧ (s.block (s.warp 0).block).halting = false ∧
       (s.block (s.warp 0).block).saved = false ∧ (∀ x ∈ (s.warp 0).log, x.replay = true → e.num ≤ x.num) ∧
       (e.words.getD 0 0).toNat / 2 ^ 56 ≠ 0xE3 ∧ (e.words.getD 0 0).toNat / 2 ^ 56 ≠ 0xE4 ∧ s.warpUnposted 0 = false ∧ e.going = [] ∧ ∀ k ∈ e.lanes, k < 32) ∧
    (packetEntry.access 0 = none ∧
     (match loadEntry.access 0 with
       | some a => a.lanes.length == 1 && goes (logged [loadEntry]) a && (loadEntry.parkedLanes && a.returns) && a.kind != .scalar &&
           (((logged [loadEntry]).resolveAll a a.lanes).1.any fun r => !((logged [loadEntry]).resolveAll a a.lanes).2.helperZero a r)
       | none => false) = true ∧
     (match storeEntry.access 0 with
       | some a => a.lanes.length == 1 && goes (logged [storeEntry]) a && !(storeEntry.parkedLanes && a.returns)
       | none => false) = true) ∧
    -- the entry after a marked one waits for it
    ∃ e ∈ ((logged [packetEntry, loadEntry]).warp 0).log, e.replay = true ∧ e.num < 2 := by decide +kernel
theorem witness_stalls : (loadEntry.lanes.filter fun l => !(⟨8, 0, loadEntry, 0, 0x10000, false⟩ : Stall).helpers.contains l) ≠ [] ∧
    (logged []).stalls.find? (fun x => x.id == 8) = some ⟨8, 0, loadEntry, 0, 0x10000, false⟩ ∧ (logged []).itime 0 < 0 + 65536 ∧
    0 + 65536 ≤ stalled.itime 0 ∧ stalled.cmdOf 8 = none ∧ stalled.cmdOf 5 = some (0, cmd 0xE0 ⟨0, 0, 0, 0, 0, 0, 0, 0, 0, 0⟩ true) ∧
    stalled.stalls.find? (fun x => x.id == 5) = some ⟨5, 0, loadEntry, 0, 0x10000, false⟩ := by decide +kernel

/-! ### Coherence -/

/-- Words of HBM that requests of core 0 name; the island's time is 100. -/
def w0 : Nat := 2 ^ 31
def at100 : State := loc.modIsl 0 fun x => { x with itime := 100 }
def req (k : MsgKind) (arr : Option Nat) : Msg := { Msg.blank 3 k 0 0 0 with words := [w0], ptype := 1, arr := arr, asker := some 9, expiry := 200 }
def asked (m : Msg) : State := { at100 with msgs := [m], fresh := 50, pend := [{ done .load with waiting := [3] }] }
/-- Another core's exclusive lease on the word. -/
def leased (m : Msg) : State := { asked m with dir := [(w0, ⟨0, 0, some 5, none⟩)] }
/-- A span of core 0 that holds the word; and an operation on it. -/
def held (st : SpanState) : SpanRec := ⟨4, 0, 0, [w0], st, 200, 0, 1, [], [], [], 0⟩
def store : AtomOp := ⟨0, 4 * w0, 8, 1, 0, 0, 7, 0⟩
def owning (k : MsgKind) (st : SpanState) : State := { asked { req k none with ops := [store] } with spans := [held st] }
/-- A migration's window over the word. -/
def dual : DualHome := ⟨0, 0, 2 ^ 33, 2 ^ 33 + 65536, 65536, [], 0, 0⟩
theorem witness_requests :
    (let s := asked (req .gets none)
     s.msg? 3 .gets = some (req .gets none) ∧ s.ready (req .gets none) = true ∧ s.getsFree (req .gets none) = true) ∧
    ((leased (req .gets none)).msg? 3 .gets = some (req .gets none) ∧ (leased (req .gets none)).ready (req .gets none) = true ∧
      (leased (req .gets none)).unwrittenWait (req .gets none) = false ∧ (leased (req .gets none)).getsFree (req .gets none) = false) ∧
    (∀ m ∈ late.msgs, late.msg? 3 .gets = some m ∧ late.ready m = true ∧ late.unwrittenWait m = true) ∧
    (∀ a ∈ [none, some 7], let m := { req .getx a with ops := [store] }
     (asked m).msg? 3 .getx = some m ∧ (asked m).ready m = true ∧ m.solo = false ∧ (asked m).ownsAll 0 0 m.ops = false ∧
       (asked m).mustFar 0 m.words = false ∧ (asked m).getxFree m = true ∧ 3 < (asked m).fresh ∧ (asked m).spans = [] ∧
       (∃ r ∈ (owning .getx .pv).spans, r.island = 0 ∧ r.core = 0 ∧ r.st = .pv ∧ overlaps r.words (opWords m.ops) = true) ∧ ({ asked m with dual := [dual] } : State).mustFar 0 m.words = true ∧
       ((asked m).modIsl 0 fun x => { x with inHold := true }).mustFar 0 m.words = true) ∧
    (∀ k ∈ [MsgKind.write, .atom, .drain], ∀ a ∈ [none, some 7], let m := { req k a with ops := [store] }
     (asked m).msgs.filter (fun x => x.id == 3) = [m] ∧ (asked m).ready m = true ∧ m.acq = false ∧ m.ops ≠ [] ∧ m.words = opWords m.ops ∧
       (∀ o ∈ m.ops, (asked m).ownRec 0 0 (wordsOf o.pa o.bytes) = none) ∧
       (asked m).spans = [] ∧ (asked m).writeFree m = true ∧ (leased m).writeFree m = false ∧ 3 < (asked m).fresh ∧ (asked m).windowOf w0 = none ∧
       (({ asked m with dual := [dual] } : State).windowOf w0).isSome = true) ∧
    (∀ k ∈ [MsgKind.getx, .write], let m := { req k none with ops := [store] }
     (owning k .ex).msgs = [m] ∧ (owning k .ex).ready m = true ∧ (owning k .ex).ownsAll 0 0 m.ops = true ∧ (owning k .ex).mustFar 0 m.words = false ∧
       (owning k .ex).ownRec 0 0 (wordsOf store.pa store.bytes) = some (held .ex)) ∧
    (let m : Msg := { req .wback none with cells := [(4 * w0, 1)] }
     let s : State := { asked m with dual := [dual] }
     (asked m).msg? 3 .wback = some m ∧ (asked m).ready m = true ∧ (asked m).tsFree 0 1 [w0] = true ∧ (asked m).mirrorFree 1 [w0] = true ∧
       (asked m).windowOf w0 = none ∧ s.tsFree 0 1 [w0] = true ∧ s.mirrorFree 1 [w0] = true) ∧
    (let m := req .recall none
     (asked m).msg? 3 .recall = some m ∧ (asked m).ready m = true) := by decide +kernel
/-- A word that the core holds PV, beside a write that names one more: it is written back first. -/
theorem witness_ownPv : ∀ k ∈ [MsgKind.write, .atom], let o : AtomOp := { store with ty := 8 }
    let m : Msg := { req k none with ops := [o], words := [w0, w0 + 1] }
    let s : State := { asked m with spans := [held .pv] }
    s.msgs.filter (fun x => x.id == 3) = [m] ∧ s.ready m = true ∧ 3 < s.fresh ∧ m.ops ≠ [] ∧ m.words = opWords m.ops ∧
      (∀ o ∈ m.ops, s.ownRec 0 0 (wordsOf o.pa o.bytes) = none) ∧
      ∃ r ∈ s.spans, r.island = 0 ∧ r.core = 0 ∧ r.st = .pv ∧ overlaps r.words m.words = true := by decide +kernel
/-- A write of a word that the core holds EX, and of one that it does not. -/
theorem witness_splitWrite : let o : AtomOp := { store with pa := 4 * w0 + 4 }
    let m : Msg := { req .write none with ops := [store, o], words := [w0, w0 + 1] }
    let s : State := { asked m with spans := [held .ex] }
    s.msg? 3 .write = some m ∧ s.ready m = true ∧ m.arr = none ∧ s.ownsAll 0 0 m.ops = false ∧ s.splitOwned 0 0 m.ops = ([store], [o]) := by decide +kernel
def mirrored (since : Nat) : Msg := { req .mirror none with since := since }
theorem witness_mirror : ∀ since ∈ [0, 1, 2], let m := mirrored since
    let s := { asked m with dual := [dual] }
    s.msg? 3 .mirror = some m ∧ s.mirrorFree m.ptype m.words = true ∧ ∀ w ∈ m.words, s.windowOf w = some dual ∧ dual.there w ∉ m.words := by decide +kernel
/-- A drain performed, whose values the core's copy has yet to take. -/
def drained : Msg := { req .drain none with acq := true }
theorem witness_drained : (asked drained).msg? 3 .drain = some drained ∧ (asked drained).ready drained = true ∧ drained.acq = true ∧
    3 < (asked drained).fresh := by decide +kernel

theorem witness_answers : (at100.now.plain.any fun x => x.1 == 0) = false ∧
    (∀ k ∈ [MsgKind.data, .aack, .wack], (asked (req k none)).msg? 3 k = some (req k none) ∧ (asked (req k none)).ready (req k none) = true ∧ 3 < (asked (req k none)).fresh) ∧
    (asked (req .data none)).pend.find? (fun x => x.id == 9) = some { done .load with waiting := [3] } ∧
    (∀ e ∈ [103, 102], let m : Msg := { req .xdata none with expiry := e }
     (asked m).msg? 3 .xdata = some m ∧ (asked m).ready m = true ∧ m.words ≠ [] ∧ (asked m).itime 0 = 100 ∧ (asked m).mustFar 0 m.words = false ∧
       ({ asked m with dual := [dual] } : State).mustFar 0 m.words = true) ∧
    (let r : SpanRec := { held .ex with expiry := 102 }
     let s := { at100 with spans := [r] }
     s.spans.find? (fun x => x.id == 4) = some r ∧ r.usable s = false) := by decide +kernel

/-! ### The fabric -/

/-- A packet at a router, on a link, and at an output port of island 0's port 2, which joins island 1. -/
def pkt (k : PacketKind) (route : Nat) (pl : PacketPlace) : Packet := { Packet.blank 7 k 0 with route := route, place := pl }
def sending (p : Packet) : State := { State.reset with packets := [p] }
/-- A port of island 0 in each state that an event asks for. -/
def ported (f : Port → Port) : State := { State.reset with ports := NMap.set State.reset.ports (portIx 0 2) (f (State.reset.port 0 2)), islands := NMap.set State.reset.islands 0 { State.reset.isl 0 with itime := 2000000 } }
/-- That port and its far end. -/
def joined (f g : Port → Port) : State :=
  { State.reset with ports := NMap.set (NMap.set State.reset.ports (portIx 0 2) (f (State.reset.port 0 2))) (portIx 1 6) (g (State.reset.port 1 6)) }
theorem witness_routers :
    (∀ x ∈ [(0xFFFFFFFF, true), (0xFFFFFFF2, false), (0xFFFFFFF0, false)],
      let p := pkt .putData x.1 (.atRouter 0)
      (sending p).packet? 7 = some p ∧ (decide (8 ≤ p.hop) || routeHop p.route p.hop == 15) = x.2 ∧ p.kind.isResponse = false) ∧
    -- port 2 of island 0 is open; and a port that has failed
    ((sending (pkt .putData 0 (.atRouter 0))).topo.portCode 0 2 % 4 ≠ 0 ∧ bit (State.reset.topo.portCode 0 2) 2 = false ∧
      (State.reset.port 0 2).st ≠ .failed ∧ (State.reset.port 0 2).st ≠ .absent) ∧
    ((ported fun x => { x with st := .failed }).port 0 2).st = .failed ∧
    -- after a fibre: the rest of the route is allowed, and is not
    (State.reset.topo.routeOk 0xFFFFFFF2 8 0 = true ∧ State.reset.topo.routeOk 0xFFFFFFFD 8 0 = false) ∧
    (let p := pkt .putData 0xFFFFFFF2 (.onLink 0 2)
     let t : State := { joined (fun x => { x with rply := [(3, 8)] }) (fun x => { x with asked := some 3 }) with packets := [p] }
     (sending p).packet? 7 = some p ∧ farEnd 0 2 = some (1, 6) ∧ State.reset.topo.live 1 = true ∧ ((sending p).resent 0 2).any (fun f => f.2 == 8) = false ∧
       t.packet? 7 = some p ∧ (t.resent 0 2).any (fun f => f.2 == 8) = true) ∧
    (let p := pkt .putData 0xFFFFFFF2 (.outPort 0 2)
     let t := { ported fun x => { x with st := .failed } with packets := [p] }
     (NMap.find? (sending p).ports (portIx 0 2)) = some (State.reset.port 0 2) ∧ (State.reset.port 0 2).st ≠ .absent ∧ (sending p).maySend 0 2 p = true ∧
       t.packet? 7 = some p ∧ t.maySend 0 2 p = false) ∧
    -- light and a replay buffer to acknowledge; and neither
    ((ported fun x => { x with rply := [(0, 0), (1, 0)] }).port 0 2).lit = true ∧ (min 1 (((ported fun x => { x with rply := [(0, 0), (1, 0)] }).port 0 2).rply.length -
      ((ported fun x => { x with rply := [(0, 0), (1, 0)] }).resent 0 2).length)) = 1 ∧ ((ported fun x => { x with st := .relock }).port 0 2).lit = false := by decide +kernel
/-- Packets that enter the panel: at node 24 from software, and over a fibre port of island 0 to that island. -/
def entering (node : Nat) (port : Option Nat) (kind : Nat) : OutPacket := ⟨node, port, kind, 2, 0, 0xFFFFFFFF, if port.isSome then 1 else 0, [], 0, 0, 0, 0, [1], 1, false, 0, 0, 0, 0, 0, 0, 0, false, 0⟩
/-- Node 24's copy of the entry of rank 0 of job 0, and window 0 of the job there. -/
def soft (e : Nat) (wins : Bool) : State :=
  { State.reset with ranks := [(rankKey 0 24 0, e)], nranks := [(0, 1)], windows := if wins then [(windowKey 0 24 0, 2 ^ 60 + 4096 * 2 ^ 64)] else [] }
/-- The first route from node 24 to island 0. -/
def route24 : Nat := (State.reset.topo.route 24 0).getD 0
theorem witness_arrivals : (∀ k ∈ [0, 1], let o := entering 24 none k
      outRequests[k]?.isSome = true ∧ o.port = none ∧ o.node = 24 ∧ o.kind < 2 ∧ o.payload.length ≤ 256 ∧ o.len ≤ 256) ∧
    ¬ ({ entering 24 none 0 with len := 257 } : OutPacket).len ≤ 256 ∧ State.reset.nranksOf 0 = 0 ∧
    (∀ w ∈ [true, false], let e := 32 + route24 * 2 ^ 8
     let s := soft e w
     0 < s.nranksOf 0 ∧ NMap.getD s.ranks (rankKey 0 24 0) 0 = e ∧ rankOk e = true ∧ bit e 6 = false ∧ s.topo.routeOk (bits e 39 8) 8 24 = true ∧
       (winOk (s.window 0 24 0) = true ∧ 0 + 1 ≤ winSize (s.window 0 24 0) ↔ w = true)) ∧
    (rankOk (32 + 64) = true ∧ bit (32 + 64) 6 = true) ∧ rankOk 0 = false ∧
    (rankOk (32 + 0xFFFFFFFF * 2 ^ 8) = true ∧ bit (32 + 0xFFFFFFFE * 2 ^ 8) 6 = false ∧ State.reset.topo.routeOk 0xFFFFFFFE 8 24 = false) ∧
    (∀ k ∈ [0, 1, 2, 3], let o := entering 0 (some 8) k
      outRequests[k]?.isSome = true ∧ o.node < 24 ∧ farEnd 0 8 = none ∧ (State.reset.port 0 8).lit = true ∧ routeHop o.route o.hop = 15) := by decide +kernel

theorem witness_portStates : NMap.find? State.reset.ports (portIx 0 2) = some (State.reset.port 0 2) ∧ (State.reset.port 0 2).st = .up ∧
    (∀ st ∈ [PortState.draining, .drained, .dark, .relock, .failed], ((ported fun x => { x with st := st }).port 0 2).st = st) ∧
    (let s := ported fun x => { x with st := .draining, mgmtOn := [1], markerSent := true }
     s.mgmtArrived 0 2 1 = true ∧ (s.port 0 2).mgmtQ.contains 1 = false ∧ ((ported fun x => { x with mgmtQ := [1] }).port 0 2).mgmtQ.contains 1 = true ∧ (s.packets.any fun p => p.place == .onLink 0 2) = false) ∧
    (State.reset.port 0 2).rply = [] ∧ (State.reset.port 0 2).markerSent = false ∧ (State.reset.isl 0).inHold = false ∧
    (∀ m ∈ [7, 15], maskCount ((ported fun x => { x with st := .relock, wlmask := m }).port 0 2).wlmask = if m = 7 then 3 else 4) ∧
    (State.reset.port 0 2).heldFar.getD (1, 6, 0) = (1, 6, 0) ∧
    (∀ r ∈ [[], [(0, 0)]], let x := (ported fun x => { x with st := .relock, heldFar := some (2, 6, 0), rply := r }).port 0 2
      x.heldFar.getD (1, 6, 0) ≠ (1, 6, 0) ∧ x.rply = r) ∧
    ((ported fun x => { x with st := .dark, darkmax := 1 }).port 0 2).since + 1000000 * max 1 1 ≤ (ported id).gaugeTime 0 ∧
    16 ≤ ((ported fun x => { x with stuck := 16 }).port 0 2).stuck := by decide +kernel
theorem witness_wavelengths : (State.reset.port 0 2).st ≠ .absent ∧ (State.reset.port 0 2).failedSources.contains 8 = false ∧ (State.reset.port 0 2).change = none ∧
    bit (State.reset.port 0 2).wlmask 0 = true ∧ 4 < (State.reset.port 0 2).usable ∧ bit (State.reset.port 0 2).wlmask 8 = false ∧
    -- errors above and not above the threshold; light below half of what it was at training
    State.reset.errorsHigh 0 2 0 1000000 = true ∧ State.reset.errorsHigh 0 2 0 0 = false ∧ State.reset.lightLow 0 2 0 = false ∧
    (ported fun x => { x with photo := [(0, 1000), (8, 1000)] }).lightLow 0 2 8 = true ∧
    (∀ k ∈ [0, 1, 2], ((ported fun x => { x with change := some (8, k) }).port 0 2).change = some (8, k)) ∧
    ((ported fun x => { x with change := some (8, 0) }).mgmtArrived 0 2 2 = false ∧ (ported fun x => { x with change := some (8, 0), mgmtOn := [2] }).mgmtArrived 0 2 2 = true) ∧
    (let t := joined (fun x => { x with change := some (8, 1) }) (fun x => { x with mgmtOn := [3] })
     State.reset.mgmtArrived 1 6 3 = false ∧ t.mgmtArrived 1 6 3 = true ∧ (t.port 0 2).change = some (8, 1)) ∧
    (∀ k ∈ [0, 8], 4 ≤ maskCount ((State.reset.port 0 2).without k).wlmask) ∧ (State.reset.port 0 2).changeQueue = [] ∧
    (∀ k ∈ [0, 8], 4 ≤ maskCount ((State.reset.port 1 6).takeMask ((State.reset.port 0 2).without k).wlmask).wlmask) ∧
    NMap.find? State.reset.ports (portIx 1 6) = some (State.reset.port 1 6) ∧
    ((ported fun x => { x with failedSources := [8] }).port 0 2).failedSources.contains 8 = true ∧
    ((ported fun x => { x with wlmask := 15, spare := false }).port 0 2).usable ≤ 4 := by decide +kernel

/-- Packets at island 0, whose window 0 of job 0 is the page of `paged` in ASID 0; a counter stands at offset 64 of it. -/
def target (p : Packet) : State :=
  let s := paged.modIsl 0 fun x => { x with itime := 100 }
  let w := { paged.warp 0 with xq := [cmd 0xE0 ⟨0, 0, 0, 0, 0, 0, 0, 0, 0, 0⟩ true] }
  { s with packets := [p], windows := [(windowKey 0 0 0, 0x10000 + 2 ^ 60 + 4096 * 2 ^ 64)], fresh := 50, warps := NMap.set paged.warps 0 w }
def tpkt (k : PacketKind) : Packet := { Packet.blank 7 k 1 with place := .atTarget 0, payload := if k = .ratomReq then [] else [1, 2, 3, 4], len := 4, tcofs := 64, cmd := 5, res := 6 }
def isOk (r : EngOut) : Bool := match r with | .ok _ _ => true | _ => false
theorem witness_targets :
    (∀ k ∈ [PacketKind.putData, .getRequest, .ratomReq, .notify], (target (tpkt k)).atTarget 7 k = some (tpkt k, 0)) ∧
    (let p : Packet := { tpkt .putData with ret := true, tcen := true }
     (target p).atTarget 7 .putData = some (p, 0)) ∧
    (let s := target (tpkt .putData)
     let site : EngSite := ⟨0, none, 0, 0, some 7, 0⟩
     (s.targetWindow (tpkt .putData) 0 0 0 4).map (fun x => (x.1.island, x.1.core, x.1.asid, x.2)) = some (0, none, 0, 0x10000) ∧
     (s.targetWindow (tpkt .putData) 0 0 64 16).map (fun x => (x.1.island, x.1.core, x.1.asid, x.2)) = some (0, none, 0, 0x10040) ∧
     (∀ k ∈ [EngKind.write, .read, .ratom], isOk (s.engResolve site k [(0x10000, 4)]).1 = true ∧ isOk (s.engAccess site k [(0x10000, 4)]) = true) ∧
     isOk (s.engResolve site .counter [(0x10040, 16)]).1 = true ∧ isOk (s.ctrUpdate site 0x10040 (ctrAdd 4)) = true) ∧
    -- bytes past the window
    (∀ k ∈ [PacketKind.putData, .getRequest, .ratomReq], let p := { tpkt k with ofs := 2 ^ 40 }
     (target p).atTarget 7 k = some (p, 0) ∧ (target p).targetWindow p 0 p.win p.ofs 4 = none) ∧
    (let s := target (tpkt .notify)
     (bit ((s.setReg .islNctr (nctrIx 0 0) (2 ^ 47)).reg .islNctr (nctrIx 0 0)) 47 = true ∧ bits (2 ^ 47) 46 40 = (tpkt .notify).part) ∧
       bit (s.reg .islNctr (nctrIx 0 0)) 47 = false) := by decide +kernel
theorem witness_sources :
    (∀ k ∈ [PacketKind.completion, .getData, .ratomResult, .errorNotice, .retryNotice], (target (tpkt k)).atTarget 7 k = some (tpkt k, 0)) ∧
    (let s := target (tpkt .completion)
     s.cmdOf 5 = some (0, cmd 0xE0 ⟨0, 0, 0, 0, 0, 0, 0, 0, 0, 0⟩ true) ∧ (cmd 0xE0 ⟨0, 0, 0, 0, 0, 0, 0, 0, 0, 0⟩ true).lineFault = none ∧
     (s.block (s.warp 0).block).saved = false ∧ (s.warp 0).stopped = false ∧ (NMap.find? s.warps 0).isSome = true ∧
     (∃ c, s.sourceSite { tpkt .completion with scen := true, scva := 0x10040 } 0 = c ∧ isOk (s.ctrUpdate c 0x10040 (ctrAdd 4)) = true) ∧
     isOk (s.engAccess (s.warpSite 0) .write [(0x10000, 4)]) = true) ∧
    (∀ k ∈ [PacketKind.completion, .getData, .ratomResult, .errorNotice, .retryNotice], let p := { tpkt k with origin := 2 }
     (target p).atTarget 7 k = some (p, 0) ∧ p.ofResp = false) ∧
    (tpkt .ratomResult).gen = ((target (tpkt .ratomResult)).warp 0).gen.toNat ∧ (tpkt .errorNotice).origin = 0 ∧ (tpkt .errorNotice).ofResp = false ∧
    ({ tpkt .ratomResult with ret := true } : Packet).ret = true ∧ (tpkt .errorNotice).cls < 256 ∧
    -- a notify's refusal that comes back after its warp has left; and software's transfer whose rank was HELD
    (let p : Packet := { tpkt .errorNotice with grid := 1, warp := 77 }
     (target p).atTarget 7 .errorNotice = some (p, 0) ∧ NMap.find? (target p).grids 1 = some ((target p).grid 1) ∧
       NMap.find? (target p).warps 77 = none ∧ ((target p).grid 1).endCode = 0) ∧
    (let p : Packet := { pkt .putData 0 (.retryWait 0) with origin := 2, res := 2 ^ 32 }
     (sending p).packet? 7 = some p) ∧
    (tpkt .errorNotice).record = [] ∧ (NMap.find? (target { tpkt .errorNotice with grid := 1 }).grids 1).isSome = true ∧
    (sending (pkt .putData 0 (.retryWait 5))).packet? 7 = some (pkt .putData 0 (.retryWait 5)) := by
  refine ⟨by decide +kernel, ⟨by decide +kernel, by decide +kernel, by decide +kernel, by decide +kernel, by decide +kernel, ⟨_, rfl, by decide +kernel⟩,
    by decide +kernel⟩, by decide +kernel⟩
/-! ### The Map Keeper -/

def afterOut (o : Out) (s : State) : State := match o with | .next t => t | _ => s
/-- Partition 0's ring on island 0 at LPDDR6 address 4096, with one request at its head. -/
def ring (op d2 d3 d4 : Nat) (s : State) : State :=
  let s := ((s.setReg .mapkRqbase (partIx 0 0) 4096).setReg .mapkRqtail (partIx 0 0) 1).setReg .mapkRqhead (partIx 0 0) 0
  let bs := bytesOf 8 (op + 5 * 2 ^ 16) ++ bytesOf 8 0x100000 ++ bytesOf 8 d2 ++ bytesOf 8 d3 ++ bytesOf 8 d4
  { s with mapJobs := [], mem := Memory.writeN s.mem (lpddrAddr 4096) bs }
/-- ASID 5 is live on island 0; then one page of 64 KiB of it is mapped at 0x100000 with type REL, readable and writable. -/
def space : State := (State.reset.makeAsid 0 5 0).2
def mapping : State := ring 1 1 (1 + 3 * 2 ^ 4) 0 space
def mappedOne : State := afterOut (execMap 0 0 mapping) mapping
/-- The request at the ring's head, and the state after its record is read. -/
def request (s : State) : Option (State × List Word) :=
  match s.engAccess (s.rqSite 0 0).1 .read [((s.rqSite 0 0).2, 64)] with
  | .ok t ps => some (t, (List.range 8).map fun k => BitVec.ofNat 64 (fieldAt (t.engBytes ps) (8 * k) 8))
  | _ => none
/-- It stands there alone, its operation is `op` and its cause `cause`; the last argument says what else holds of it. -/
def asks (s : State) (op cause : Nat) (P : State → List Word → Bool) : Bool :=
  !s.boot.starting && (s.mapJobs.find? (fun j => j.part == 0 && j.island == 0)).isNone && s.rqHead 0 0 != s.rqTail 0 0 &&
    match request s with
    | some (t, r) => reqOp r == op && t.reqCause 0 0 r == cause && P t r
    | none => false
theorem witness_mapRequests :
    asks mapping 1 0 (fun _ _ => true) = true ∧ asks (ring 2 1 0 0 mappedOne) 2 0 (fun _ _ => true) = true ∧
    asks (ring 3 1 (1 * 2 ^ 4) 0 mappedOne) 3 0 (fun t r => (t.reqMaps 0 r).all fun m => m.pa % 8 == 0) = true ∧
    asks (ring 4 1 0 0 mappedOne) 4 0 (fun t _ => t.maps.all fun m => m.pa % 8 == 0) = true ∧
    asks (ring 5 1 0 0 mappedOne) 5 0 (fun t r => (t.maps.all fun m => m.pa % 8 == 0) &&
      (t.stretches 0 (t.tiedFrames 0 (t.reqMaps 0 r))).all fun g => t.framesIn 0 g.pa g.size == [Frame.mk (reqIsland r) g.pa g.size g.part]) = true ∧
    asks (ring 6 1 0 0 space) 6 0 (fun _ _ => true) = true ∧ asks (ring 7 1 0 0 space) 7 0 (fun _ _ => true) = true := by decide +kernel
/-- Each operation refused: a range of no page; MIGRATE, ASIDPUT and the others of an address space that is not live; ASIDGET with a reserved field. -/
theorem witness_mapRefused : (∀ op ∈ [1, 2, 3, 4, 5], asks (ring op 0 0 0 space) op 0x05 (fun _ _ => true) = true) ∧
    asks (ring (6 + 2 ^ 12) 1 0 0 space) 6 0x0A (fun _ _ => true) = true ∧ asks (ring 7 1 0 0 State.reset) 7 0x09 (fun _ _ => true) = true := by decide +kernel
/-- A job of an operation that waits: for its answer's time, or for its frames. -/
def job (op : Nat) (answer : Bool) : MapJob := ⟨0, 0, op, answer, 5, [(2 ^ 33, 65536)], [], 1, 1, 0⟩
def working (op : Nat) (answer : Bool) : State :=
  let s := mappedOne.modIsl 0 fun x => { x with itime := 100 }
  { s with mapJobs := [job op answer] }
theorem witness_mapJobs : (∀ op ∈ [1, 2, 3, 4, 5, 6, 7], ∀ answer ∈ [true, false], let s := working op answer
      s.boot.starting = false ∧ s.mapJobs.find? (fun j => j.part == 0 && j.island == 0) = some (job op answer)) ∧
    (let s := working 2 true
     isOk (s.engAccess (s.rqSite 0 0).1 .write [((s.rqSite 0 0).2 + 48, 16)]) = true) ∧
    (let s := working 2 false
     let fr := [(2 ^ 33, 65536)]
     let t : State := { s with warps := [(0, { Warp.absent with red := [⟨hbmAddr 0 (2 ^ 33), 0, 4, 1, 0, 0, 0, 0, 0, 0⟩] })] }
     (s.dropSpans 0 fr).framesQuiet 0 fr = true ∧ (s.cleanSpans 0 fr).framesQuiet 0 fr = true ∧ (s.dropSpans 0 fr).msgsQuiet 0 fr = true ∧
       (s.dropSpans 0 fr).rtsPassed 0 fr = true ∧ (s.dropSpans 0 fr).redNames 0 fr = false ∧ (t.dropSpans 0 fr).msgsQuiet 0 fr = true ∧
       (t.dropSpans 0 fr).rtsPassed 0 fr = true ∧ (t.dropSpans 0 fr).redNames 0 fr = true ∧
       (∀ m ∈ s.maps, m.pa % 8 = 0) ∧ s.dual = []) := by decide +kernel
/-- Windows: one whose copy is not done, with a word mirrored or not, and one that is copied. -/
def windowed (copied : Nat) (m : List Nat) : State := { State.reset with dual := [{ dual with copied := copied, mirrored := m }] }
theorem witness_windows : (∀ m ∈ [[], [hbmAddr 0 (2 ^ 33) / 4]], (windowed 0 m).dual[0]? = some { dual with copied := 0, mirrored := m }) ∧ 4 * 0 < dual.size ∧
    -- the new home admits the write, and does not
    (∀ t ∈ [0, 1], ((windowed 0 []).modIsl 0 fun x => { x with itime := t }).tsFree 0 0 [hbmAddr 0 (2 ^ 33 + 65536) / 4] = decide (t = 1)) ∧
    (let s := windowed 16384 []
     s.dual[0]? = some { dual with copied := 16384 } ∧ dual.size ≤ 4 * 16384 ∧ s.boot.starting = false ∧
       (s.dropSpans 0 [(2 ^ 33, 65536)]).framesQuiet 0 [(2 ^ 33, 65536)] = true) ∧
    -- the ring's last index that is taken and the first that is not, and a ring that is empty
    (State.reset.rqSize 0 0 = 16 ∧ (15 < State.reset.rqSize 0 0 ∧ ¬ 16 < State.reset.rqSize 0 0) ∧ State.reset.rqHead 0 0 = State.reset.rqTail 0 0) := by decide +kernel
/-! ### Clocks and tables -/

/-- The panel with island 0 in HOLD, running slowly after its clock, or without its reference. -/
def islanded (f : Island → Island) : State := State.reset.modIsl 0 f
def update (asked : List Nat) (answers : List (Nat × Nat)) (at_ : Option Nat) : Update := ⟨State.reset.topo, [], asked, answers, at_, false, true⟩
def updating (u : Update) (tupd : Nat) : State := { State.reset.setReg .lkpTupd 0 tupd with update := some u, boot := { State.reset.boot with starting := false } }
theorem witness_clocks : State.reset.topo.live 0 = true ∧ ({ State.reset with topo := State.reset.topo.without fun n => n == 0 } : State).topo.live 0 = false ∧
    (let s := islanded fun x => { x with inHold := true }
     (s.isl 0).inHold = true ∧ s.topo.live 0 = true ∧ s.boot.starting = false ∧ s.hasReference 0 = true) ∧
    (let s := islanded fun x => { x with fast := true }
     (s.isl 0).fast = true ∧ (s.isl 0).itime ≤ (s.isl 0).ptime) ∧
    (let s := islanded fun x => { x with reference := false }
     (s.isl 0).reference = false ∧ s.topo.live 0 = true ∧ s.update = none ∧ s.boot.starting = false ∧ s.rootLost = false) ∧ State.reset.clockChildren 1 ≠ [] ∧ bit 1 0 = true ∧ bit 64 0 = false := by decide +kernel
theorem witness_tables :
    (let u := update [0] [] none
     (updating u 0).update = some u ∧ 0 ∈ u.asked) ∧
    (let u := update [] [(0, 0)] none
     (updating u 0).update = some u ∧ (∀ a ∈ u.answers, a.2 = 0) ∧ u.answers ≠ [] ∧ u.asked = [] ∧ u.commitAt = none) ∧
    (let u := update [] [(24, 3)] none
     (updating u 0).update = some u ∧ u.answers.find? (fun a => a.2 != 0) = some (24, 3)) ∧
    -- an aborted attempt: made again, given up, fenced
    (let u := update [] [] none
     u.answers = [] ∧ u.asked = [] ∧ u.commitAt = none ∧ (updating u 0).update = some u ∧ bits ((updating u 16).reg .lkpTupd 0) 4 3 < 3 ∧
       (let s := updating u (24 + 24 * 2 ^ 8)
        bits (s.reg .lkpTupd 0) 4 3 = 3 ∧ s.fencingFor u (bits (s.reg .lkpTupd 0) 12 8) = none) ∧
       (let s := updating u 24
        bits (s.reg .lkpTupd 0) 4 3 = 3 ∧ (s.fencingFor u (bits (s.reg .lkpTupd 0) 12 8)).isSome = true)) ∧
    (let u := update [] [] (some 1)
     (updating u 0).update = some u ∧ u.commitAt = some 1 ∧ (updating u 0).cdItime < 1) ∧
    (let u := update [] [] (some 0)
     (updating u 0).update = some u ∧ u.commitAt = some 0 ∧ 0 ≤ (updating u 0).cdItime) := by decide +kernel

/-! ### Partitions and the root of trust -/

/-- Partition 1 is valid, and partition 2 is valid below it; each may hold clusters of island 0. -/
def parts : State := (State.reset.setReg .partCfg 1 1).setReg .partCfg 2 (1 + 1 * 2 ^ 4)
def sliced : State := (parts.setReg .partSlice (partIx 1 0) 3).setReg .partSlice (partIx 2 0) 1
theorem witness_partitions :
    (parts.partValid 1 = true ∧ parts.partUsed 1 = true ∧ parts.partUsed 2 = false ∧ bit 1 0 = true ∧ bit 16 0 = false) ∧
    (parts.partValid 3 = false ∧
      -- a child of partition 0, of partition 1, of partition 2 (which is no level-1 partition), and of itself
      (bits 1 10 4 = 0) ∧ (bits 17 10 4 = 1 ∧ 1 ≠ 3 ∧ parts.partValid 1 = true ∧ parts.parent 1 = 0) ∧
      ¬ (bits 33 10 4 = 0 ∨ (bits 33 10 4 ≠ 3 ∧ parts.partValid 2 = true ∧ parts.parent 2 = 0)) ∧ ¬ (bits 49 10 4 = 0 ∨ bits 49 10 4 ≠ 3)) ∧
    -- shares that keep the rules, and weights of more than 256
    ((∀ n, n < 24 → (parts.setReg .partCfg 3 1).sharesFit 0 n = true) ∧
      (((parts.setReg .partShare (partIx 1 0) 200).setReg .partShare (partIx 3 0) 200).setReg .partCfg 3 1).sharesFit 0 0 = false) ∧
    (sliced.sliceBusy 2 0 = false ∧
      -- partition 2 asks for cluster 1, which its parent holds, and for cluster 2, which it does not
      (∀ k, k < 20 → ¬ (bit 3 k = true ∧ bit (sliced.clmask 2 0) k = false ∧ bit (sliced.clmask 1 0) k = false)) ∧
      (∀ q ∈ sliced.childrenOf 1, q = 2) ∧ sliced.parent 2 = 1 ∧
      (bit 4 2 = true ∧ bit (sliced.clmask 2 0) 2 = false ∧ bit (sliced.clmask 1 0) 2 = false)) ∧
    (sliced.topo.live 0 = true ∧ 0 < 160 ∧ sliced.coreCode 0 0 ≠ 3 ∧ bit (sliced.clmask 1 0) (0 / 8) = true) := by decide +kernel
/-- The smallest image: a header and one word of code, an ENTRY header. -/
def tiny : List Byte := bytesOf 8 (0x594C4542 + 1 * 2 ^ 32) ++ bytesOf 8 (1 * 2 ^ 32) ++ bytesOf 8 0 ++ bytesOf 8 64 ++ bytesOf 8 80 ++ bytesOf 8 80 ++
  bytesOf 8 80 ++ bytesOf 8 0 ++ bytesOf 8 (1 * 2 ^ 32) ++ bytesOf 8 80 ++ bytesOf 8 0xFF01005000000100
theorem witness_rot :
    (let s : State := { State.reset with boot := { State.reset.boot with atReqs := [3] } }
     s.boot.atReqs = 3 :: []) ∧ parts.partValid 1 = true ∧ parts.partValid 3 = false ∧ State.reset.boot.keyLock = true ∧
    ({ State.reset with boot := { State.reset.boot with keyLock := false } } : State).boot.keyLock = false ∧ State.reset.imgOk 0 [] = false ∧
    space.imgOk 0 tiny = true ∧ space.topo.live 0 = true ∧ (space.loadImage 0 0 5 0 tiny).isSome = true ∧
    State.reset.imgOk 0 tiny = true ∧ (State.reset.loadImage 0 0 5 0 tiny).isNone = true := by decide +kernel

/-! ### Gauge events, starts, the host -/

def gauged (f : Gauge → Gauge) (att bud : Nat) : State :=
  let s := (State.reset.setReg .tgpAtt (gaugeIx 0 2) att).setReg .tgpBud (gaugeIx 0 1) bud
  s.setGauge 0 (f (s.gauge 0))
def runOf : GaugeRun := ⟨[], 0, 0, 2, 1, [], 5, 0, []⟩
theorem witness_gaugeEvents :
    ((gaugeCodes 0).contains 0x20 = true ∧ attMatches ((gauged id (1 + 1 * 2 + 0x20 * 2 ^ 8) 0).reg .tgpAtt (gaugeIx 0 2)) 0x20 0 (some 1) = true) ∧
    (∀ bud ∈ [64 * 2 ^ 24, 63 * 2 ^ 24], let s := gauged (fun x => { x with queue := [⟨0x20, 0, some 1, 9, 7, 2⟩] }) (1 + 1 * 2 + 0x20 * 2 ^ 8) bud
     (s.gauge 0).run = none ∧ (s.gauge 0).queue = [⟨0x20, 0, some 1, 9, 7, 2⟩] ∧ bits (s.reg .tgpAtt (gaugeIx 0 2)) 7 1 = 1 ∧ s.charged 1 = [1] ∧
       s.gaugeLeft 0 1 = bud / 2 ^ 24) ∧
    (runOf.att < 16 ∧ runOf.part < 128 ∧ (let w := (State.reset.setReg .islNctr (nctrIx 0 5) (2 ^ 47 + 2 ^ 40)).reg .islNctr (nctrIx 0 5)
     bit w 47 = true ∧ bits w 46 40 = runOf.part) ∧ (∀ b ∈ [true, false], bit ((gauged id (if b then 2 ^ 35 else 0) 0).reg .tgpAtt (gaugeIx 0 2)) 35 = b)) ∧
    (∀ ts ∈ [[], [Trigger.frz]], let s := gauged (fun x => { x with run := some { runOf with triggers := ts }, ending := true }) 0 0
     (s.gauge 0).run = some { runOf with triggers := ts } ∧ (s.gauge 0).ending = true) ∧
    bit ((gauged id 0 0).reg .tgpAtt (gaugeIx 0 2)) 0 = false ∧ bit ((gauged id 1 0).reg .tgpAtt (gaugeIx 0 2)) 0 = true ∧
    (((gauged (fun x => { x with atts := [(2, ⟨0, true⟩)] }) 0 0).gauge 0).att 2).verifying = true ∧
    -- a window that ends at 64, one that ends past it, and one that clashes with partition 1's
    (¬ 64 < bits (60 + 4 * 2 ^ 8) 5 0 + bits (60 + 4 * 2 ^ 8) 14 8) ∧ (64 < bits (60 + 5 * 2 ^ 8) 5 0 + bits (60 + 5 * 2 ^ 8) 14 8) ∧
    (∀ p, p < 128 → p ≠ 2 → windowsOverlap (60 + 4 * 2 ^ 8) ((gauged id 0 0).reg .tgpGwin (gaugeIx 0 p)) = false) ∧
    windowsOverlap (60 + 4 * 2 ^ 8) (((gauged id 0 0).setReg .tgpGwin (gaugeIx 0 1) (62 + 1 * 2 ^ 8)).reg .tgpGwin (gaugeIx 0 1)) = true := by decide +kernel

/-- A start at a stage; and one whose firmware was refused. -/
def starting (stage : Nat) : State := { State.reset with boot := { State.reset.boot with starting := true, stage := stage, fail := false } }
def failed : State := { State.reset with boot := { State.reset.boot with starting := true, stage := 0, fail := true, kind := 2 } }
theorem witness_stages : State.reset.boot.starting = false ∧ (∀ k ∈ [0, 1, 2, 3], (starting k).boot.starting = true ∧ (starting k).boot.stage = k ∧ (starting k).boot.fail = false) ∧
    (let s : State := { starting 0 with boot := { (starting 0).boot with kind := 1, begun := (starting 0).clk } }
     s.boot.starting = true ∧ s.boot.kind = 1 ∧ s.boot.stage = 0 ∧ s.boot.begun = s.clk ∧ ¬ (s.boot.begun = ({ s with clk := s.clk + 1 } : State).clk)) ∧
    (∃ n ∈ [30, 0], n < 24 ∧ (({ State.reset.setIsl 0 { State.reset.isl 0 with powered := false } with boot := { State.reset.boot with sites := [30, 0] } } : State).isl n).powered = false) ∧
    firmwareOk [] = false ∧ (failed.boot.starting = true ∧ failed.boot.fail = true ∧ failed.boot.kind = 2) ∧ (starting 3).topo.tver ≠ 0 ∧
    (let s : State := { starting 3 with topo := { State.reset.topo with tver := 0 } }
     s.topo.tver = 0 ∧ s.update = none) := by decide +kernel
/-- Data of a word on its way to a load of its lane 31. -/
def reading : State := { asked { req .data none with words := [w0] } with pend := [{ done .load with waiting := [3], lanes := [⟨31, false, 4 * w0, []⟩] }] }
theorem witness_poison : (hbmAddr 0 ((4 * w0) % hbmSize) / 4 = w0) ∧ ∀ m ∈ reading.msgs, m.carriesRead = true ∧ m.island = 0 ∧ w0 ∈ m.words ∧
    ∀ p ∈ reading.pend, m.asker = some p.id ∧ p.readers m w0 = [31] := by decide +kernel
theorem witness_host : State.reset.coreCode 0 0 ≠ 3 ∧ (0, 0) ∉ State.reset.retireCores ∧ 105 < 106 ∧
    (∀ v ∈ [1000 * 2 ^ 22, 2000 * 2 ^ 22], let x := (State.reset.setReg .pwrIsl 0 v).reg .pwrIsl 0
     bits x 33 22 = 1000 ∨ (1000 < bits x 33 22 ∧ bits x 33 22 ≤ 2000)) := by decide +kernel
/-! ### Issue and steps -/

/-- The warp of `sys` with no group in progress: one waits to be chosen. -/
def ready : State := { sys with issue := none }
def owedWarp (f : Warp → Warp) : State := sysWarp (f (sys.warp 0))
theorem witness_issue : ready.issue = none ∧ (match execWarpIssueSelect 0 0 0 ready with | .next t => t.issue.isSome | _ => false) = true ∧
    (ready.warp 0).threads.length ≤ 32 ∧ ready.readyGroups 0 ≠ [] ∧ ready.readyWarps 0 0 0 ≠ [] ∧
    (∀ f ∈ [true, false], let s := owedWarp fun w => { w with floor := f, waited := if f then 48 else 256, spinCount := 64 }
     (s.warp 0).owed = none ∧ (if (s.warp 0).floor then 48 else 256) ≤ (s.warp 0).waited ∧ (s.warp 0).spinCount = 64 ∧ (s.warp 0).floor = f) ∧
    (let s := (owedWarp fun w => { w with floor := true }).modIsl 0 fun x => { x with itime := 16000 }
     (s.warp 0).floor = true ∧ (s.warp 0).floorAt + 16000 ≤ s.itime 0) := by decide +kernel
/-- A ready group and a ready warp, and their like with each key that the order compares. -/
theorem witness_order : ∃ g ∈ ready.readyGroups 0, ∃ w ∈ ready.readyWarps 0 0 0,
    (({ g with starved := true } : ReadyGroup).starved = true ∧ ({ g with starved := false } : ReadyGroup).starved = false) ∧
    (({ g with isHeld := false } : ReadyGroup).isHeld = false ∧ ({ g with isHeld := true } : ReadyGroup).isHeld = true) ∧
    ({ g with depth := 0 } : ReadyGroup).depth < ({ g with depth := 1 } : ReadyGroup).depth ∧
    (({ w with owed := some 3 } : ReadyWarp).owed ≠ none ∧ ({ w with owed := none } : ReadyWarp).owed = none) ∧
    ({ w with floor := false } : ReadyWarp).floor = false ∧ ({ w with floor := true } : ReadyWarp).floor = true := by
  obtain ⟨g, hg⟩ := List.exists_mem_of_ne_nil _ witness_issue.2.2.2.1
  obtain ⟨w, hw⟩ := List.exists_mem_of_ne_nil _ witness_issue.2.2.2.2.1
  exact ⟨g, hg, w, hw, ⟨rfl, rfl⟩, ⟨rfl, rfl⟩, Nat.zero_lt_one, ⟨by simp, rfl⟩, rfl, rfl⟩

/-- Each place that a step fetches from: a gauge run's, a group's word inside its block and past it, a header word; and none, with one option or
more, with an input or without. -/
theorem witness_steps :
    (let s := State.reset.placeGauge 0x0900_0000
     (s.activeGauge.map fun x => (x.1, x.2.pc)) = some (0, 0) ∧
       (match decodeGauge (BitVec.ofNat 32 (s.readMem (gaugeProgAddr 0 0) 4)) with | .ok i => i == .gaugeLi 4 0 | .error _ => false) = true) ∧
    (let s := State.reset.placeUmavi 0x0570_0400_40FF_FFFD
     s.activeGauge = none ∧ s.issue = some grp ∧ (match decode (s.fetchBytes grp) with
       | .ok (i, rest) => i == .iaddi ⟨7, 2, 1, 0, 0, 0xFFFFFD⟩ && rest.length == 8
       | .error _ => false) = true ∧ 1 + 1 ≤ s.blockLimit grp) ∧
    (let s := State.reset.placeUmavi (0x1770_0C00_4010_1E00 + 0x0060_0000_0000_00E8 * 2 ^ 64)
     s.activeGauge = none ∧ s.issue = some grp ∧ (match decode (s.fetchBytes grp) with
       | .ok (i, rest) => i == .lut3 ⟨7, 6, 1, 2, 0, 0, 15, 0, 3, 0, 0, 0xE8⟩ && rest.isEmpty
       | .error _ => false) = true ∧ 1 + 2 ≤ s.blockLimit grp ∧
       ({ s with warps := NMap.set s.warps 0 ((s.warp 0).modThreads (List.range 32) fun t => { t with blockEnd := 2 }) } : State).blockLimit grp < 1 + 2) ∧
    (let s := State.reset.placeUmavi 0xFF01_0050_0000_0100
     s.activeGauge = none ∧ s.issue = some grp ∧ (match decode (s.fetchBytes grp) with | .ok _ => false | .error e => e == .headerWord) = true) ∧
    (State.reset.activeGauge = none ∧ State.reset.issue = none ∧ State.reset.inputs = [] ∧ (options State.reset).length = 1) ∧
    (ready.activeGauge = none ∧ ready.issue = none ∧ ready.inputs = [] ∧ 1 < (options ready).length) ∧
    (let s : State := { State.reset with inputs := [.event .replaceRequestClear] }
     s.activeGauge = none ∧ s.issue = none ∧ s.inputs = [.event .replaceRequestClear]) ∧
    -- a write through a partition's window that takes effect, one that does not, and bytes for LPDDR6
    (∀ x ∈ [Input.window 1 (.partToffWrite 2 5), .window 2 (.partToffWrite 2 5), .lpddr 4096 [1, 2]],
      let s : State := { parts with inputs := [x] }
      s.activeGauge = none ∧ s.issue = none ∧ s.inputs = [x]) ∧
    parts.throughWindow 1 (.partToffWrite 2 5) = some (.partToffWrite 2 5) ∧ parts.throughWindow 2 (.partToffWrite 2 5) = none := by decide +kernel
/-- Canonical memory, and a gauge run whose step is a next state. -/
theorem witness_invariants : MemOk State.reset ∧ (match step (State.reset.placeGauge 0x0900_0000) with | .next _ => true | _ => false) = true := by
  refine ⟨?_, by decide +kernel⟩
  unfold MemOk
  decide +kernel
theorem witness_encodings : (.iaddi ⟨7, 2, 1, 0, 0, 0xFFFFFD⟩ : Instr).WellFormed ∧ (∃ x, encode (.iaddi ⟨7, 2, 1, 0, 0, 0xFFFFFD⟩) = some (.one x)) ∧
    (.lut3 ⟨7, 6, 1, 2, 0, 0, 15, 0, 3, 0, 0, 0xE8⟩ : Instr).WellFormed ∧ (∃ x y, encode (.lut3 ⟨7, 6, 1, 2, 0, 0, 15, 0, 3, 0, 0, 0xE8⟩) = some (.two x y)) ∧
    (match decode (bytesOf 8 0x0570_0400_40FF_FFFD) with | .ok (i, rest) => i == .iaddi ⟨7, 2, 1, 0, 0, 0xFFFFFD⟩ && rest.isEmpty | .error _ => false) = true ∧
    (match decodeGauge 0 with | .ok i => i == .gaugeDone | .error _ => false) = true := by
  unfold Instr.WellFormed
  exact ⟨by decide +kernel, ⟨_, rfl⟩, by decide +kernel, ⟨_, _, rfl⟩, by decide +kernel, by decide +kernel⟩
theorem witness_warpStop : (sys.grid (sys.block (sys.warp 0).block).grid).endCode = 0 ∧ NMap.find? sys.blocks 0 = some (sys.block 0) ∧ (sys.block 0).grid = 1 ∧
    0x60 < 256 ∧ (sys.block 0).core < 256 ∧ (sys.warp 0).warpNo < 256 ∧
    ((sys.isl 0).onchip.length < 64 ∧ (sys.isl 0).waitPost = []) ∧
    ¬ ((sys.modIsl 0 fun x => { x with onchip := List.replicate 64 [] }).isl 0).onchip.length < 64 := by decide +kernel
/-! ### Words of the spec, and single steps -/

/-- A word, and the instruction it decodes to. -/
def reads (x : Nat) (i : Instr) : Bool := match decode (bytesOf 8 x) with | .ok (j, rest) => j == i && rest.isEmpty | .error _ => false
def reads2 (x y : Nat) (i : Instr) : Bool := match decode (bytesOf 8 x ++ bytesOf 8 y) with | .ok (j, rest) => j == i && rest.isEmpty | .error _ => false
def readsGauge (x : BitVec 32) (i : Instr) : Bool := match decodeGauge x with | .ok j => j == i | .error _ => false
/-- Words that chapters 14 to 18 and 22 of the spec write out, with the fields that R245 to R253 place in them: a family of the table each. -/
theorem test_words : [
  reads 0x0570040040FFFFFD (.iaddi ⟨7, 2, 1, 0, 0, 16777213⟩),
  reads 0x40A01402004C4800 (.fadd ⟨10, 10, 8, 9, 4, 2, 4, 0⟩),
  reads 0xC01FFFFD00000000 (.br ⟨1, 1048573, 0, 0⟩),
  reads 0xC770000000000000 (.exit ⟨7, 0, 0, 0, 0, 0, 0, 0⟩),
  reads 0x0870180100280000 (.idiv ⟨7, 12, 4, 5, 0, 0, 0, 0⟩),
  reads 0x3071450100000001 (.sadd ⟨7, 5, 5, 0, 1, 1⟩),
  reads 0x28700C0000FFFF9C (.movi ⟨7, 6, 0, 0, 0, 16777116⟩),
  reads 0x24700201005FFF9C (.icmpi ⟨7, 1, 4, 0, 0, 6291356⟩),
  reads 0x4670160280000800 (.fabs ⟨7, 11, 10, 0, 0, 0, 4, 0⟩),
  reads 0x86701602C0000802 (.wred ⟨7, 11, 11, 0, 0, 0, 4, 2⟩),
  reads 0x61701802C0000800 (.fmxsc ⟨7, 12, 11, 0, 0, 0, 4, 0⟩),
  reads 0x01701A0340600000 (.isub ⟨7, 13, 13, 12, 0, 0, 0, 0⟩),
  reads 0x58701C0280680800 (.fscale ⟨7, 14, 10, 13, 0, 0, 4, 0⟩),
  reads 0x8270060040000000 (.ballot ⟨7, 3, 1, 0, 0, 0, 0, 0⟩),
  reads 0x8770080080000004 (.wscan ⟨7, 4, 2, 0, 0, 0, 0, 4⟩),
  reads 0x80700E0080401E03 (.shfl ⟨7, 7, 2, 8, 0, 0, 15, 3⟩),
  reads 0xB870000000000003 (.bar ⟨7, 0, 0, 0, 0, 0, 0, 3⟩),
  reads 0xF070060006000000 (.srd ⟨7, 3, 0, 0, 6, 0⟩),
  reads 0xF170000146000019 (.swr ⟨7, 0, 5, 0, 6, 25⟩),
  reads 0xE670040000000000 (.garm ⟨7, 2, 0, 0, 0, 0, 0, 0⟩),
  reads 0xE770040040000001 (.gset ⟨7, 2, 1, 0, 0, 0, 0, 1⟩),
  reads 0xE470160000000000 (.waitarr ⟨7, 0, 22, 0, 0, 0⟩),
  reads 0xC270001300000000 (.call ⟨7, 19, 0, 0⟩),
  reads 0xA27014200018001E (.stg ⟨7, 10, 2, 0, 0, 3, 0, 0, 30⟩),
  reads 0xB67000200018001E (.wb ⟨7, 0, 2, 0, 0, 3, 0, 0, 30⟩),
  reads 0x3C7280010000001F (.smov ⟨7, 10, 0, 0, 1, 31⟩),
  reads 0xB570000000000000 (.fenceFetch ⟨7, 0, 0, 0, 0, 0, 0, 0⟩),
  reads 0xC570000000000000 (.ret ⟨7, 0, 0, 0, 0, 0, 0, 0⟩),
  reads2 0x25700A0180201E00 0x0020000000000000 (.sel ⟨7, 5, 6, 4, 0, 0, 15, 0, 1, 0, 0, 0⟩),
  reads2 0x5670280380781C20 0x0200000000000000 (.fpack ⟨7, 20, 14, 15, 0, 0, 14, 32, 16, 0, 0, 0⟩),
  reads2 0x17700C0040101E00 0x00600000000000E8 (.lut3 ⟨7, 6, 1, 2, 0, 0, 15, 0, 3, 0, 0, 232⟩),
  reads2 0xAB7010100C100000 0x0000290000000000 (.atom ⟨7, 8, 1, 6, 0, 2, 0, 0, 0, 0, 0, 0, 20, 1, 0, 0, 0⟩),
  reads2 0xC1710000A2000140 0xB0001EF000000000 (.brm ⟨7, 1, 10, 2, 20, 0, 11, 30, 15, 0, 0⟩),
  reads2 0xD100A2CC34044400 0x0000000000000000 (.mloop ⟨0, 0, 0, 10, 11, 12, 13, 0, 279552, 0⟩),
  reads2 0xD370500040000800 0x0000000000000000 (.accrd ⟨7, 40, 1, 0, 0, 0, 4, 0, 0, 0, 0, 0⟩),
  reads2 0xE02945565D800063 0x0000000001000040 (.put ⟨2, 1, 0, 20, 21, 22, 23, 24, 99, 16777280⟩),
  reads2 0xD000528C00000021 0x0000000000040220 (.wbload ⟨0, 0, 0, 5, 10, 12, 0, 0, 33, 262688⟩),
  reads2 0xE900628000000000 0x0000000000000007 (.ovld ⟨0, 0, 0, 6, 10, 0, 0, 0, 0, 7⟩)
  ].all id = true := by decide +kernel
/-- The words of R232 and of chapter 13's programs; a word with an unused field and an opcode that is not assigned decode to nothing. -/
theorem test_gaugeWords : [readsGauge 0x0900_0000 (.gaugeLi 4 0), readsGauge 0x4401_128F (.histLog 0 4 10 15), readsGauge 0x2980_0011 (.gaugeShr 6 0 17),
  readsGauge 0x5018_0003 (.gaugeBz 6 3), readsGauge 0x09C0_000C (.gaugeLi 7 12), readsGauge 0x5C1C_0001 (.gaugeNtfy 7 1), readsGauge 0 .gaugeDone].all id = true ∧
  (decodeGauge 1).toOption.isNone = true ∧ (decodeGauge 0x6C00_0000).toOption.isNone = true := by decide +kernel
/-- What the encoder writes for them is the words again. -/
theorem test_encode : encodeBytes (.sadd ⟨7, 5, 5, 0, 1, 1⟩) = bytesOf 8 0x3071_4501_0000_0001 ∧
  encodeBytes (.brm ⟨7, 1, 10, 2, 20, 0, 11, 30, 15, 0, 0⟩) = bytesOf 8 0xC171_0000_A200_0140 ++ bytesOf 8 0xB000_1EF0_0000_0000 ∧
  (match encode (.histLog 0 4 10 15) with | some (.gauge w) => w == 0x4401_128F | _ => false) = true ∧ (match encode (.warpRetire 0) with | none => true | _ => false) = true := by
  decide +kernel

/-- An ill-formed instruction for each check: a register out of line for its type, a type its opcode does not take, a reserved MOD bit, a policy on a
source that is not read, a VI word of TYPE3 7, a SIZE and an ORDER that are reserved, an atomic of a reserved AOP, a slot without GE, an
IM of 3, an OVL outside `fcall`, a target on an unused pair, an opcode that is assigned, the limits of R232, an event's ranges. -/
theorem test_illFormed : ([.iadd ⟨7, 3, 2, 4, 0, 0, 2, 0⟩, .iadd ⟨7, 6, 2, 4, 0, 0, 4, 0⟩, .iadd ⟨7, 6, 2, 4, 0, 0, 0, 0x100⟩, .iabs ⟨7, 6, 2, 0, 0, 1, 0, 0⟩,
  .iaddi ⟨7, 6, 2, 0, 7, 5⟩, .ldg ⟨7, 6, 0, 2, 0, 5, 0, 0, 0⟩, .ldg ⟨7, 6, 0, 2, 0, 2, 7, 0, 0⟩, .atom ⟨7, 8, 1, 6, 0, 2, 0, 0, 0, 31, 0, 0, 20, 1, 0, 0, 0⟩,
  .put ⟨2, 0, 0, 20, 21, 22, 23, 24, 99, 0⟩, .sadd ⟨7, 5, 5, 0, 3, 1⟩, .br ⟨7, 1, 5, 0⟩, .brm ⟨7, 15, 10, 15, 0, 0, 15, 0, 15, 0, 0⟩,
  .unassignedOpcode 0x0570_0400_40FF_FFFD, .gaugeCms 0 0 3, .gaugeCms 0 0 13, .gaugeBz 0 0, .gaugeBz 0 64, .gaugeNtfy 0 0,
  .warpIssueSelect 24 0 0, .warpIssueSelect 0 160 0, .warpIssueSelect 0 0 4] : List Instr).all (fun i => !i.wellFormed) = true := by decide +kernel
theorem test_wellFormed : ([.iadd ⟨7, 4, 2, 4, 0, 0, 2, 0⟩, .iaddi ⟨7, 6, 2, 0, 0, 5⟩, .ldg ⟨7, 6, 0, 2, 0, 2, 0, 0, 0⟩, .put ⟨2, 1, 0, 20, 21, 22, 23, 24, 99, 16777280⟩,
  .br ⟨7, 1, 0, 0⟩, .unassignedOpcode (0x07 * 2 ^ 56), .gaugeCms 0 0 4, .gaugeCms 0 0 12, .gaugeBz 0 63, .gaugeNtfy 0 1,
  .warpIssueSelect 23 159 3] : List Instr).all (fun i => i.wellFormed) = true := by decide +kernel

/-- The machine whose next step fetches a word, after `f` on the warp. -/
def fetching (nbits x : Nat) (f : Warp → Warp) : State :=
  let s := State.reset.withFetchWord nbits x
  { s with warps := NMap.set s.warps 0 (f (s.warp 0)) }
/-- Register r of lane 3 after the step. -/
def lane3 (s : State) (r n : Nat) : Option Nat := match step s with | .next t => some (readV (t.warp 0) 3 r n) | _ => none
def regs (l : List (Nat × Nat)) (w : Warp) : Warp := l.foldl (fun w p => lanesV (fun _ => BitVec.ofNat 32 p.2) p.1 w) w
/-- `iaddi.s32 v2, v1, -3` of 5 (R273); `movi.s32 v6, -100` (R287). -/
theorem test_addImmediate : lane3 (fetching 64 0x0570_0400_40FF_FFFD (regs [(1, 5)])) 2 1 = some 2 := by decide +kernel
theorem test_moveImmediate : lane3 (fetching 64 0x2870_0C00_00FF_FF9C id) 6 1 = some 0xFFFF_FF9C := by decide +kernel
/-- `iadd.s8.pk.sat` of 0x7F01_80FF and 0x0101_FF01, and without `.sat` (R272). -/
def packed (md : BitVec 9) : Option Nat := match execIadd ⟨7, 6, 2, 4, 0, 0, 12, md⟩ (sysWarp (regs [(2, 0x7F01_80FF), (4, 0x0101_FF01)] (sys.warp 0))) with
  | .next t => some (readV (t.warp 0) 3 6 1)
  | _ => none
theorem test_addPacked : packed (8 + 32) = some 0x7F02_8000 ∧ packed 8 = some 0x8002_7F00 := by decide +kernel
/-- `isub.s32 v13, v13, v12` of 127 and 129, `fscale.f32 v14, v10, v13` of 5.0 and −2, `fmxsc.f32 v12, v11` of 20.0 (chapter 16). -/
theorem test_subtract : lane3 (fetching 64 0x0170_1A03_4060_0000 (regs [(13, 127), (12, 129)])) 13 1 = some 0xFFFF_FFFE := by decide +kernel
theorem test_scale : lane3 (fetching 64 0x5870_1C02_8068_0800 (regs [(10, 0x40A0_0000), (13, 0xFFFF_FFFE)])) 14 1 = some 0x3FA0_0000 := by decide +kernel
theorem test_mxScale : lane3 (fetching 64 0x6170_1802_C000_0800 (regs [(11, 0x41A0_0000)])) 12 1 = some 0x81 := by decide +kernel
/-- `lut3.b32` with the table 0xE8, the majority (R279). -/
theorem test_majority : lane3 (fetching 128 (0x1770_0C00_4010_1E00 + 0x0060_0000_0000_00E8 * 2 ^ 64) (regs [(1, 0xFF00), (2, 0xF0F0), (3, 0xCCCC)])) 6 1 =
    some 0xFCC0 := by decide +kernel
/-- `sadd s5, s5, 1` at 10 (chapter 15); `br` to a word that is no header stops the warp (R256); `exit` ends every lane. -/
theorem test_scalarAdd : (match step (fetching 64 0x3071_4501_0000_0001 fun w => w.writeS 5 10) with | .next t => some ((t.warp 0).sreg 5) | _ => none) = some 11 := by
  decide +kernel
theorem test_badTarget : (match step (fetching 64 0xC070_0001_0000_0000 id) with | .next t => (t.warp 0).stopped | _ => false) = true := by decide +kernel
theorem test_exit : (match step (fetching 64 0xC770_0000_0000_0000 id) with | .next t => (t.warp 0).threads.all fun x => x.st == .exited | _ => false) = true := by
  decide +kernel
/-- `li h4, 0` and `shr h6, h0, 17` of a run (R232). -/
theorem test_gaugeShift : (match step (State.reset.withFetchWord 32 0x09C0_000C) with | .next t => ((t.gauge 0).run.map fun r => (r.pc, r.get 7)) | _ => none) =
    some (1, 12) := by decide +kernel
/-- The route from island 14 to island 3 with site 9 gone (chapter 9). -/
theorem test_route : (State.reset.topo.without fun n => n == 9).route 14 3 = some 0xFFFF_FF83 := by decide +kernel

end Sys2Proof.Tests
end

section
/-!
SUPPORT. Laws of bit fields and sparse maps that the proofs below use: what a field reads after a field is set, and what is listed in a map.
-/
namespace Sys2Proof

theorem bits_zero_lo (v hi : Nat) : bits v hi 0 = v % 2 ^ (hi + 1) := by simp [bits]

/-- A field reads only the bits up to its highest. -/
theorem bits_of_mod (v : Nat) {hi lo n : Nat} (h : hi < n) (hl : lo ≤ hi) : bits (v % 2 ^ n) hi lo = bits v hi lo := by
  have hn : (2 : Nat) ^ n = 2 ^ lo * 2 ^ (n - lo) := by rw [← Nat.pow_add]; congr 1; omega
  unfold bits
  rw [hn, Nat.mod_mul_right_div_self, Nat.mod_mod_of_dvd]
  exact Nat.pow_dvd_pow 2 (by omega)

/-- A value with one field replaced, as the bits below the field, the field, and the bits above it. -/
theorem setBits_eq (v hi lo x : Nat) :
    setBits v hi lo x = v % 2 ^ lo + 2 ^ lo * (x % 2 ^ (hi + 1 - lo) + 2 ^ (hi + 1 - lo) * (v / 2 ^ lo / 2 ^ (hi + 1 - lo))) := by
  unfold setBits bits
  generalize 2 ^ lo = a
  generalize 2 ^ (hi + 1 - lo) = b
  have split : v = v % a + a * (v / a % b + b * (v / a / b)) := by rw [Nat.mod_add_div, Nat.mod_add_div]
  have rest : v - v / a % b * a = v % a + a * (b * (v / a / b)) := by
    rw [Nat.mul_add, Nat.mul_comm a (v / a % b)] at split
    omega
  rw [rest, Nat.mul_add, Nat.mul_comm (x % b) a]
  omega

theorem bits_setBits (v hi lo x : Nat) : bits (setBits v hi lo x) hi lo = x % 2 ^ (hi + 1 - lo) := by
  rw [setBits_eq, bits, Nat.add_mul_div_left _ _ (Nat.two_pow_pos lo), Nat.div_eq_of_lt (Nat.mod_lt _ (Nat.two_pow_pos lo)), Nat.zero_add,
    Nat.add_mul_mod_self_left, Nat.mod_mod]

theorem bits_setBits_below (v x : Nat) {hi lo hi' lo' : Nat} (h : hi' < lo) (hl : lo' ≤ hi') :
    bits (setBits v hi lo x) hi' lo' = bits v hi' lo' := by
  rw [← bits_of_mod _ h hl, setBits_eq, Nat.add_mul_mod_self_left, Nat.mod_mod, bits_of_mod _ h hl]

theorem bits_setBits_above (v x : Nat) {hi lo hi' lo' : Nat} (h : hi < lo') (hl : lo ≤ hi) :
    bits (setBits v hi lo x) hi' lo' = bits v hi' lo' := by
  have hp : (2 : Nat) ^ lo' = 2 ^ lo * 2 ^ (hi + 1 - lo) * 2 ^ (lo' - (hi + 1)) := by
    rw [← Nat.pow_add, ← Nat.pow_add]; congr 1; omega
  have same : setBits v hi lo x / 2 ^ lo' = v / 2 ^ lo' := by
    rw [hp, ← Nat.div_div_eq_div_mul, ← Nat.div_div_eq_div_mul, ← Nat.div_div_eq_div_mul, ← Nat.div_div_eq_div_mul, setBits_eq,
      Nat.add_mul_div_left _ _ (Nat.two_pow_pos lo), Nat.div_eq_of_lt (Nat.mod_lt _ (Nat.two_pow_pos lo)), Nat.zero_add,
      Nat.add_mul_div_left _ _ (Nat.two_pow_pos _), Nat.div_eq_of_lt (Nat.mod_lt _ (Nat.two_pow_pos _)), Nat.zero_add]
  rw [bits, bits, same]

end Sys2Proof

namespace Sys2Proof.NMap

variable {α : Type}

/-- What a map gives is listed in it. -/
theorem mem_of_find {m : NMap α} {k : Nat} {a : α} (h : find? m k = some a) : (k, a) ∈ m := by
  induction m with
  | nil => cases h
  | cons e m ih =>
    obtain ⟨j, b⟩ := e
    rw [find?] at h
    split at h
    · next hj => cases h; cases hj; exact List.mem_cons_self ..
    · exact List.mem_cons_of_mem _ (ih h)

/-- What holds of the default and of every listed value holds of what a read gives. -/
theorem getD_of_forall {P : α → Prop} {m : NMap α} {d : α} (hd : P d) (h : ∀ e ∈ m, P e.2) (k : Nat) : P (getD m k d) := by
  unfold getD
  cases hf : find? m k with
  | none => exact hd
  | some a => exact h _ (mem_of_find hf)

end Sys2Proof.NMap
end

section
/-!
PROOF. The state after reset (R5): what each register reads over its empty tables, and the statement O30.
-/
namespace Sys2Proof.Machine

theorem reset_reg (r : RegName) (i : Nat) : State.reset.reg r i = regReset r i := rfl

theorem reset_commanded (r : RegName) (i : Nat) : State.reset.commanded r i = 0 := rfl

/-- Parent ports and classes of the full panel's clock tree fit their fields of CLK_STAT (R170). -/
theorem fullTree_fits : ∀ x ∈ fullTree, x.2.1 < 16 ∧ x.2.2 < 16 := by decide +kernel

/-- Every island after reset stands as at the end of a start. -/
theorem reset_isl (n : Nat) : ∃ parent cls tver, State.reset.isl n = Island.start parent cls tver ∧ parent < 16 ∧ cls < 16 := by
  refine NMap.getD_of_forall (P := fun x => ∃ p c v, x = Island.start p c v ∧ p < 16 ∧ c < 16) ⟨0, 0, 0, rfl, by decide, by decide⟩ ?_ n
  intro e he
  obtain ⟨k, -, rfl⟩ := List.mem_map.mp he
  cases hf : fullTree.find? fun t => t.1 == k with
  | none => exact ⟨0, 0, 1, by simp, by decide, by decide⟩
  | some x => exact ⟨x.2.1, x.2.2, 1, by simp, fullTree_fits x (List.mem_of_find?_eq_some hf)⟩

/-- Every port after reset stands as trained, or is absent (R198). -/
theorem reset_port (n p : Nat) : ∃ node port kind, State.reset.port n p = Port.trained node port kind := by
  refine NMap.getD_of_forall (P := fun x => ∃ a b k, x = Port.trained a b k) ⟨0, 0, 0, rfl⟩ ?_ (portIx n p)
  intro e he
  rcases List.mem_append.mp he with he | he
  · obtain ⟨a, -, he⟩ := List.mem_flatMap.mp he
    obtain ⟨b, -, rfl⟩ := List.mem_map.mp he
    exact ⟨a, b, _, rfl⟩
  · obtain ⟨b, -, rfl⟩ := List.mem_map.mp he
    exact ⟨24, b, 3, rfl⟩

theorem reset_coreCode (n k : Nat) : State.reset.coreCode n k = 0 ∨ State.reset.coreCode n k = 3 := by
  unfold State.coreCode
  cases hx : State.reset.topo.sites[n]? with
  | none => exact .inr rfl
  | some x =>
    obtain ⟨m, -, rfl⟩ := List.mem_map.mp (List.mem_of_getElem? hx)
    exact .inl rfl

/-- CORE_STAT of a core with nothing resident: all its granules, units of 64 bytes, tiles and slots are free (R196). -/
theorem reset_coreStat (n k : Nat) :
    State.reset.coreStat n k = State.reset.coreCode n k + 64 * 2 ^ 24 + 4096 * 2 ^ 32 + 16 * 2 ^ 48 + 4 * 2 ^ 56 := by
  have slots : State.reset.slotsTaken n k = 0 := rfl
  have blocks : State.reset.residents n k = [] := rfl
  have granules : State.reset.granTaken n k = 0 := rfl
  have bytes : State.reset.scrTaken n k = 0 := rfl
  have tiles : State.reset.tilesTaken n k = [] := rfl
  have held : State.reset.slotsHeld n k = [] := rfl
  simp [State.coreStat, slots, blocks, granules, bytes, tiles, held, reset_reg, regReset]

theorem reset_coreStat_fields (i : Nat) : State.reset.readReg .coreStat i / 4 % 2 ^ 53 = 64 * 2 ^ 22 + 4096 * 2 ^ 30 + 16 * 2 ^ 46 := by
  rw [State.readReg, reset_coreStat]
  rcases reset_coreCode (i / 160) (i % 160) with h | h <;> simp [h]

/-- CLK_STAT.LOCK alone stands in bits 31 to 8 (R170). -/
theorem reset_clkStat (i : Nat) : State.reset.readReg .clkStat i / 2 ^ 8 % 2 ^ 24 = 1 := by
  obtain ⟨p, c, v, h, hp, hc⟩ := reset_isl i
  simp only [State.readReg, State.clkStat, h, Island.start]
  simp only [if_true, Bool.false_eq_true, if_false]
  omega

theorem reset_optPstat (i : Nat) (h : State.reset.readReg .optPstat i % 8 = 1) :
    State.reset.readReg .optPstat i / 2 ^ 4 = 0xFF + 8 * 2 ^ 12 + 2 ^ 16 + 128 * 2 ^ 20 + 64 * 2 ^ 28 := by
  obtain ⟨a, b, kind, hx⟩ := reset_port (i / 16) (i % 16)
  rw [State.readReg, State.optPstat, hx] at h ⊢
  by_cases hk : kind = 0
  · subst hk; cases h
  · simp [Port.trained, hk, PortState.code, show maskCount 0xFF = 8 from rfl] at h ⊢

theorem reset_partValid (p : Nat) : State.reset.partValid p = decide (p = 0) := by
  by_cases h : p = 0
  · subst h; rfl
  · simp [State.partValid, reset_reg, regReset, h, bit]

theorem reset_partCfg (p : Nat) : State.reset.readReg .partCfg p = if p = 0 then 1 else 0 := by
  by_cases h : p = 0
  · subst h; rfl
  · simp [State.readReg, State.partCfg, State.level, reset_reg, reset_partValid, regReset, h]

theorem reset_childrenOf (p : Nat) : State.reset.childrenOf p = [] := by
  simp [State.childrenOf, reset_partValid]

theorem reset_partSlice (p n : Nat) (hn : n < 32) : State.reset.readReg .partSlice (32 * p + n) = if p = 0 then 0xFFFFF else 0 := by
  have hp : (32 * p + n) / 32 = p := by omega
  have hm : (32 * p + n) % 32 = n := by omega
  have hb : State.reset.sliceBusy p n = false := rfl
  rw [State.readReg, hp, hm, State.partSlice, hb, State.clmask, reset_childrenOf, reset_reg, regReset, partIx]
  by_cases h : p = 0
  · subst h; simp [hn, bits]
  · have : ¬ p * 32 + n < 32 := by omega
    simp [h, this, bits]

theorem reset_tgpBud (p g : Nat) (hp : p < 128) : State.reset.readReg .tgpBud (128 * g + p) = if p = 0 then 0xFFFFFFFFFFFF else 0 := by
  have hm : (128 * g + p) % 128 = p := by omega
  simp only [State.readReg, reset_reg, regReset, hm]
  split <;> rfl

/-- ISL_FQSTAT of an empty ring: nothing pends and it is not full (R379). -/
theorem reset_fqStat (i : Nat) : State.reset.fqStat i = 0 := by
  obtain ⟨p, c, v, h, -, -⟩ := reset_isl i
  have notFull : State.reset.fqFull i = false := by simp [State.fqFull, State.fqSize, reset_reg, regReset, bits]
  have empty : (Island.start p c v).onchip = [] := rfl
  simp [State.fqStat, h, notFull, empty, reset_reg, regReset, setBits, bits]

theorem reset_readReg_zero (i : Nat) : ∀ r ∈ [RegName.lkpQbase, .lkpQtail, .lkpQhead, .lkpQctl, .lkpGridctl, .lkpTstage, .mapkRqbase, .mapkRqtail,
    .mapkRqhead, .islNctr, .corePmc, .islPmc, .corePmsel, .islPmsel, .tgpAtt, .tgpAdrop, .tgpGwin, .tgpScnt, .islFqbase, .islFqtail, .islFqhead,
    .islFqstat, .islReplay, .partShare, .partToff, .startCtl], State.reset.readReg r i = 0 := by
  repeat refine List.forall_mem_cons.mpr ⟨by simp [State.readReg, reset_fqStat, reset_reg, reset_commanded, regReset], ?_⟩
  exact fun _ h => nomatch h

theorem reset_startStat (i : Nat) : State.reset.readReg .startStat i % 64 = 3 := by
  have stage : State.reset.boot = Boot.done := rfl
  simp only [State.readReg, State.startStat, stage, Boot.done]
  simp only [Bool.false_eq_true, if_false, Bool.and_false, Bool.true_and]
  split <;> rfl

theorem reset_islCohmode (i : Nat) : State.reset.readReg .islCohmode i = 0 := rfl

theorem reset_lkpTupd (i : Nat) : State.reset.readReg .lkpTupd i % 2 ^ 32 = 0 := by
  simp [State.readReg, State.tupd, reset_reg, regReset]

/-- A partition's bucket starts full, with no limit and nothing banked (R394). -/
theorem reset_part (p n : Nat) : State.reset.part p n = ⟨0xFFFFFFFF, 0xFFFFFFFF, 0, 0, 0, 0⟩ := rfl

/-- No bucket is empty: each holds its ALLOT (R394). -/
theorem reset_partBud (i : Nat) : State.reset.readReg .partBud i = 0xFFFFFFFF + 2 ^ 32 := by
  have full : State.reset.bucketEmpty (i / 32) (i % 32) = false := by simp [State.bucketEmpty, reset_part]
  simp [State.readReg, State.partBud, full, reset_reg, regReset]

theorem reset_partTok (i : Nat) : State.reset.readReg .partTok i = 0xFFFFFFFF := by
  simp [State.readReg, State.partTok, reset_part]

/-- Registers whose Reset column is not zero and that read as held. -/
theorem reset_readReg_kept (i : Nat) : State.reset.readReg .islLease i = 0x40011004 ∧ State.reset.readReg .optFocfg i = 0x00321445 ∧
    State.reset.readReg .hbmErr i = 2 ^ 48 ∧ State.reset.readReg .pwrIsl i = 1100 + 2000 * 2 ^ 22 ∧ State.reset.readReg .pwrPanel i = 2800 := by
  simp [State.readReg, reset_reg, regReset]

/-- A lane that a warp has at its start (R92). -/
theorem Warp.thread_start {b n p w : Nat} {e : PC} {acc : List Nat} {gr l : Nat} (h : l < w) :
    (Warp.start b n p w e acc gr).thread l = Thread.start e := by
  simp [Warp.thread, Warp.start, h]

/-- Settles O30: each register's accessor is read once over the empty tables of the state after reset. -/
theorem resetState : Obligations.ResetState := by
  unfold Obligations.ResetState
  refine ⟨reset_reg, fun i => ?_, reset_partCfg, reset_partSlice, fun p g hp => reset_tgpBud p g hp, reset_readReg_zero, rfl, rfl,
    fun _ => rfl, fun _ => rfl, fun _ => rfl, fun b n p e acc gr w l => ?_⟩
  · obtain ⟨lease, focfg, hbm, island, panel⟩ := reset_readReg_kept i
    exact ⟨lease, focfg, hbm, island, panel, reset_islCohmode i, reset_partBud i, reset_partTok i, reset_startStat i, reset_lkpTupd i,
      reset_clkStat i, reset_coreStat_fields i, reset_optPstat i⟩
  · intro x hl
    rw [Warp.thread_start hl]
    exact ⟨rfl, rfl, rfl, rfl, rfl, rfl, rfl, rfl, rfl⟩

end Sys2Proof.Machine
end

section
/-!
PROOF. Degraded operation, power control and register writes (R408 to R411, R5): what the staging of a table leaves as it was, then each event of
the statement O58.
-/
namespace Sys2Proof.Machine

/-- A read of the register just written, whatever its index. -/
@[simp] theorem State.reg_setReg_same (s : State) (r : RegName) (i v : Nat) : (s.setReg r i v).reg r i = v := NMap.getD_set_same ..

/-! ### What the staging of a table changes (R408) -/

/-- From `s` to `t` only the ports, the update in progress and LKP_TUPD have changed: what sending a table to the routers changes (R174). -/
structure State.TableSent (s t : State) : Prop where
  rest : { t with ports := s.ports, update := s.update, regs := s.regs } = s
  reg : ∀ r i, r ≠ .lkpTupd → i < 2 ^ 40 → t.reg r i = s.reg r i

theorem State.TableSent.refl (s : State) : State.TableSent s s := ⟨rfl, fun _ _ _ _ => rfl⟩

theorem State.TableSent.trans {s t u : State} (h : State.TableSent s t) (h' : State.TableSent t u) : State.TableSent s u :=
  ⟨by rw [← h.rest, ← h'.rest], fun r i hr hi => (h'.reg r i hr hi).trans (h.reg r i hr hi)⟩

theorem State.TableSent.mem {s t : State} (h : State.TableSent s t) : t.mem = s.mem := (congrArg State.mem h.rest : _)
theorem State.TableSent.warps {s t : State} (h : State.TableSent s t) : t.warps = s.warps := (congrArg State.warps h.rest : _)
theorem State.TableSent.pend {s t : State} (h : State.TableSent s t) : t.pend = s.pend := (congrArg State.pend h.rest : _)
theorem State.TableSent.boot {s t : State} (h : State.TableSent s t) : t.boot = s.boot := (congrArg State.boot h.rest : _)
theorem State.TableSent.retireCores {s t : State} (h : State.TableSent s t) : t.retireCores = s.retireCores :=
  (congrArg State.retireCores h.rest : _)

theorem treeFlit_tableSent (s : State) (n k : Nat) : State.TableSent s (s.treeFlit n k) := by
  unfold State.treeFlit
  dsimp only
  split
  · exact ⟨rfl, fun _ _ _ _ => rfl⟩
  · exact .refl s

theorem setTupd_tableSent (s : State) (hi lo v : Nat) : State.TableSent s (s.setTupd hi lo v) :=
  ⟨rfl, fun r i hr h => by rw [State.setTupd, State.reg_setReg _ _ _ _ _ _ (by decide) h, if_neg fun e => hr e.1.symm]⟩

theorem askRouters_tableSent (s : State) (u : Update) : State.TableSent s (s.askRouters u) := by
  have flits : ∀ (l : List Nat) (x : State), State.TableSent s x → State.TableSent s (l.foldl (fun s n => s.treeFlit n 4) x) := by
    intro l
    induction l with
    | nil => exact fun x h => h
    | cons n l ih => exact fun x h => ih _ (h.trans (treeFlit_tableSent x n 4))
  exact flits _ _ ⟨rfl, fun _ _ _ _ => rfl⟩

theorem sendTable_tableSent (s : State) (t : Topology) (fencing : Bool) : State.TableSent s (s.sendTable t fencing) :=
  ((askRouters_tableSent s _).trans (setTupd_tableSent _ 31 0 0)).trans (setTupd_tableSent _ 2 0 2)

theorem stageAfter_tableSent (s : State) (tried : Nat → Nat → Bool) : State.TableSent s (s.stageAfter tried) := by
  unfold State.stageAfter
  split
  · exact .refl s
  · dsimp only
    split
    · exact sendTable_tableSent s _ true
    · split
      · exact sendTable_tableSent s _ false
      · exact .refl s

theorem stageOwn_tableSent (s : State) : State.TableSent s s.stageOwn := stageAfter_tableSent s _

/-- A site due to be fenced changes the list of such sites and REPLACE_REQUEST, and a table for it may be sent (R408, R409). -/
theorem fenceSite_tableSent (s : State) (n : Nat) :
    ∃ sites boot now, State.TableSent { s with fenceSites := sites, boot := boot, now := now } (s.fenceSite n) := by
  unfold State.fenceSite
  split
  · exact ⟨s.fenceSites, s.boot, s.now, .refl s⟩
  · split
    · exact ⟨s.fenceSites, s.boot, s.now, stageOwn_tableSent s⟩
    · exact ⟨_, _, _, stageOwn_tableSent _⟩

@[simp] theorem State.fenceSite_mem (s : State) (n : Nat) : (s.fenceSite n).mem = s.mem := by
  obtain ⟨_, _, _, h⟩ := fenceSite_tableSent s n
  exact h.mem

@[simp] theorem State.fenceSite_warps (s : State) (n : Nat) : (s.fenceSite n).warps = s.warps := by
  obtain ⟨_, _, _, h⟩ := fenceSite_tableSent s n
  exact h.warps

@[simp] theorem State.fenceSite_pend (s : State) (n : Nat) : (s.fenceSite n).pend = s.pend := by
  obtain ⟨_, _, _, h⟩ := fenceSite_tableSent s n
  exact h.pend

theorem State.reg_fenceSite (s : State) (n : Nat) {r : RegName} {i : Nat} (hr : r ≠ .lkpTupd) (hi : i < 2 ^ 40) :
    (s.fenceSite n).reg r i = s.reg r i := by
  obtain ⟨_, _, _, h⟩ := fenceSite_tableSent s n
  exact h.reg r i hr hi

/-! ### Memory errors (R410) -/

/-- A read whose data meets the error on its way: its lanes are noted to receive poison, with the flag (R98). -/
theorem poisonReads_poisons {s : State} {island w l : Nat} {p : Pend} {m : Msg} (hp : p ∈ s.pend) (hm : m ∈ s.msgs) (hc : m.carriesRead = true)
    (hi : m.island = island) (hw : w ∈ m.words) (ha : m.asker = some p.id) (hl : l ∈ p.readers m w) :
    ∃ q ∈ (s.poisonReads island w).pend, q.id = p.id ∧ l ∈ q.bad ∧ (l, flagPoison) ∈ q.flags := by
  refine ⟨_, List.mem_map.mpr ⟨p, hp, rfl⟩, ?_⟩
  dsimp only
  generalize hls : List.eraseDups (α := Nat) _ = ls
  have hmem : l ∈ ls := by
    rw [← hls, List.mem_eraseDups]
    refine List.mem_flatMap.mpr ⟨m, ?_, hl⟩
    simp [hm, hc, hi, hw, ha]
  have : ls.isEmpty = false := by cases ls with | nil => cases hmem | cons => rfl
  simp [this, hmem]

@[simp] theorem State.poisonReads_mem (s : State) (n w : Nat) : (s.poisonReads n w).mem = s.mem := rfl
@[simp] theorem State.poisonReads_warps (s : State) (n w : Nat) : (s.poisonReads n w).warps = s.warps := rfl
@[simp] theorem State.poisonReads_reg (s : State) (n w : Nat) (r : RegName) (i : Nat) : (s.poisonReads n w).reg r i = s.reg r i := rfl

/-- A fencing that stands under a condition keeps memory, warps, reads on their way and every register but LKP_TUPD. -/
theorem fenceSite_if (s : State) (c : Prop) [Decidable c] (n : Nat) :
    let t := if c then s.fenceSite n else s
    t.mem = s.mem ∧ t.warps = s.warps ∧ t.pend = s.pend ∧ ∀ r i, r ≠ .lkpTupd → i < 2 ^ 40 → t.reg r i = s.reg r i := by
  dsimp only
  split
  · exact ⟨s.fenceSite_mem n, s.fenceSite_warps n, s.fenceSite_pend n, fun r i hr hi => s.reg_fenceSite n hr hi⟩
  · exact ⟨rfl, rfl, rfl, fun _ _ _ _ => rfl⟩

theorem eightIx_hbmStack_lt {island : Nat} (h : island < 24) (a : Nat) : eightIx island (hbmStack a) < 2 ^ 40 := by
  unfold eightIx hbmStack; omega

/-- An error that is not corrected counts in UNCORR, saturating, and poisons the reads that meet it; the island may be fenced. -/
theorem hbmUncorrected_next (s : State) {island : Nat} (a : Nat) (h : island < 24) :
    let ix := eightIx island (hbmStack a)
    let w := hbmAddr island (a % hbmSize) / 4
    ∃ t, exec (.hbmUncorrectable island ⟨a, false⟩) s = .next t ∧ t.mem = s.mem ∧
      bits (t.reg .hbmErr ix) 47 32 = min 0xFFFF (bits (s.reg .hbmErr ix) 47 32 + 1) ∧
      bits (t.reg .hbmErr ix) 31 0 = bits (s.reg .hbmErr ix) 31 0 ∧ t.warps = s.warps ∧
      ∀ p ∈ s.pend, ∀ m ∈ s.msgs, m.carriesRead = true → m.island = island → w ∈ m.words → m.asker = some p.id → ∀ l ∈ p.readers m w,
        ∃ q ∈ t.pend, q.id = p.id ∧ l ∈ q.bad ∧ (l, flagPoison) ∈ q.flags := by
  intro ix w
  let n := min 0xFFFF (bits (s.reg .hbmErr ix) 47 32 + 1)
  let counted := s.setReg .hbmErr ix (setBits (s.reg .hbmErr ix) 47 32 n)
  obtain ⟨hmem, hwarps, hpend, hreg⟩ := fenceSite_if (counted.poisonReads island w) (16 ≤ n) island
  have hcount := hreg .hbmErr ix (by decide) (eightIx_hbmStack_lt h a)
  rw [State.poisonReads_reg, State.reg_setReg_same] at hcount
  refine ⟨_, rfl, hmem, ?_, ?_, hwarps, ?_⟩
  · rw [hcount, bits_setBits]
    exact Nat.mod_eq_of_lt (by omega)
  · rw [hcount, bits_setBits_below _ _ (by decide) (by decide)]
  · rw [hpend]
    intro p hp m hm hc hi hw ha l hl
    exact poisonReads_poisons (s := counted) hp hm hc hi hw ha hl

/-- A corrected error counts in CORR, saturating, and changes nothing else. -/
theorem hbmCorrected_next (s : State) (island a : Nat) :
    let ix := eightIx island (hbmStack a)
    ∃ t, exec (.hbmUncorrectable island ⟨a, true⟩) s = .next t ∧ { t with regs := s.regs } = s ∧
      bits (t.reg .hbmErr ix) 31 0 = min 0xFFFFFFFF (bits (s.reg .hbmErr ix) 31 0 + 1) ∧
      bits (t.reg .hbmErr ix) 63 32 = bits (s.reg .hbmErr ix) 63 32 := by
  intro ix
  refine ⟨s.setReg .hbmErr ix (setBits (s.reg .hbmErr ix) 31 0 (min 0xFFFFFFFF (bits (s.reg .hbmErr ix) 31 0 + 1))), rfl, rfl, ?_, ?_⟩
  · rw [State.reg_setReg_same, bits_setBits]
    exact Nat.mod_eq_of_lt (by omega)
  · rw [State.reg_setReg_same, bits_setBits_above _ _ (by decide) (by decide)]

/-! ### Cores that fail their self-check (R408) -/

theorem preemptBlocks_rest (s : State) (bs : List (Nat × Block)) : { s.preemptBlocks bs with blocks := s.blocks } = s := by
  suffices h : ∀ (bs : List (Nat × Block)) (x : State), { x with blocks := s.blocks } = s → { x.preemptBlocks bs with blocks := s.blocks } = s from
    h bs s rfl
  intro bs
  induction bs with
  | nil => exact fun x h => h
  | cons b bs ih =>
    intro x h
    refine ih _ ?_
    dsimp only
    split <;> exact h

@[simp] theorem State.preemptBlocks_mem (s : State) (bs : List (Nat × Block)) : (s.preemptBlocks bs).mem = s.mem :=
  (congrArg State.mem (preemptBlocks_rest s bs) : _)
@[simp] theorem State.preemptBlocks_boot (s : State) (bs : List (Nat × Block)) : (s.preemptBlocks bs).boot = s.boot :=
  (congrArg State.boot (preemptBlocks_rest s bs) : _)
@[simp] theorem State.preemptBlocks_retireCores (s : State) (bs : List (Nat × Block)) : (s.preemptBlocks bs).retireCores = s.retireCores :=
  (congrArg State.retireCores (preemptBlocks_rest s bs) : _)
@[simp] theorem State.preemptBlocks_reg (s : State) (bs : List (Nat × Block)) (r : RegName) (i : Nat) : (s.preemptBlocks bs).reg r i = s.reg r i :=
  congrArg (fun m => NMap.getD m (regKey r i) (regReset r i)) (congrArg State.regs (preemptBlocks_rest s bs) : _)

/-- A failed self-check drains the core, notes it for retirement and asks for a replacement. -/
theorem coreSoftError_next (s : State) {island k : Nat} (hi : island < 24) (hk : k < 160) (hcode : s.coreCode island k ≠ 3)
    (hnew : (island, k) ∉ s.retireCores) :
    ∃ t, exec (.coreSoftError island k true) s = .next t ∧ t.mem = s.mem ∧ t.boot.replace = true ∧ t.reg .coreStat (coreIx island k) = 1 ∧
      (island, k) ∈ t.retireCores := by
  let noted := { s.setReg .coreStat (coreIx island k) 1 with retireCores := s.retireCores ++ [(island, k)] }.requestReplace
  let bs := noted.blocks.filter fun b => b.2.island == island && b.2.core == k && !b.2.saved && !b.2.retired
  have hsent := stageOwn_tableSent (noted.preemptBlocks bs)
  have hexec : exec (.coreSoftError island k true) s = .next (noted.preemptBlocks bs).stageOwn := by
    show execCoreSoftError island k true s = _
    simp only [execCoreSoftError]
    rw [if_neg (by simp [hk, hcode, hnew])]
    rfl
  refine ⟨_, hexec, ?_, ?_, ?_, ?_⟩
  · rw [hsent.mem, State.preemptBlocks_mem]
    rfl
  · rw [hsent.boot, State.preemptBlocks_boot]
    rfl
  · rw [hsent.reg _ _ (by decide) (by unfold coreIx; omega), State.preemptBlocks_reg]
    exact State.reg_setReg_same ..
  · rw [hsent.retireCores, State.preemptBlocks_retireCores]
    exact List.mem_append_right _ (List.mem_singleton_self _)

/-! ### Power control (R411) -/

/-- Where a power control action takes the clock, in steps above 1,000 MHz, and the gate (R411): one step down where the island is hot, one step up
where it is cool. -/
def powerStep (hot cool : Bool) (k gate : Nat) : Nat × Nat :=
  if hot then (if 0 < k then (k - 1, gate) else (0, min 4 (gate + 1)))
  else if cool then (if 0 < gate then (k, gate - 1) else (min 16 (k + 1), 0))
  else (k, gate)

/-- PWR_ISL with its CAP kept and its power, clock, temperature, throttle and gate fields given. -/
def pwrIslWord (v power k temp thr gate : Nat) : Nat :=
  bits v 10 0 + power % 2048 * 2 ^ 11 + clkField k * 2 ^ 22 + temp % 256 * 2 ^ 34 + thr + gate * 2 ^ 43

theorem ite_eq_either (c : Prop) [Decidable c] (x y : Nat) : (if c then x else y) = y ∨ (if c then x else y) = x := by
  by_cases h : c
  · exact .inr (if_pos h)
  · exact .inl (if_neg h)

/-- A power control action writes one word to PWR_ISL, and may have the island fenced. -/
theorem powerControlAction_next (s : State) (island power temp : Nat) (h : island < 24) :
    let v := s.reg .pwrIsl island
    ∃ t hot cool thr, exec (.powerControlAction island power temp) s = .next t ∧ t.mem = s.mem ∧ (105 < temp → hot = true) ∧ (thr = 0 ∨ thr = 2 ^ 42) ∧
      let n := powerStep hot cool (clkSteps (bits v 33 22)) (bits v 45 43)
      t.reg .pwrIsl island = pwrIslWord v power n.1 temp thr n.2 := by
  intro v
  obtain ⟨hmem, -, -, hreg⟩ := fenceSite_if (s.setReg .pwrIsl island _) (115 < temp) island
  refine ⟨_, _, _, _, rfl, hmem, ?_, ?_, (hreg .pwrIsl island (by decide) (by omega)).trans (State.reg_setReg_same ..)⟩
  · intro ht
    simp [ht]
  · exact ite_eq_either ..

theorem clkSteps_le {f : Nat} (h : f ≤ 2000) : clkSteps f ≤ 16 := by unfold clkSteps; omega

/-- One step down leads below the clock it starts from. -/
theorem clkField_step_down {f : Nat} (h : 1000 < f) : 0 < clkSteps f ∧ clkField (clkSteps f - 1) < f := by
  unfold clkField clkSteps; omega

theorem powerStep_hot_down {k : Nat} (cool : Bool) (gate : Nat) (h : 0 < k) : powerStep true cool k gate = (k - 1, gate) := by simp [powerStep, h]

theorem powerStep_hot_least (cool : Bool) (gate : Nat) : powerStep true cool 0 gate = (0, min 4 (gate + 1)) := rfl

theorem powerStep_bounds (hot cool : Bool) {k gate : Nat} (hk : k ≤ 16) (hg : gate < 8) :
    (powerStep hot cool k gate).1 ≤ 16 ∧ (powerStep hot cool k gate).2 < 8 := by
  unfold powerStep
  split
  · split <;> dsimp only <;> omega
  · split
    · split <;> dsimp only <;> omega
    · exact ⟨hk, hg⟩

theorem pwrIslWord_low (v power k temp gate : Nat) {thr : Nat} (ht : thr = 0 ∨ thr = 2 ^ 42) :
    bits (pwrIslWord v power k temp thr gate) 10 0 = bits v 10 0 ∧ bits (pwrIslWord v power k temp thr gate) 21 11 = power % 2048 := by
  unfold pwrIslWord bits
  omega

/-- The clock field holds up to 2,000 MHz, so no field runs into the next. -/
theorem pwrIslWord_high (v power temp : Nat) {k thr gate : Nat} (ht : thr = 0 ∨ thr = 2 ^ 42) (hk : k ≤ 16) (hg : gate < 8) :
    let w := pwrIslWord v power k temp thr gate
    bits w 33 22 = clkField k ∧ bits w 41 34 = temp % 256 ∧ bits w 45 43 = gate := by
  have hc : clkField k < 4096 := by unfold clkField; omega
  unfold pwrIslWord
  generalize clkField k = c at hc
  unfold bits
  omega

theorem powerControlAction_fields (s : State) (island power temp : Nat) (h : island < 24) :
    let v := s.reg .pwrIsl island
    ∃ t, exec (.powerControlAction island power temp) s = .next t ∧ t.mem = s.mem ∧
      let w := t.reg .pwrIsl island
      bits w 10 0 = bits v 10 0 ∧ bits w 21 11 = power % 2048 ∧ (bits v 33 22 ≤ 2000 → bits w 41 34 = temp % 256) ∧
      (105 < temp → bits v 33 22 = 1000 → bits w 33 22 = 1000 ∧ bits w 45 43 = min 4 (bits v 45 43 + 1)) ∧
      (105 < temp → 1000 < bits v 33 22 → bits v 33 22 ≤ 2000 → bits w 33 22 < bits v 33 22 ∧ bits w 45 43 = bits v 45 43) := by
  intro v
  obtain ⟨t, hot, cool, thr, hexec, hmem, hhot, hthr, hw⟩ := powerControlAction_next s island power temp h
  have hgate : bits v 45 43 < 8 := Nat.mod_lt _ (by decide)
  have high (hf : bits v 33 22 ≤ 2000) :=
    have hn := powerStep_bounds hot cool (clkSteps_le hf) hgate
    pwrIslWord_high v power temp hthr hn.1 hn.2
  refine ⟨t, hexec, hmem, ?_⟩
  rw [hw]
  refine ⟨(pwrIslWord_low _ _ _ _ _ hthr).1, (pwrIslWord_low _ _ _ _ _ hthr).2, fun hf => (high hf).2.1, fun ht hf => ?_, fun ht hlo hhi => ?_⟩
  · obtain ⟨hclk, -, hg⟩ := high (by omega)
    have hk : clkSteps (bits v 33 22) = 0 := by rw [hf]; rfl
    rw [hhot ht, hk, powerStep_hot_least] at hclk hg ⊢
    exact ⟨hclk.trans (by decide : clkField 0 = 1000), hg⟩
  · obtain ⟨hclk, -, hg⟩ := high hhi
    obtain ⟨hk, hdown⟩ := clkField_step_down hlo
    rw [hhot ht, powerStep_hot_down _ _ hk] at hclk hg ⊢
    exact ⟨hclk ▸ hdown, hg⟩

/-! ### Registers as software writes them (R5, R6, R223) -/

/-- A performance counter takes 48 bits and is marked as written in this clock (R223). -/
theorem counterWrite_next (s : State) {r : RegName} (hr : r = .corePmc ∨ r = .islPmc) (ix v : Nat) :
    ∃ t, exec (.registerWrite r ix v) s = .next t ∧ { t with now := s.now } = s.setReg r ix (bits v 47 0) ∧
      t.now.written.contains (regKey r ix) = true := by
  have hexec : exec (.registerWrite r ix v) s = .next (s.writeCounter r ix v) := by rcases hr with rfl | rfl <;> rfl
  refine ⟨_, hexec, ?_, ?_⟩
  · rw [bits_zero_lo]; rfl
  · simp [State.writeCounter]

/-- A write of a register that software only reads, or that only events change, leaves the machine as it was (R5). -/
theorem readOnlyWrite_next (s : State) (ix v : Nat) : ∀ r ∈ [RegName.rotCert, .corePipe, .islDstat, .lkpQhead, .mapkRqhead, .clkStat, .lkpTupd,
    .optPstat, .optPerr, .optPfar, .optLasa, .optLasb, .tgpAdrop, .tgpScnt, .islFqtail, .islFqstat, .partTok, .rotMeas, .rotPmeas, .hbmErr],
    exec (.registerWrite r ix v) s = .next s := by
  repeat refine List.forall_mem_cons.mpr ⟨rfl, ?_⟩
  exact fun _ h => nomatch h

/-- REPLACE_REQUEST falls unless the device has set it in the same core clock (R5, R409). -/
theorem replaceRequestClear_next (s : State) : exec .replaceRequestClear s =
    .next (if (regKey .startStat 0, 7) ∈ s.now.w1c then s else { s with boot := { s.boot with replace := false } }) := by
  have clears : s.clears .startStat 0 7 (2 ^ 7) = !decide ((regKey .startStat 0, 7) ∈ s.now.w1c) := by
    simp [State.clears, bit, show Nat.testBit 128 7 = true by decide]
  show execReplaceRequestClear s = _
  rw [execReplaceRequestClear, clears]
  by_cases h : (regKey .startStat 0, 7) ∈ s.now.w1c <;> simp [h]

/-- Settles O58, event by event and register by register. -/
theorem hostAndPower : Obligations.HostAndPower := by
  intro s
  refine ⟨replaceRequestClear_next s, fun island a h => ⟨hbmUncorrected_next s a h, hbmCorrected_next s island a⟩, fun _ _ => rfl, ?_,
    fun island power temp h => powerControlAction_fields s island power temp h, fun _ _ _ => rfl, fun ix v => ?_⟩
  · intro island k hi hk hcode hnew
    obtain ⟨t, hexec, hmem, hreplace, hdrain, hnoted⟩ := coreSoftError_next s hi hk hcode hnew
    exact ⟨t, hexec, hmem, hreplace, hdrain, .inl hnoted⟩
  · exact ⟨fun r hr => counterWrite_next s hr ix v, rfl, rfl, rfl, rfl, rfl, rfl, rfl, rfl, rfl, rfl, readOnlyWrite_next s ix v⟩

end Sys2Proof.Machine
end

section
/-!
PROOF. Routers and links (R16, R163, R201, R202, R204 to R208): what counting an event leaves as it was, what the router does with a packet in each
case, then each part of the statement O46.
-/
namespace Sys2Proof.Machine

/-! ### What counting an event changes (R223, R226) -/

/-- From `s` to `t` only registers and gauges have changed: what the performance counters and the gauges keep of an event. -/
structure State.Counted (s t : State) : Prop where
  rest : { t with regs := s.regs, gauges := s.gauges } = s

theorem State.Counted.refl (s : State) : State.Counted s s := ⟨rfl⟩

theorem State.Counted.trans {s t u : State} (h : State.Counted s t) (h' : State.Counted t u) : State.Counted s u :=
  ⟨by rw [← h.rest, ← h'.rest]⟩

theorem State.Counted.mem {s t : State} (h : State.Counted s t) : t.mem = s.mem := (congrArg State.mem h.rest : _)
theorem State.Counted.packets {s t : State} (h : State.Counted s t) : t.packets = s.packets := (congrArg State.packets h.rest : _)
theorem State.Counted.ports {s t : State} (h : State.Counted s t) : t.ports = s.ports := (congrArg State.ports h.rest : _)
theorem State.Counted.topo {s t : State} (h : State.Counted s t) : t.topo = s.topo := (congrArg State.topo h.rest : _)

theorem islCount_counted (s : State) (island code k : Nat) : State.Counted s (s.islCount island code k) := by
  unfold State.islCount
  refine List.foldlRecOn _ _ (.refl s) fun t ht n _ => ?_
  dsimp only
  split
  · exact ht.trans ⟨rfl⟩
  · exact ht

theorem offer_counted (s : State) (g code unit : Nat) (part : Option Nat) (payload n : Nat) :
    State.Counted s (s.offer g code unit part payload n) := by
  unfold State.offer
  dsimp only
  split
  · split
    · exact ⟨rfl⟩
    · split <;> exact ⟨rfl⟩
  · exact .refl s

theorem gaugeSee_counted (s : State) (g code unit : Nat) (part : Option Nat) (payload : Nat) :
    State.Counted s (s.gaugeSee g code unit part payload) := by
  unfold State.gaugeSee
  split
  · refine List.foldlRecOn _ _ ?_ fun t ht n _ => ht.trans (offer_counted t g code unit part payload n)
    split
    · exact ⟨rfl⟩
    · exact .refl s
  · exact .refl s

/-- A packet that passes a port is counted by its island and seen by its gauge. -/
theorem portEvent_counted (s : State) (n code k code' unit : Nat) (part : Option Nat) (payload : Nat) :
    State.Counted s ((s.islCount n code k).gaugeSee n code' unit part payload) :=
  (islCount_counted s n code k).trans (gaugeSee_counted _ n code' unit part payload)

/-! ### Packets by their numbers -/

theorem State.packet?_id {s : State} {id : Nat} {p : Packet} (h : s.packet? id = some p) : p.id = id := by
  simpa using List.find?_some h

/-- A read of the packet just written, where one of its number is in flight. -/
theorem State.packet?_setPacket {s : State} {p : Packet} (h : ∃ x ∈ s.packets, x.id = p.id) : (s.setPacket p).packet? p.id = some p := by
  have only : ∀ y ∈ (s.setPacket p).packets, y.id = p.id → y = p := by
    intro y hy hid
    obtain ⟨x, -, rfl⟩ := List.mem_map.mp hy
    by_cases hx : x.id = p.id
    · exact if_pos hx
    · rw [if_neg hx] at hid; exact absurd hid hx
  obtain ⟨x, hx, hid⟩ := h
  cases hf : (s.setPacket p).packet? p.id with
  | none => exact absurd (beq_self_eq_true p.id) (List.find?_eq_none.mp hf p (List.mem_map.mpr ⟨x, hx, if_pos hid⟩))
  | some y => rw [only y (List.mem_of_find?_eq_some hf) (State.packet?_id hf)]

theorem State.Counted.packet?_setPacket {s t : State} (h : State.Counted s t) {p : Packet} (hp : ∃ x ∈ s.packets, x.id = p.id) :
    (t.setPacket p).packet? p.id = some p := State.packet?_setPacket (h.packets ▸ hp)

theorem State.mem_of_packet? {s : State} {id : Nat} {p : Packet} (h : s.packet? id = some p) : ∃ x ∈ s.packets, x.id = p.id :=
  ⟨p, List.mem_of_find?_eq_some h, rfl⟩

/-! ### Ports after a change -/

theorem State.port_of_find {s : State} {n q : Nat} {x : Port} (h : NMap.find? s.ports (portIx n q) = some x) : s.port n q = x := by
  simp [State.port, NMap.getD, h]

/-- A read of the port just changed, where the panel has it. -/
theorem State.port_modPort_same {s : State} {n q : Nat} {x : Port} (h : NMap.find? s.ports (portIx n q) = some x) (f : Port → Port) :
    (s.modPort n q f).port n q = f x := State.port_of_find (by simp [State.modPort, NMap.find_modify, h])

/-- What an update of a port keeps of every port, it keeps of the port read after it. -/
theorem State.port_modPort_keeps {β : Type} (s : State) (m r n q : Nat) {f : Port → Port} {g : Port → β} (h : ∀ x, g (f x) = g x) :
    g ((s.modPort m r f).port n q) = g (s.port n q) := by
  simp only [State.port, State.modPort, NMap.getD, NMap.find_modify]
  split
  · cases NMap.find? s.ports (portIx n q) with
    | none => rfl
    | some x => exact h x
  · rfl

/-- What an update gives every port, and what holds of a port that is not there, holds of the port updated. -/
theorem State.port_modPort_gives {P : Port → Prop} (s : State) (n q : Nat) {f : Port → Port} (absent : P Port.none) (h : ∀ x, P (f x)) :
    P ((s.modPort n q f).port n q) := by
  simp only [State.port, State.modPort, NMap.getD, NMap.find_modify, if_true]
  cases NMap.find? s.ports (portIx n q) with
  | none => exact absent
  | some x => exact h x

theorem State.Counted.port {s t : State} (h : State.Counted s t) (n q : Nat) : t.port n q = s.port n q := by rw [State.port, h.ports, State.port]

/-! ### What a router does with a packet (R163, R206, R207, R208) -/

/-- The route of a packet ends at a node. -/
def Packet.EndsAt (p : Packet) (n : Nat) : Prop := 8 ≤ p.hop ∨ routeHop p.route p.hop = 15 ∨ (n = 24 ∧ 0 < p.hop)

theorem Packet.endsAt_iff (p : Packet) {n : Nat} :
    (8 ≤ p.hop || routeHop p.route p.hop = 15 || (n == 24 && 0 < p.hop)) = true ↔ p.EndsAt n := by simp [Packet.EndsAt, or_assoc]

/-- The port of a packet's next hop takes it: the port is there, neither fenced nor FAILED, and after a fibre so is every later hop. -/
def State.Opens (s : State) (p : Packet) (n : Nat) : Prop :=
  let h := routeHop p.route p.hop
  (p.crossed = true → s.topo.routeOk p.route (8 - p.hop) n = true) ∧
    s.topo.portCode n h % 4 ≠ 0 ∧ bit (s.topo.portCode n h) 2 = false ∧ (s.port n h).st ≠ .failed ∧ (s.port n h).st ≠ .absent

theorem routeFrom_ends (s : State) {p : Packet} {n : Nat} (h : p.EndsAt n) : s.routeFrom p n = s.setPacket { p with place := .atTarget n } :=
  if_pos (p.endsAt_iff.mpr h)

theorem routeFrom_opens {s : State} {p : Packet} {n : Nat} (h : ¬ p.EndsAt n) (ho : s.Opens p n) :
    s.routeFrom p n = s.setPacket { p with place := .outPort n (routeHop p.route p.hop), hop := p.hop + 1 } := by
  obtain ⟨rest, there, unfenced, works, present⟩ := ho
  have fibre : ¬ (p.crossed && !s.topo.routeOk p.route (8 - p.hop) n) = true := by simpa using rest
  rw [State.routeFrom, if_neg (mt p.endsAt_iff.mp h), if_neg fibre]
  exact if_neg (by simp [there, unfenced, works, present])

theorem routeFrom_shut {s : State} {p : Packet} {n : Nat} (h : ¬ p.EndsAt n) (ho : ¬ s.Opens p n) : s.routeFrom p n = s.dropWith n 0x30 p := by
  rw [State.routeFrom, if_neg (mt p.endsAt_iff.mp h)]
  split
  · rfl
  · next fibre =>
    refine if_pos (Decidable.byContradiction fun port => ho ?_)
    simp only [Bool.or_eq_true, decide_eq_true_eq, not_or, Bool.not_eq_true] at port
    obtain ⟨⟨⟨there, unfenced⟩, works⟩, present⟩ := port
    exact ⟨by simpa using fibre, there, unfenced, works, present⟩

/-- The error notice that goes back in a packet's place (R207). -/
theorem dropWith_notice (s : State) (n cls : Nat) (p : Packet) : (s.dropWith n cls p).mem = s.mem ∧
    ∃ q, (s.dropWith n cls p).packets = s.packets.filter (fun x => x.id != p.id) ++ [q] ∧
      q.kind = .errorNotice ∧ q.cls = cls ∧ q.place = .atRouter n ∧ q.route = backRoute p.back ∧ q.id = s.fresh :=
  ⟨rfl, _, rfl, rfl, rfl, rfl, rfl, rfl⟩

theorem routeFrom_mem (s : State) (p : Packet) (n : Nat) : (s.routeFrom p n).mem = s.mem := by
  by_cases ends : p.EndsAt n
  · rw [routeFrom_ends s ends, State.setPacket_mem]
  · by_cases opens : s.Opens p n
    · rw [routeFrom_opens ends opens, State.setPacket_mem]
    · rw [routeFrom_shut ends opens, (dropWith_notice s n 0x30 p).1]

theorem State.Counted.opens {s t : State} (h : State.Counted s t) (p : Packet) (n : Nat) : t.Opens p n ↔ s.Opens p n := by
  simp only [State.Opens, h.topo, h.port]

/-! ### `ROUTER_FORWARD` of a packet in flight -/

theorem exec_routerForward (what : Forwarded) (s : State) : exec (.routerForward what) s = execRouterForward what s := rfl

theorem routerForward_atRouter {s : State} {id : Nat} {p : Packet} {n : Nat} (h : s.packet? id = some p) (hp : p.place = .atRouter n) :
    exec (.routerForward (.packet id)) s = .next (s.routeFrom p n) := by
  simp [exec_routerForward, execRouterForward, h, hp]

/-- The router at the far end of a link takes a packet, and the hop used names the port of arrival (R201). -/
theorem routerForward_onLink {s : State} {id : Nat} {p : Packet} {n q m far : Nat} (h : s.packet? id = some p) (hp : p.place = .onLink n q)
    (hfar : farEnd n q = some (m, far)) (hkept : (s.resent n q).any (fun f => f.2 == p.id + 1) = false) (hlive : m = 24 ∨ s.topo.live m = true) :
    ∃ t, State.Counted s t ∧ exec (.routerForward (.packet id)) s = .next (t.routeFrom { p with back := far :: p.back } m) := by
  refine ⟨_, portEvent_counted s m 0x07 1 0x20 far none (p.bytes + p.src * 2 ^ 9), ?_⟩
  have hm : ¬ (m != 24 && !s.topo.live m) = true := by rcases hlive with hm | hm <;> simp [hm]
  simp only [exec_routerForward, execRouterForward, h, hp, hfar, hkept, if_neg hm, Bool.false_eq_true, if_false]

/-- A packet whose flits the receiver has discarded waits for the replay (R202). -/
theorem routerForward_resent {s : State} {id : Nat} {p : Packet} {n q : Nat} (h : s.packet? id = some p) (hp : p.place = .onLink n q)
    (hkept : (s.resent n q).any (fun f => f.2 == p.id + 1) = true) : exec (.routerForward (.packet id)) s = .next s := by
  simp only [exec_routerForward, execRouterForward, h, hp]
  split
  · exact if_pos hkept
  · rfl

/-- A packet that a link has brought is delivered, or waits at the port of its next hop. -/
theorem routeFrom_afterLink {s t : State} (ht : State.Counted s t) {p : Packet} (found : ∃ x ∈ s.packets, x.id = p.id) (m far : Nat) :
    let u := t.routeFrom { p with back := far :: p.back } m
    (p.EndsAt m → u.packet? p.id = some { p with back := far :: p.back, place := .atTarget m }) ∧
    (¬ p.EndsAt m → s.Opens p m →
      u.packet? p.id = some { p with back := far :: p.back, place := .outPort m (routeHop p.route p.hop), hop := p.hop + 1 }) := by
  refine ⟨fun ends => ?_, fun goes opens => ?_⟩
  · rw [routeFrom_ends t (p := { p with back := far :: p.back }) ends]
    exact ht.packet?_setPacket (p := { p with back := far :: p.back, place := .atTarget m }) found
  · rw [routeFrom_opens (p := { p with back := far :: p.back }) goes ((ht.opens p m).mpr opens)]
    exact ht.packet?_setPacket (p := { p with back := far :: p.back, place := .outPort m (routeHop p.route p.hop), hop := p.hop + 1 }) found

/-! ### `ROUTER_FORWARD` of a packet that enters the panel -/

/-- What enters carries at most 256 payload bytes, and asks for no more (R14); of a `notify` the length is what it adds. -/
def EntersSmall (o : OutPacket) : Prop := o.payload.length ≤ 256 ∧ (o.len ≤ 256 ∨ o.kind = 3)

theorem not_entersSmall_iff (o : OutPacket) :
    (256 < o.payload.length || (o.kind != 3 && 256 < o.len)) = true ↔ ¬ EntersSmall o := by
  simp only [EntersSmall, Bool.or_eq_true, Bool.and_eq_true, decide_eq_true_eq, bne_iff_ne]
  omega

theorem entering_large {s : State} {o : OutPacket} (h : ¬ EntersSmall o) : exec (.routerForward (.entering o)) s = .next s := by
  rw [exec_routerForward, execRouterForward, State.arrive, if_pos ((not_entersSmall_iff o).mpr h)]

/-- The packet of a transfer of the control die's software, at the beginning of its route (R16). -/
def softPacket (o : OutPacket) (id : Nat) (kind : PacketKind) : Packet := { outRequest o id kind with hop := 0, back := [] }

/-- The machine with that packet in flight, under the next free number. -/
def State.withSoft (s : State) (o : OutPacket) (kind : PacketKind) : State :=
  ({ s with fresh := s.fresh + 1 } : State).addPacket (softPacket o s.fresh kind)

theorem entering_software {s : State} {o : OutPacket} {kind : PacketKind} (hk : outRequests[o.kind]? = some kind) (hport : o.port = none)
    (hnode : o.node = 24) (hreq : o.kind < 2) (h : EntersSmall o) : exec (.routerForward (.entering o)) s =
      .next ((s.withSoft o kind).softStart (softPacket o s.fresh kind)) := by
  have hsmall := fun hc => (not_entersSmall_iff o).mp hc h
  have hsoft : ¬ (o.node != 24 || 2 ≤ o.kind) = true := by simp [hnode, hreq]
  rw [exec_routerForward, execRouterForward, State.arrive, if_neg hsmall]
  simp only [hport, hk, if_neg hsoft]
  rfl

theorem entering_overFibre {s : State} {o : OutPacket} {kind : PacketKind} {q : Nat} (hk : outRequests[o.kind]? = some kind)
    (hport : o.port = some q) (hnode : o.node < 24) (hfar : farEnd o.node q = none) (hlit : (s.port o.node q).lit = true) (h : EntersSmall o) :
    exec (.routerForward (.entering o)) s =
      .next (({ s with fresh := s.fresh + 1 } : State).overFibre o.node q (outRequest o s.fresh kind)) := by
  have hsmall := fun hc => (not_entersSmall_iff o).mp hc h
  have hlight : ¬ (!(o.node < 24 && (farEnd o.node q).isNone && (s.port o.node q).lit)) = true := by simp [hnode, hfar, hlit]
  have hreq : o.kind < 4 := (List.getElem?_eq_some_iff.mp hk).1
  have hkind : (outRequests ++ outAnswers)[o.kind]? = some kind := by rw [List.getElem?_append_left hreq, hk]
  rw [exec_routerForward, execRouterForward, State.arrive, if_neg hsmall]
  simp only [hport, if_neg hlight, hkind, if_neg (Nat.not_le_of_lt hreq)]
  rfl

/-- What comes over a fibre is counted, ends a request for a replay, and is routed from the node of its arrival. -/
theorem overFibre_routes (s : State) (n q : Nat) (p : Packet) : ∃ t f, State.Counted s t ∧
    s.overFibre n q p = ((t.modPort n q f).addPacket p).routeFrom { p with back := q :: p.back } n :=
  ⟨_, _, portEvent_counted s n 0x07 1 0x20 q none (p.bytes + p.src * 2 ^ 9), rfl⟩

theorem overFibre_ends (s : State) {n : Nat} (q : Nat) {p : Packet} (h : p.EndsAt n) :
    (s.overFibre n q p).mem = s.mem ∧ (s.overFibre n q p).packet? p.id = some { p with back := q :: p.back, place := .atTarget n } := by
  obtain ⟨t, f, ht, hroute⟩ := overFibre_routes s n q p
  rw [hroute, routeFrom_ends _ (p := { p with back := q :: p.back }) h]
  refine ⟨ht.mem, State.packet?_setPacket (p := { p with back := q :: p.back, place := .atTarget n }) ⟨p, ?_, rfl⟩⟩
  exact List.mem_append_right _ (List.mem_singleton_self p)

/-- A window of node 24 has room for a transfer's bytes (R364, R365). -/
def State.Room (s : State) (job w ofs n : Nat) : Prop := winOk (s.window job 24 w) = true ∧ ofs + n ≤ winSize (s.window job 24 w)

/-- The checks of a transfer of the control die's software, in their order (R16, R164, R167, R365). -/
theorem softStart_cases (s : State) (p : Packet) :
    let e := NMap.getD s.ranks (rankKey p.job 24 p.rank) 0
    let rooms : Prop := s.Room p.job p.win p.ofs p.len ∧ (p.tcen = true → s.Room p.job p.tcwin p.tcofs 16)
    (s.nranksOf p.job ≤ p.rank ∨ rankOk e = false → s.softStart p = s.toSoftware p 0x31) ∧
    (p.rank < s.nranksOf p.job → rankOk e = true →
      (bit e 6 = true → s.softStart p = s.setPacket { p with place := .retryWait 0, res := 2 ^ 32 }) ∧
      (bit e 6 = false → s.topo.routeOk (bits e 39 8) 8 24 = false → s.softStart p = s.toSoftware p 0x30) ∧
      (bit e 6 = false → s.topo.routeOk (bits e 39 8) 8 24 = true → ¬ rooms → s.softStart p = s.toSoftware p 0x32) ∧
      (bit e 6 = false → s.topo.routeOk (bits e 39 8) 8 24 = true → rooms →
        s.softStart p = s.routeFrom { p with route := bits e 39 8, res := bits e 39 8 } 24)) := by
  intro e rooms
  have named (hr : p.rank < s.nranksOf p.job) (hk : rankOk e = true) : ¬ (s.nranksOf p.job ≤ p.rank || !rankOk e) = true := by simp [hr, hk]
  have rooms_iff : (!(winOk (s.window p.job 24 p.win) && decide (p.ofs + p.len ≤ winSize (s.window p.job 24 p.win))) ||
      (p.tcen && !(winOk (s.window p.job 24 p.tcwin) && decide (p.tcofs + 16 ≤ winSize (s.window p.job 24 p.tcwin))))) = true ↔ ¬ rooms := by
    cases htc : p.tcen <;> simp [rooms, State.Room, htc, Classical.or_iff_not_imp_left]
  refine ⟨fun h => if_pos (by simpa using h), fun hr hk => ?_⟩
  rw [show s.softStart p = _ from if_neg (named hr hk)]
  exact ⟨fun held => if_pos held, fun free shut => (if_neg (ne_true_of_eq_false free)).trans (if_pos (by simpa using shut)),
    fun free way noRoom => (if_neg (ne_true_of_eq_false free)).trans ((if_neg (by simpa using way)).trans (if_pos (rooms_iff.mpr noRoom))),
    fun free way room => (if_neg (ne_true_of_eq_false free)).trans ((if_neg (by simpa using way)).trans (if_neg fun h => rooms_iff.mp h room))⟩

/-- Where software is told that its transfer is refused, no packet of it is left, and software has the class and its bytes (R207). -/
theorem refusal_of_toSoftware {s t : State} {p : Packet} {cls : Nat} (h : t = s.toSoftware p cls) :
    t.mem = s.mem ∧ (∀ x ∈ t.packets, x.id ≠ p.id) ∧ t.returned = s.returned ++ [(p.cmd, cls, p.payload)] := by
  subst h
  exact ⟨rfl, fun x hx => by simpa using (List.mem_filter.mp hx).2, rfl⟩

/-! ### `PACKET_SEND` (R202) -/

theorem exec_packetSend (id : Nat) (s : State) : exec (.packetSend id) s = execPacketSend id s := rfl

theorem packetSend_waits {s : State} {id : Nat} {p : Packet} {n q : Nat} (h : s.packet? id = some p) (hp : p.place = .outPort n q)
    (hst : (s.port n q).st ≠ .absent) (hmay : s.maySend n q p = false) : exec (.packetSend id) s = .next s := by
  simp [exec_packetSend, execPacketSend, h, hp, hst, hmay]

/-- A port after a packet has left by it: its flits stand in the replay buffer, and their class's allowance falls. -/
def Port.afterSend (x : Port) (p : Packet) : Port :=
  let y := x.keep p.flits (p.id + 1)
  if p.kind.isResponse then { y with allowr := y.allowr - p.flits } else { y with allowq := y.allowq - p.flits }

theorem Port.afterSend_counts (x : Port) (p : Packet) : (x.afterSend p).rply.length = x.rply.length + p.flits ∧
    (x.afterSend p).allowq = (if p.kind.isResponse then x.allowq else x.allowq - p.flits) ∧
    (x.afterSend p).allowr = (if p.kind.isResponse then x.allowr - p.flits else x.allowr) := by
  unfold Port.afterSend
  split <;> simp [Port.keep, *]

theorem packetSend_goes {s : State} {id : Nat} {p : Packet} {n q : Nat} (h : s.packet? id = some p) (hp : p.place = .outPort n q)
    (hst : (s.port n q).st ≠ .absent) (hmay : s.maySend n q p = true) :
    ∃ t, State.Counted (s.modPort n q fun x => x.afterSend p) t ∧
      exec (.packetSend id) s = .next (t.setPacket { p with place := if (farEnd n q).isSome then .onLink n q else .offPanel n q }) := by
  refine ⟨_, portEvent_counted _ n 0x08 1 0x21 q none
    (p.bytes + (s.modPort n q fun x => x.afterSend p).routeEnd p (8 - (p.hop - 1)) n * 2 ^ 9), ?_⟩
  simp only [exec_packetSend, execPacketSend, h, hp, if_neg hst, hmay, Bool.not_true, Bool.false_eq_true, if_false]
  rfl

/-- A packet that the port may start is on its link, or has left the panel, and the port keeps its flits. -/
theorem packetSend_moves {s : State} {id : Nat} {p : Packet} {n q : Nat} {x : Port} (h : s.packet? id = some p) (hp : p.place = .outPort n q)
    (hx : NMap.find? s.ports (portIx n q) = some x) (hst : x.st ≠ .absent) (hmay : s.maySend n q p = true) :
    ∃ t, exec (.packetSend id) s = .next t ∧ t.mem = s.mem ∧
      t.packet? id = some { p with place := if (farEnd n q).isSome then .onLink n q else .offPanel n q } ∧
      (t.port n q).rply.length = x.rply.length + p.flits ∧
      (t.port n q).allowq = (if p.kind.isResponse then x.allowq else x.allowq - p.flits) ∧
      (t.port n q).allowr = (if p.kind.isResponse then x.allowr - p.flits else x.allowr) := by
  obtain ⟨t, ht, hexec⟩ := packetSend_goes h hp (State.port_of_find hx ▸ hst) hmay
  obtain rfl := State.packet?_id h
  have found := State.mem_of_packet? h
  have hport : t.port n q = x.afterSend p := by rw [ht.port, State.port_modPort_same hx]
  refine ⟨_, hexec, ht.mem, ht.packet?_setPacket (p := { p with place := _ }) found, ?_⟩
  exact hport ▸ x.afterSend_counts p

/-! ### Counts of a port (R202, R204, R205) -/

theorem allowanceReturn_counts {s : State} {n q : Nat} {x : Port} (h : NMap.find? s.ports (portIx n q) = some x) (cls flits : Nat) :
    ∃ t, exec (.allowanceReturn n q cls flits) s = .next t ∧ { t with ports := s.ports } = s ∧
      (t.port n q).allowq = (if cls = 0 ∧ x.lit = true then max x.allowq (min (x.allowq + flits) (128 - s.farFlits n q false)) else x.allowq) ∧
      (t.port n q).allowr = (if cls = 0 ∨ x.lit = false then x.allowr else max x.allowr (min (x.allowr + flits) (64 - s.farFlits n q true))) := by
  refine ⟨_, rfl, rfl, ?_⟩
  rw [State.port_modPort_same h]
  by_cases lit : x.lit = true
  · by_cases request : cls = 0 <;> simp [lit, request]
  · simp [lit]

theorem flitAcknowledge_none {s : State} {n q : Nat} {x : Port} (h : NMap.find? s.ports (portIx n q) = some x) {k : Nat}
    (hnone : min k (x.rply.length - (s.resent n q).length) = 0 ∨ x.lit = false) : exec (.flitAcknowledge n q k) s = .next s := by
  show execFlitAcknowledge n q k s = _
  rw [execFlitAcknowledge, State.port_of_find h]
  exact congrArg _ (if_pos (by simpa using hnone))

theorem flitAcknowledge_some {s : State} {n q : Nat} {x : Port} (h : NMap.find? s.ports (portIx n q) = some x) {k : Nat}
    (hsome : 0 < min k (x.rply.length - (s.resent n q).length)) (hlit : x.lit = true) :
    ∃ t, exec (.flitAcknowledge n q k) s = .next t ∧ { t with ports := s.ports, packets := s.packets } = s ∧
      t.port n q = x.acked (min k (x.rply.length - (s.resent n q).length)) := by
  refine ⟨(s.modPort n q fun x => x.acked _).gone n q, ?_, rfl, State.port_modPort_same h _⟩
  show execFlitAcknowledge n q k s = _
  rw [execFlitAcknowledge, State.port_of_find h]
  exact congrArg _ (if_neg (by simp [Nat.ne_of_gt hsome, hlit]))

theorem codewordError_counts {s : State} {n q : Nat} {x : Port} (h : NMap.find? s.ports (portIx n q) = some x) (k seq : Nat) :
    ∃ t, exec (.codewordError n ⟨q, k, seq⟩) s = .next t ∧ { t with ports := s.ports } = s ∧
      (k = 2 → t.port n q = { x with corr := min 0xFFFFFF (x.corr + 1) }) ∧
      (k ≠ 2 → t.port n q =
        { x with uncorr := if k = 0 then min 0xFFFF (x.uncorr + 1) else x.uncorr, asked := some (x.asked.getD (seq % 4096)) }) := by
  refine ⟨_, rfl, rfl, ?_⟩
  rw [State.port_modPort_same h]
  exact ⟨fun corrected => if_pos corrected, fun lost => if_neg lost⟩

/-- A port as a replay leaves it, but for what it has asked for itself, which its far end's request may clear. -/
theorem replayRequest_counts {s : State} {n q : Nat} {x : Port} (h : NMap.find? s.ports (portIx n q) = some x) (k : Nat) :
    ∃ t, exec (.replayRequest n q k) s = .next t ∧ t.mem = s.mem ∧ t.packets = s.packets ∧
      { t.port n q with asked := x.asked } = { x with replays := min 0xFFFF (x.replays + 1), stuck := x.stuck + 1 } ∧
      ∀ m, farEnd n q = some m → (t.port m.1 m.2).asked = none := by
  obtain ⟨u, hu, hexec⟩ : ∃ u,
      State.Counted (s.modPort n q fun x => { x with replays := min 0xFFFF (x.replays + 1), stuck := x.stuck + 1 }) u ∧
      exec (.replayRequest n q k) s = .next (match farEnd n q with
        | some m => u.modPort m.1 m.2 fun x => { x with asked := none }
        | none => u) := ⟨_, gaugeSee_counted _ n 0x22 q none _, rfl⟩
  have sent : { u.port n q with asked := x.asked } = { x with replays := min 0xFFFF (x.replays + 1), stuck := x.stuck + 1 } := by
    rw [hu.port, State.port_modPort_same h]
  refine ⟨_, hexec, ?_⟩
  cases farEnd n q with
  | none => exact ⟨hu.mem, hu.packets, sent, fun _ hm => nomatch hm⟩
  | some m =>
    refine ⟨hu.mem, hu.packets, ?_, fun m' hm => ?_⟩
    · rw [← sent]
      exact State.port_modPort_keeps (f := fun y => { y with asked := none }) (g := fun y => { y with asked := x.asked }) u m.1 m.2 n q fun _ => rfl
    · cases hm
      exact State.port_modPort_gives (P := fun y => y.asked = none) u m.1 m.2 rfl fun _ => rfl

theorem replayLimit_below {s : State} {n q : Nat} (h : (s.port n q).stuck < 16) : exec (.replayLimit n q) s = .next s :=
  congrArg _ (if_neg (Nat.not_le_of_lt h))

/-! ### The statement -/

/-- Settles O46, event by event, from what the router and the port do in each case. -/
theorem packetsMove : Obligations.PacketsMove := by
  intro s
  refine ⟨fun id p h => ⟨fun n hp => ?_, fun n q m far hp hfar hkept hlive => ?_, fun n q hp => routerForward_resent h hp,
    fun n q x hp hx present => ⟨packetSend_waits h hp (State.port_of_find hx ▸ present), packetSend_moves h hp hx present⟩⟩,
    fun o kind hk => ?_, ?_⟩
  · rw [routerForward_atRouter h hp]
    refine ⟨fun ends => congrArg _ (routeFrom_ends s ends), fun goes opens => congrArg _ (routeFrom_opens goes opens), fun goes shut => ?_⟩
    obtain ⟨hmem, q, hnotice⟩ := dropWith_notice s n 0x30 p
    exact ⟨_, q, congrArg _ (routeFrom_shut goes shut), hmem, hnotice⟩
  · obtain ⟨t, ht, hexec⟩ := routerForward_onLink h hp hfar hkept hlive
    obtain rfl := State.packet?_id h
    exact ⟨_, hexec, (routeFrom_mem ..).trans ht.mem, routeFrom_afterLink ht (State.mem_of_packet? h) m far⟩
  · refine ⟨fun large => entering_large large, fun hport hnode hreq small => ?_, fun q hport hnode hfar hlit small ends =>
      ⟨_, entering_overFibre hk hport hnode hfar hlit small, overFibre_ends _ q ends⟩⟩
    have hexec := entering_software (s := s) hk hport hnode hreq small
    obtain ⟨unnamed, named⟩ := softStart_cases (s.withSoft o kind) (softPacket o s.fresh kind)
    refine ⟨fun h => ⟨_, hexec, refusal_of_toSoftware (unnamed h)⟩, fun hr hrank => ?_⟩
    obtain ⟨held, shut, noRoom, goes⟩ := named hr hrank
    exact ⟨fun h => hexec.trans (congrArg _ (held h)), fun free h => ⟨_, hexec, refusal_of_toSoftware (shut free h)⟩,
      fun free way h => ⟨_, hexec, refusal_of_toSoftware (noRoom free way h)⟩, fun free way h => hexec.trans (congrArg _ (goes free way h))⟩
  · intro n q x hx
    have hport := State.port_of_find hx
    exact ⟨allowanceReturn_counts hx, fun k => ⟨flitAcknowledge_none hx, flitAcknowledge_some hx⟩, codewordError_counts hx,
      replayRequest_counts hx, fun h => replayLimit_below (hport ▸ h)⟩

end Sys2Proof.Machine
end

section
/-!
PROOF. Global stores, atomics and reductions at issue (R83, R128, R131, R135, R324, R327 to R329): what of memory and of the threads each step of
an access leaves as it was, what an access comes to where nothing holds it up, then the statement O21.
-/
namespace Sys2Proof.Machine

/-! ### Steps that change neither memory nor a warp -/

/-- From `s` to `t` no byte of memory and no warp has changed. -/
structure State.WarpsKept (s t : State) : Prop where
  mem : t.mem = s.mem
  warps : t.warps = s.warps

theorem State.WarpsKept.refl (s : State) : State.WarpsKept s s := ⟨rfl, rfl⟩

theorem State.WarpsKept.trans {s t u : State} (h : State.WarpsKept s t) (h' : State.WarpsKept t u) : State.WarpsKept s u :=
  ⟨h'.mem.trans h.mem, h'.warps.trans h.warps⟩

theorem State.WarpsKept.warp {s t : State} (h : State.WarpsKept s t) (w : Nat) : t.warp w = s.warp w := by rw [State.warp, h.warps, State.warp]

/-- A fold of steps that each keep the warps keeps them. -/
theorem State.WarpsKept.foldl {α : Type} {f : State → α → State} (xs : List α) (h : ∀ t a, State.WarpsKept t (f t a)) (s : State) :
    State.WarpsKept s (xs.foldl f s) :=
  List.foldlRecOn xs f (.refl s) fun t ht a _ => ht.trans (h t a)

theorem State.Counted.warpsKept {s t : State} (h : State.Counted s t) : State.WarpsKept s t := ⟨h.mem, (congrArg State.warps h.rest : _)⟩

theorem coreCount_warpsKept (s : State) (island core code k : Nat) : State.WarpsKept s (s.coreCount island core code k) := by
  refine State.WarpsKept.foldl _ (fun t n => ?_) s
  dsimp only
  split
  · exact ⟨rfl, rfl⟩
  · exact .refl t

theorem free_warpsKept (s : State) : State.WarpsKept s s.free.2 := ⟨rfl, rfl⟩

theorem l2Request_warpsKept (s : State) (island part : Nat) (ws : List Nat) : State.WarpsKept s (s.l2Request island part ws) := by
  have drawn := (islCount_counted s island 1 1).warpsKept.trans (free_warpsKept _)
  unfold State.l2Request
  obtain ⟨k, t⟩ := (s.islCount island 1 1).free
  dsimp only
  split
  · exact drawn
  · exact drawn.trans (((islCount_counted ..).trans (islCount_counted ..)).trans (gaugeSee_counted ..)).warpsKept

theorem walked_warpsKept (s : State) (island asid : Nat) (pas : List Nat) : State.WarpsKept s (s.walked island asid pas) :=
  .foldl pas (fun t _ => l2Request_warpsKept t ..) s

theorem tlbAdd_warpsKept (s : State) (e : TlbEntry) : State.WarpsKept s (s.tlbAdd e) := ⟨rfl, rfl⟩

/-- A translation reads page tables and fills caches (R147). -/
theorem translate_warpsKept (s : State) (island : Nat) (core : Option Nat) (asid va : Nat) :
    State.WarpsKept s (s.translate island core asid va).2 := by
  have walk (reads : List Nat) (ptrs : List (Nat × Nat)) (e : Nat × Nat → TlbEntry) :
      State.WarpsKept s (ptrs.foldl (fun s p => s.tlbAdd (e p)) (s.walked island asid reads)) :=
    (walked_warpsKept s island asid reads).trans (.foldl ptrs (fun t p => tlbAdd_warpsKept t (e p)) _)
  unfold State.translate
  dsimp only
  split
  · exact .refl s
  · split
    · split
      · exact ((walk _ _ _).trans (tlbAdd_warpsKept ..)).trans (tlbAdd_warpsKept ..)
      · exact (walk _ _ _).trans (tlbAdd_warpsKept ..)
    · exact ⟨(walk _ _ _).mem, (walk _ _ _).warps⟩
    · exact walk _ _ _

theorem resolve_warpsKept (s : State) (a : Access) (x : LaneArg) : State.WarpsKept s (s.resolve a x).2 := by
  unfold State.resolve
  dsimp only
  split
  · exact .refl s
  · have looked := translate_warpsKept s (s.block (s.warp a.wid).block).island (some (s.block (s.warp a.wid).block).core)
      (s.grid (s.block (s.warp a.wid).block).grid).asid (a.va x)
    split
    · next h => rw [h] at looked; exact looked
    · next h =>
      rw [h] at looked
      split
      · exact looked
      · split
        · exact looked
        · split
          · exact looked
          · split <;> exact looked

theorem resolveFrom_warpsKept (a : Access) (xs : List LaneArg) : ∀ (s : State) (gone : List Nat),
    State.WarpsKept s (s.resolveFrom a gone xs).2 := by
  induction xs with
  | nil => exact fun s _ => .refl s
  | cons x xs ih =>
    intro s gone
    refine State.WarpsKept.trans ?_ (ih _ _)
    split
    · exact .refl s
    · exact resolve_warpsKept s a x

theorem resolveAll_warpsKept (s : State) (a : Access) (xs : List LaneArg) : State.WarpsKept s (s.resolveAll a xs).2 :=
  resolveFrom_warpsKept a xs s []

theorem post_warpsKept (s : State) (island : Nat) (r : List Word) : State.WarpsKept s (s.post island r) := ⟨rfl, rfl⟩

theorem postFaults_warpsKept (s : State) (a : Access) (fs : List (LaneArg × Nat)) : State.WarpsKept s (s.postFaults a fs) := by
  refine State.WarpsKept.foldl _ (fun t c => ?_) s
  dsimp only
  split
  · exact .refl t
  · exact post_warpsKept ..

theorem newId_warpsKept (s : State) : State.WarpsKept s s.newId.2 := ⟨rfl, rfl⟩
theorem addMsg_warpsKept (s : State) (m : Msg) : State.WarpsKept s (s.addMsg m) := ⟨rfl, rfl⟩
theorem dropMsg_warpsKept (s : State) (id : Nat) : State.WarpsKept s (s.dropMsg id) := ⟨rfl, rfl⟩

/-- An answer goes to the record of its instruction, not to a register. -/
theorem answer_warpsKept (s : State) (m : Msg) (cells : List Host.Cell) : State.WarpsKept s (s.answer m cells) := by
  unfold State.answer
  split
  · exact .refl s
  · split
    · exact .refl s
    · dsimp only
      split <;> exact ⟨rfl, rfl⟩

theorem atomPlace_warpsKept (s : State) (island core : Nat) (ops : List AtomOp) : State.WarpsKept s (s.atomPlace island core ops).2 := by
  unfold State.atomPlace State.predict
  dsimp only
  split
  · exact .refl s
  · split <;> exact ⟨rfl, rfl⟩

theorem sendDrain_warpsKept (s : State) (wid : Nat) (chain : Msg → Bool) (e : RedEntry) : State.WarpsKept s (s.sendDrain wid chain e) :=
  ⟨rfl, rfl⟩

/-! ### Steps that move no thread -/

/-- From `s` to `t` no byte of memory and no thread's PC has changed. -/
structure State.PcsKept (s t : State) : Prop where
  mem : t.mem = s.mem
  pc : ∀ w l, ((t.warp w).thread l).pc = ((s.warp w).thread l).pc

theorem State.PcsKept.refl (s : State) : State.PcsKept s s := ⟨rfl, fun _ _ => rfl⟩

theorem State.PcsKept.trans {s t u : State} (h : State.PcsKept s t) (h' : State.PcsKept t u) : State.PcsKept s u :=
  ⟨h'.mem.trans h.mem, fun w l => (h'.pc w l).trans (h.pc w l)⟩

theorem State.WarpsKept.pcs {s t : State} (h : State.WarpsKept s t) : State.PcsKept s t := ⟨h.mem, fun w l => by rw [h.warp w]⟩

theorem State.PcsKept.foldl {α : Type} {f : State → α → State} (xs : List α) (h : ∀ t a, State.PcsKept t (f t a)) (s : State) :
    State.PcsKept s (xs.foldl f s) :=
  List.foldlRecOn xs f (.refl s) fun t ht a _ => ht.trans (h t a)

theorem setWarp_pcsKept (s : State) (wid : Nat) {x : Warp} (h : ∀ l, (x.thread l).pc = ((s.warp wid).thread l).pc) :
    State.PcsKept s (s.setWarp wid x) := by
  refine ⟨rfl, fun w l => ?_⟩
  rw [warp_setWarp]
  split
  · next e => rw [h l, e]
  · rfl

theorem Warp.pc_modThread (w : Warp) (k : Nat) {f : Thread → Thread} (h : ∀ t, (f t).pc = t.pc) (l : Nat) :
    ((w.modThread k f).thread l).pc = (w.thread l).pc := by
  rw [Warp.modThread, Warp.thread_setThread]
  split
  · next e => rw [h, e.1]
  · rfl

/-- A fold of changes of a warp that keep its threads' PCs keeps them. -/
theorem Warp.pc_foldl {α : Type} {f : Warp → α → Warp} (xs : List α) (h : ∀ w a l, ((f w a).thread l).pc = (w.thread l).pc) (w : Warp)
    (l : Nat) : ((xs.foldl f w).thread l).pc = (w.thread l).pc :=
  List.foldlRecOn (motive := fun x => (x.thread l).pc = (w.thread l).pc) xs f rfl fun x hx a _ => (h x a l).trans hx

theorem Warp.pc_modThreads (w : Warp) (ls : List Nat) {f : Thread → Thread} (h : ∀ t, (f t).pc = t.pc) (l : Nat) :
    ((w.modThreads ls f).thread l).pc = (w.thread l).pc := Warp.pc_foldl ls (fun x k => x.pc_modThread k h) w l

theorem Warp.pc_endHelpers (w : Warp) (l : Nat) : (w.endHelpers.thread l).pc = (w.thread l).pc := by
  refine Warp.pc_foldl _ (fun x k j => ?_) w l
  split
  · exact x.pc_modThread k (fun _ => by rfl) j
  · rfl

theorem Warp.pc_switchOff (w : Warp) (ls : List Nat) (cls : Nat) (pc : PC) (ovl l : Nat) :
    ((w.switchOff ls cls pc ovl).thread l).pc = (w.thread l).pc := by
  unfold Warp.switchOff
  dsimp only
  split
  · rfl
  · refine (Warp.pc_modThreads _ ls (f := fun t => { t with st := .switchedOff }) (fun _ => rfl) l).trans ?_
    split <;> rfl

/-- A change of every thread at once. -/
theorem Warp.pc_mapThreads (w : Warp) {f : Thread → Thread} (h : ∀ t, (f t).pc = t.pc) (l : Nat) :
    (({ w with threads := w.threads.map f } : Warp).thread l).pc = (w.thread l).pc := by
  simp only [Warp.thread, List.getD_eq_getElem?_getD, List.getElem?_map]
  cases w.threads[l]? with
  | none => rfl
  | some t => exact h t

theorem flushWarp_pcsKept (s : State) (wid : Nat) : State.PcsKept s (s.flushWarp wid) :=
  (setWarp_pcsKept s wid (x := { s.warp wid with red := [] }) fun _ => rfl).trans
    (.foldl _ (fun t e => (sendDrain_warpsKept t wid (fun m => (s.block (s.warp wid).block).warps.contains m.warp) e).pcs) _)

/-- A barrier that completes makes threads Active; they stand behind it already (R40). -/
theorem barriers_pcsKept (s : State) (bid : Nat) : State.PcsKept s (s.barriers bid) := by
  refine State.PcsKept.foldl _ (fun t n => ?_) s
  dsimp only
  have flushed : State.PcsKept t (t.flushBlock bid) := .foldl _ flushWarp_pcsKept t
  split
  · split
    · exact flushed
    · refine flushed.trans (.foldl _ (fun u wid => setWarp_pcsKept u wid (Warp.pc_mapThreads _ fun x => ?_)) _)
      split <;> rfl
  · exact .refl t

theorem switchOff_pcsKept (s : State) (wid : Nat) (ls : List Nat) (cls : Nat) (pc : PC) (ovl : Nat) :
    State.PcsKept s (s.switchOff wid ls cls pc ovl) := by
  unfold State.switchOff
  split
  · exact .refl s
  · exact (setWarp_pcsKept s wid fun l => (Warp.pc_endHelpers _ l).trans (Warp.pc_switchOff _ ls cls pc ovl l)).trans (barriers_pcsKept _ _)

theorem park_pcsKept (s : State) (a : Access) (num : Nat) (xs : List (LaneArg × Nat × Nat)) : State.PcsKept s (s.park a num xs) := by
  unfold State.park
  split
  · exact .refl s
  · refine (postFaults_warpsKept s a (xs.map fun x => (x.1, x.2.1))).pcs.trans ?_
    dsimp only
    split <;> exact setWarp_pcsKept _ a.wid fun l => Warp.pc_modThreads _ _ (f := fun t => { t with st := .parked }) (fun _ => rfl) l

theorem stallLanes_pcsKept (s : State) (a : Access) (num : Nat) (xs : List LaneArg) : State.PcsKept s (s.stallLanes a num xs) := by
  unfold State.stallLanes
  split
  · exact .refl s
  · dsimp only
    split
    · exact State.WarpsKept.pcs ⟨rfl, rfl⟩
    · exact (setWarp_pcsKept s a.wid fun l => Warp.pc_modThreads _ _ (fun t => by rfl) l).trans (State.WarpsKept.pcs ⟨rfl, rfl⟩)

/-! ### Steps that write in the L1 or send to a slice (R128, R132 to R134) -/

/-- A map whose entries change, each under its own key. -/
theorem find_mapEntries {α : Type} (m : NMap α) {g : Nat × α → Nat × α} (h : ∀ e, (g e).1 = e.1) (k : Nat) :
    NMap.find? (m.map g) k = (NMap.find? m k).map fun a => (g (k, a)).2 := by
  induction m with
  | nil => rfl
  | cons e m ih =>
    obtain ⟨j, a⟩ := e
    have entry : g (j, a) = (j, (g (j, a)).2) := Prod.ext (h (j, a)) rfl
    rw [List.map_cons, entry, NMap.find?, NMap.find?]
    split
    · next hj => rw [← hj]; rfl
    · exact ih

/-- Floor warps return to normal priority where they stand (R43). -/
theorem touch_pcsKept (s : State) (ws : List Nat) : State.PcsKept s (s.touch ws) := by
  unfold State.touch
  dsimp only
  split
  · refine ⟨rfl, fun w l => ?_⟩
    rw [State.warp, NMap.getD, find_mapEntries _ (fun e => by split <;> rfl), State.warp, NMap.getD]
    cases NMap.find? s.warps w with
    | none => rfl
    | some x =>
      rw [Option.map_some, Option.getD_some, Option.getD_some]
      split <;> rfl
  · exact .refl s

/-- An operation in place changes the L1's copy, not memory (R128). -/
theorem inPlace_pcsKept (s : State) (r : SpanRec) (ops : List AtomOp) (n : Nat) : State.PcsKept s (s.inPlace r ops n).1 :=
  ⟨(touch_pcsKept _ _).mem, (touch_pcsKept _ _).pc⟩

theorem runOwned_pcsKept (island core : Nat) (atomic : Bool) (os : List AtomOp) : ∀ s : State,
    State.PcsKept s (s.runOwned island core atomic os).1 := by
  induction os with
  | nil => exact State.PcsKept.refl
  | cons o os ih =>
    intro s
    unfold State.runOwned
    split
    · exact ih s
    · exact (inPlace_pcsKept s ..).trans (ih _)

theorem nearNow_pcsKept (s : State) (m : Msg) : State.PcsKept s (s.nearNow m) := by
  have ran := runOwned_pcsKept m.island m.core true m.ops s
  unfold State.nearNow
  generalize s.runOwned m.island m.core true m.ops = r at ran ⊢
  exact ran.trans (((dropMsg_warpsKept r.1 m.id).trans (coreCount_warpsKept ..)).trans (answer_warpsKept ..)).pcs

theorem sendWrite_pcsKept (s : State) (a : Access) (b : Block) (page : Nat × Nat) (ops : List AtomOp) :
    State.PcsKept s (s.sendWrite a b page ops) := by
  have sent (t : State) (m : Msg) : State.PcsKept t ((t.addMsg m).coreCount b.island b.core 7 1) :=
    ((addMsg_warpsKept t m).trans (coreCount_warpsKept ..)).pcs
  have numbered := (newId_warpsKept s).pcs
  unfold State.sendWrite
  dsimp only
  split
  · exact numbered.trans (sent ..)
  · split
    · exact numbered.trans (runOwned_pcsKept ..)
    · exact (numbered.trans (runOwned_pcsKept ..)).trans (sent ..)

theorem doStore_pcsKept (s : State) (a : Access) (oks : List (LaneArg × Nat × Nat)) : State.PcsKept s (s.doStore a oks) :=
  .foldl _ (fun t ops => sendWrite_pcsKept t a _ _ ops) s

theorem sendAtom_pcsKept (s : State) (a : Access) (b : Block) (page : Nat × Nat) (asker : Option Nat) (ops : List AtomOp) :
    State.PcsKept s (s.sendAtom a b page asker ops) := by
  unfold State.sendAtom
  have placed := (newId_warpsKept s).trans (atomPlace_warpsKept s.newId.2 b.island b.core ops)
  dsimp only
  generalize s.newId.2.atomPlace b.island b.core ops = r at placed ⊢
  obtain ⟨place, t⟩ := r
  have numbered (u : State) (m : Msg) (h : State.WarpsKept t u) :
      State.PcsKept s ((u.coreCount b.island b.core 7 1).addMsg m) :=
    (placed.trans ((h.trans (coreCount_warpsKept ..)).trans (addMsg_warpsKept ..))).pcs
  dsimp only
  split
  · exact placed.pcs.trans (nearNow_pcsKept ..)
  · cases place with
    | far =>
      refine (numbered _ _ ?_).trans (coreCount_warpsKept ..).pcs
      split <;> exact ⟨rfl, rfl⟩
    | near =>
      refine numbered _ _ ?_
      split <;> exact ⟨rfl, rfl⟩
    | nearHeld =>
      refine numbered _ _ ?_
      split <;> exact ⟨rfl, rfl⟩

theorem doAtomic_pcsKept (s : State) (a : Access) (oks : List (LaneArg × Nat × Nat)) (zeros : List Nat) :
    State.PcsKept s (s.doAtomic a oks zeros) := by
  unfold State.doAtomic
  dsimp only
  refine State.PcsKept.trans (State.WarpsKept.pcs ?_) (.foldl _ (fun t os => sendAtom_pcsKept t a _ _ _ os) _)
  split <;> exact ⟨rfl, rfl⟩

/-! ### The warp's buffer of ordered reductions (R135, R136) -/

/-- Whose contributions a list of entries holds, and their values, in order. -/
def ownEntries (es : List RedEntry) : List (Nat × Nat) := es.map fun e => (e.lane, e.value)

/-- The contributions that the lanes of an access make. -/
def contributions (xs : List (LaneArg × Nat × Nat)) : List (Nat × Nat) := xs.map fun x => (x.1.lane, x.1.data)

/-- How many contributions the buffer takes before one has to wait: none where others wait already. -/
def Warp.redRoom (w : Warp) : Nat := if w.redLate = [] then 1024 - w.red.length else 0

/-- One contribution enters the buffer while there is room, and waits behind the others otherwise. -/
theorem Warp.takeEntry_cases (w : Warp) (a : Access) (x : LaneArg × Nat × Nat) :
    let y := w.takeEntry a x
    ∃ e : RedEntry, e.lane = x.1.lane ∧ e.value = x.1.data ∧
      (0 < w.redRoom → y.red = w.red ++ [e] ∧ y.redLate = w.redLate ∧ y.redRoom = w.redRoom - 1) ∧
      (w.redRoom = 0 → y.red = w.red ∧ y.redLate = w.redLate ++ [e] ∧ y.redRoom = 0) := by
  intro y
  refine ⟨⟨x.2.2, a.aop, a.ty, x.1.data, a.rnd, a.seed, w.pipe, w.warpNo, x.1.lane, w.redSeq⟩, rfl, rfl, fun room => ?_, fun full => ?_⟩
  · have late : w.redLate = [] := Decidable.byContradiction fun h => by simp [Warp.redRoom, h] at room
    have short : w.red.length < 1024 := by rw [Warp.redRoom, if_pos late] at room; omega
    have hy : y = { w with red := w.red ++ [_], redSeq := w.redSeq + 1 } := if_pos (by simp [short, late])
    rw [hy]
    refine ⟨rfl, rfl, ?_⟩
    simp only [Warp.redRoom, late, if_true, List.length_append, List.length_singleton]
    omega
  · have shut : ¬ (w.red.length < 1024 && w.redLate.isEmpty) = true := by
      by_cases late : w.redLate = []
      · rw [Warp.redRoom, if_pos late] at full
        simp; omega
      · simp [late]
    have hy : y = { w with redLate := w.redLate ++ [_], redSeq := w.redSeq + 1 } := if_neg shut
    rw [hy]
    exact ⟨rfl, rfl, if_neg (by simp)⟩

/-- The contributions of an instruction fill the room there is, in order, and the rest wait in order. -/
theorem Warp.takeEntries_fill (a : Access) (xs : List (LaneArg × Nat × Nat)) : ∀ w : Warp,
    let x := xs.foldl (fun w x => w.takeEntry a x) w
    ownEntries x.red = ownEntries w.red ++ (contributions xs).take w.redRoom ∧
      ownEntries x.redLate = ownEntries w.redLate ++ (contributions xs).drop w.redRoom := by
  induction xs with
  | nil => intro w; simp [contributions]
  | cons x xs ih =>
    intro w
    obtain ⟨e, hlane, hvalue, enters, waits⟩ := w.takeEntry_cases a x
    have entry : ownEntries [e] = [(x.1.lane, x.1.data)] := by simp [ownEntries, hlane, hvalue]
    have append (es : List RedEntry) : ownEntries (es ++ [e]) = ownEntries es ++ [(x.1.lane, x.1.data)] := by
      rw [← entry]; exact List.map_append
    obtain ⟨hred, hlate⟩ := ih (w.takeEntry a x)
    rcases Nat.eq_zero_or_pos w.redRoom with full | room
    · obtain ⟨r, l, k⟩ := waits full
      rw [r, k] at hred
      rw [l, k, append] at hlate
      rw [full]
      exact ⟨hred, by simpa [contributions] using hlate⟩
    · obtain ⟨r, l, k⟩ := enters room
      obtain ⟨n, hn⟩ : ∃ n, w.redRoom = n + 1 := ⟨w.redRoom - 1, by omega⟩
      rw [k, hn, Nat.add_sub_cancel] at hred hlate
      rw [r, append] at hred
      rw [l] at hlate
      rw [hn]
      exact ⟨by simpa [contributions] using hred, hlate⟩

theorem takeEntry_pc (w : Warp) (a : Access) (x : LaneArg × Nat × Nat) (l : Nat) : ((w.takeEntry a x).thread l).pc = (w.thread l).pc := by
  unfold Warp.takeEntry
  dsimp only
  split <;> rfl

/-- A change of threads leaves the warp's entries. -/
theorem Warp.modThreads_red (w : Warp) (ls : List Nat) (f : Thread → Thread) :
    (w.modThreads ls f).red = w.red ∧ (w.modThreads ls f).redLate = w.redLate := by
  rw [Warp.modThreads, Warp.each_eq (fun _ => f) ls w]
  exact ⟨rfl, rfl⟩

theorem flushHeld_pcsKept (s : State) (wid : Nat) (lanes : List Nat) : State.PcsKept s (s.flushHeld wid lanes) :=
  (flushWarp_pcsKept s wid).trans (setWarp_pcsKept _ wid fun l => Warp.pc_modThreads _ lanes (fun t => by rfl) l)

/-- A flush empties the warp's buffer, and what waits still waits. -/
theorem flushHeld_red (s : State) (wid : Nat) (lanes : List Nat) :
    ((s.flushHeld wid lanes).warp wid).red = [] ∧ ((s.flushHeld wid lanes).warp wid).redLate = (s.warp wid).redLate := by
  have sent (es : List RedEntry) (chain : Msg → Bool) (t : State) : (es.foldl (fun s e => s.sendDrain wid chain e) t).warp wid = t.warp wid :=
    (State.WarpsKept.foldl es (fun t e => sendDrain_warpsKept t wid chain e) t).warp wid
  have flushed : (s.flushWarp wid).warp wid = { s.warp wid with red := [] } := (sent _ _ _).trans (warp_setWarp_same ..)
  rw [State.flushHeld, State.modWarp, warp_setWarp_same, (Warp.modThreads_red _ _ _).1, (Warp.modThreads_red _ _ _).2, flushed]
  exact ⟨rfl, rfl⟩

theorem takeEntries_pcsKept (s : State) (a : Access) (xs : List (LaneArg × Nat × Nat)) : State.PcsKept s (s.takeEntries a xs) := by
  have taken : State.PcsKept s (s.modWarp a.wid fun w => xs.foldl (fun w x => w.takeEntry a x) w) :=
    setWarp_pcsKept s a.wid fun l => Warp.pc_foldl xs (fun w x l => takeEntry_pc w a x l) _ l
  unfold State.takeEntries
  dsimp only
  split
  · exact taken
  · exact taken.trans (flushHeld_pcsKept ..)

/-- Where the buffer has room for every contribution they enter it; otherwise it is flushed, and what did not fit waits (R135). -/
theorem takeEntries_red (s : State) (a : Access) (xs : List (LaneArg × Nat × Nat)) :
    let w := s.warp a.wid
    let x := (s.takeEntries a xs).warp a.wid
    if w.redLate = [] ∧ xs.length ≤ w.redRoom then ownEntries x.red = ownEntries w.red ++ contributions xs ∧ x.redLate = []
    else x.red = [] ∧ ownEntries x.redLate = ownEntries w.redLate ++ (contributions xs).drop w.redRoom := by
  intro w x
  obtain ⟨hred, hlate⟩ := Warp.takeEntries_fill a xs w
  have fits : (xs.foldl (fun w x => w.takeEntry a x) w).redLate.isEmpty = true ↔ w.redLate = [] ∧ xs.length ≤ w.redRoom := by
    rw [List.isEmpty_iff, ← List.map_eq_nil_iff, ← ownEntries, hlate, List.append_eq_nil_iff, ownEntries, List.map_eq_nil_iff,
      List.drop_eq_nil_iff, contributions, List.length_map]
  have hx : x = (s.takeEntries a xs).warp a.wid := rfl
  unfold State.takeEntries at hx
  dsimp only at hx
  rw [State.modWarp, warp_setWarp_same] at hx
  split
  · next room =>
    rw [if_pos (fits.mpr room), warp_setWarp_same] at hx
    rw [hx, hred, List.take_of_length_le (by rw [contributions, List.length_map]; exact room.2)]
    exact ⟨rfl, List.isEmpty_iff.mp (fits.mpr room)⟩
  · next full =>
    rw [if_neg (mt fits.mp full)] at hx
    rw [hx, (flushHeld_red ..).1, (flushHeld_red ..).2, warp_setWarp_same]
    exact ⟨rfl, hlate⟩

/-! ### What an access comes to where nothing holds it up (R374) -/

/-- The lanes of an access that act, with leaf and address. -/
def State.acting (s : State) (a : Access) : List (LaneArg × Nat × Nat) :=
  oksOf ((s.resolveAll a a.lanes).1.filter fun r => !(s.resolveAll a a.lanes).2.helperZero a r)

/-- The machine once those lanes have acted: before lanes that met a fault park, stall or are switched off. -/
def State.acted (s : State) (a : Access) : State :=
  let rs := s.resolveAll a a.lanes
  rs.2.act a (s.acting a) (a.zero ++ (rs.1.filter (rs.2.helperZero a)).map fun r => r.1.lane)

theorem mem_oksOf {rs : List (LaneArg × LaneRes)} {x : LaneArg × Nat × Nat} : x ∈ oksOf rs ↔ (x.1, .ok x.2.1 x.2.2) ∈ rs := by
  unfold oksOf
  rw [List.mem_filterMap]
  constructor
  · rintro ⟨⟨arg, res⟩, hr, hx⟩
    cases res <;> simp at hx
    subst hx; exact hr
  · exact fun h => ⟨_, h, rfl⟩

/-- Only a bounds check that fails switches lanes off. -/
theorem outLanes_of_ok {a : Access} (w : Warp) {rs : List (LaneArg × LaneRes)} (h : ∀ r ∈ rs, ∃ e pa, r.2 = .ok e pa) :
    a.outLanes w rs = [] := by
  refine if_neg fun out => ?_
  obtain ⟨r, hr, hout⟩ := List.any_eq_true.mp out
  obtain ⟨e, pa, hok⟩ := h r hr
  simp [hok] at hout

/-- The lanes that meet a replayable class, with the class and the page's type. -/
def faultsOf (rs : List (LaneArg × LaneRes)) : List (LaneArg × Nat × Nat) :=
  rs.filterMap fun r => match r.2 with | .fault c t => some (r.1, c, t) | _ => none

/-- The lanes that meet a page in TRANSIT. -/
def transitsOf (rs : List (LaneArg × LaneRes)) : List LaneArg := rs.filterMap fun r => if r.2 == .transit then some r.1 else none

/-- What follows once lanes have acted: those that met a fault park, those in TRANSIT stall, and those out of bounds are switched off. -/
def State.aftermath (s : State) (a : Access) (went off : List Nat) (faults : List (LaneArg × Nat × Nat)) (transit : List LaneArg) : State :=
  let r := if a.replay.isNone && !(faults.isEmpty && transit.isEmpty) then s.newId else (a.replay.getD 0, s)
  let t := (r.2.park a r.1 faults).stallLanes a r.1 transit
  (t.settle a went (faults.map (fun f => f.1.lane) ++ transit.map fun x => x.lane)).switchOff a.wid off 0x21 a.pc a.ovl

theorem settle_first {a : Access} (h : a.replay = none) (s : State) (went stayed : List Nat) : s.settle a went stayed = s := by
  rw [State.settle, h]

theorem aftermath_pcsKept {a : Access} (h : a.replay = none) (s : State) (went off : List Nat) (faults : List (LaneArg × Nat × Nat))
    (transit : List LaneArg) : State.PcsKept s (s.aftermath a went off faults transit) := by
  unfold State.aftermath
  dsimp only
  rw [settle_first h]
  refine State.PcsKept.trans ?_ (((park_pcsKept ..).trans (stallLanes_pcsKept ..)).trans (switchOff_pcsKept ..))
  split
  · exact (newId_warpsKept s).pcs
  · exact .refl s

theorem aftermath_nothing {a : Access} (h : a.replay = none) (s : State) (went : List Nat) : s.aftermath a went [] [] [] = s := by
  unfold State.aftermath
  dsimp only
  rw [settle_first h, if_neg (by simp)]
  rfl

/-- An access that may go ahead is performed. -/
theorem access_of_mayGo {s : State} {a : Access} (h : MayGo s a) :
    let rs := s.resolveAll a a.lanes
    let live := rs.1.filter fun r => !rs.2.helperZero a r
    s.access a = .done ((s.acted a).aftermath a ((s.acting a).map fun x => x.1.lane) (a.outLanes (rs.2.warp a.wid) rs.1) (faultsOf live)
      (transitsOf live)) := by
  obtain ⟨unstopped, free⟩ := h
  unfold State.access State.acted State.acting
  generalize s.resolveAll a a.lanes = r at unstopped free
  obtain ⟨rs, u⟩ := r
  dsimp only at unstopped free ⊢
  have idle : ¬ (rs.any fun r => !(r.1.helper && a.offGrid r.1) && r.2 == .busy) = true := by
    rw [List.any_eq_true]
    rintro ⟨r, hr, hb⟩
    rw [Bool.and_eq_true, Bool.not_eq_true', beq_iff_eq] at hb
    exact (free r hr).1 hb.1 hb.2
  have ready : ¬ ((oksOf (rs.filter fun r => !u.helperZero a r)).any fun x => u.mustWait a x.1 x.2.1 x.2.2) = true := by
    rw [List.any_eq_true]
    rintro ⟨x, hx, hw⟩
    obtain ⟨hmem, hz⟩ := List.mem_filter.mp (mem_oksOf.mp hx)
    rw [(free _ hmem).2 _ _ rfl (by simpa using hz)] at hw
    cases hw
  rw [if_neg idle, unstopped]
  dsimp only [List.head?_nil]
  rw [if_neg ready]
  rfl

theorem faultsOf_of_ok {rs : List (LaneArg × LaneRes)} (h : ∀ r ∈ rs, ∃ e pa, r.2 = .ok e pa) : faultsOf rs = [] ∧ transitsOf rs = [] := by
  unfold faultsOf transitsOf
  refine ⟨List.filterMap_eq_nil_iff.mpr fun r hr => ?_, List.filterMap_eq_nil_iff.mpr fun r hr => ?_⟩
  · obtain ⟨e, pa, hok⟩ := h r hr
    rw [hok]
  · obtain ⟨e, pa, hok⟩ := h r hr
    rw [hok]
    rfl

/-- Where every lane's page answers, nothing follows what the lanes do. -/
theorem access_of_ok {s : State} {a : Access} (h : MayGo s a) (hr : a.replay = none)
    (ok : ∀ r ∈ (s.resolveAll a a.lanes).1, ∃ e pa, r.2 = .ok e pa) : s.access a = .done (s.acted a) := by
  obtain ⟨hf, ht⟩ := faultsOf_of_ok fun r hr => ok r (List.mem_filter.mp hr).1
  rw [access_of_mayGo h, outLanes_of_ok _ ok, hf, ht, aftermath_nothing hr]

theorem act_pcsKept (s : State) {a : Access} (h : a.writes = true) (oks : List (LaneArg × Nat × Nat)) (zeros : List Nat) :
    State.PcsKept s (s.act a oks zeros) := by
  unfold State.act
  dsimp only
  split
  case h_1 hk | h_2 hk | h_3 hk => simp [Access.writes, hk] at h
  case h_4 => exact doStore_pcsKept ..
  case h_5 | h_6 =>
    split
    · exact .refl s
    · exact doAtomic_pcsKept ..
  case h_7 =>
    split
    · exact .refl s
    · exact takeEntries_pcsKept ..

theorem acted_pcsKept (s : State) {a : Access} (h : a.writes = true) : State.PcsKept s (s.acted a) :=
  (resolveAll_warpsKept s a a.lanes).pcs.trans (act_pcsKept _ h _ _)

/-- A store, atomic or reduction that may go ahead is performed, and changes neither memory nor a PC. -/
theorem access_writes {s : State} {a : Access} (h : MayGo s a) (hr : a.replay = none) (hw : a.writes = true) :
    ∃ t, s.access a = .done t ∧ State.PcsKept s t :=
  ⟨_, access_of_mayGo h, (acted_pcsKept s hw).trans (aftermath_pcsKept hr ..)⟩

/-! ### What an ordered reduction leaves in its warp's buffer (R135) -/

theorem resolveFrom_args (a : Access) (xs : List LaneArg) : ∀ (s : State) (gone : List Nat),
    (s.resolveFrom a gone xs).1.map Prod.fst = xs := by
  induction xs with
  | nil => exact fun _ _ => rfl
  | cons x xs ih => exact fun s gone => congrArg (x :: ·) (ih _ _)

theorem oksOf_args {rs : List (LaneArg × LaneRes)} (h : ∀ r ∈ rs, ∃ e pa, r.2 = .ok e pa) : (oksOf rs).map Prod.fst = rs.map Prod.fst := by
  induction rs with
  | nil => rfl
  | cons r rs ih =>
    obtain ⟨e, pa, hok⟩ := h r List.mem_cons_self
    have head : oksOf (r :: rs) = (r.1, e, pa) :: oksOf rs := List.filterMap_cons_some (by rw [hok])
    rw [head, List.map_cons, List.map_cons, ih fun r hr => h r (List.mem_cons_of_mem _ hr)]

/-- Where no lane is a helper and every lane's page answers, every lane acts. -/
theorem acting_of_ok {s : State} {a : Access} (hm : ∀ x ∈ a.lanes, x.helper = false)
    (ok : ∀ r ∈ (s.resolveAll a a.lanes).1, ∃ e pa, r.2 = .ok e pa) : (s.acting a).map Prod.fst = a.lanes := by
  have args : (s.resolveAll a a.lanes).1.map Prod.fst = a.lanes := resolveFrom_args a a.lanes s []
  have all : ((s.resolveAll a a.lanes).1.filter fun r => !(s.resolveAll a a.lanes).2.helperZero a r) = (s.resolveAll a a.lanes).1 := by
    refine List.filter_eq_self.mpr fun r hr => ?_
    have member : r.1.helper = false := hm _ (args ▸ List.mem_map_of_mem hr)
    simp [State.helperZero, member]
  rw [State.acting, all, oksOf_args ok, args]

/-- The buffer and what waits for it after an ordered reduction whose lanes all act. -/
theorem acted_red {s : State} {a : Access} (hk : a.kind = .redOrd) (hm : ∀ x ∈ a.lanes, x.helper = false)
    (ok : ∀ r ∈ (s.resolveAll a a.lanes).1, ∃ e pa, r.2 = .ok e pa) :
    let w := s.warp a.wid
    let x := (s.acted a).warp a.wid
    let new := a.lanes.map fun y => (y.lane, y.data)
    if a.lanes = [] then x.red = w.red ∧ x.redLate = w.redLate
    else if w.redLate = [] ∧ w.red.length + a.lanes.length ≤ 1024 then ownEntries x.red = ownEntries w.red ++ new ∧ x.redLate = []
    else x.red = [] ∧ ownEntries x.redLate = ownEntries w.redLate ++ (if w.redLate = [] then new.drop (1024 - w.red.length) else new) := by
  intro w x new
  have args := acting_of_ok hm ok
  have kept : (s.resolveAll a a.lanes).2.warp a.wid = w := (resolveAll_warpsKept s a a.lanes).warp a.wid
  have members : ((s.acting a).filter fun y => !y.1.helper) = s.acting a := by
    refine List.filter_eq_self.mpr fun y hy => ?_
    rw [hm y.1 (args ▸ List.mem_map_of_mem hy)]
    rfl
  have hnew : contributions (s.acting a) = new := by
    show _ = a.lanes.map _
    rw [← args, List.map_map]
    rfl
  have hlen : (s.acting a).length = a.lanes.length := by rw [← args, List.length_map]
  have hx : x = (if (s.acting a).isEmpty then (s.resolveAll a a.lanes).2 else (s.resolveAll a a.lanes).2.takeEntries a (s.acting a)).warp a.wid := by
    show (State.acted s a).warp a.wid = _
    rw [State.acted, State.act, hk]
    dsimp only
    rw [members]
  by_cases noLane : a.lanes = []
  · have empty : (s.acting a).isEmpty = true := by rw [List.isEmpty_iff, ← List.length_eq_zero_iff, hlen, noLane]; rfl
    rw [if_pos noLane, hx, if_pos empty, kept]
    exact ⟨rfl, rfl⟩
  · have acts : ¬ (s.acting a).isEmpty = true := by
      rw [List.isEmpty_iff, ← List.length_eq_zero_iff, hlen, List.length_eq_zero_iff]; exact noLane
    have red := takeEntries_red (s.resolveAll a a.lanes).2 a (s.acting a)
    have pos := List.length_pos_iff.mpr noLane
    have fits : (w.redLate = [] ∧ (s.acting a).length ≤ w.redRoom) ↔ (w.redLate = [] ∧ w.red.length + a.lanes.length ≤ 1024) :=
      and_congr_right fun late => by rw [Warp.redRoom, if_pos late]; omega
    have waits : new.drop w.redRoom = if w.redLate = [] then new.drop (1024 - w.red.length) else new := by
      rw [Warp.redRoom]; split <;> rfl
    dsimp only at red
    rw [kept, hnew, waits] at red
    rw [if_neg noLane, hx, if_neg acts]
    simpa only [fits] using red

/-! ### The issue of a global access -/

/-- The warp of a global access before its group moves on. -/
def beforeMove (c : Ctx) (u : Usage) (g : BitVec 4) (a : Access) (stoch : Bool) : Warp :=
  let inside := (a.lanes.filter fun x => x.helper || !recOutside a.brec.toNat a.n (a.elem x)).map fun x => x.lane
  let x := (inside ++ a.zero).foldl (fun x l => u.dsts.foldl (fun x d => x.emptyV l d.1 d.2) x) (c.sourced u g)
  if stoch && a.rnd = 5 then { x with srseed := BitVec.ofNat 64 (nextSeed x.srseed.toNat) } else x

theorem globalWarp_eq (c : Ctx) (u : Usage) (g : BitVec 4) (a : Access) (len : Nat) (stoch : Bool) :
    globalWarp c u g a len stoch = (beforeMove c u g a stoch).advance c.i.lanes len := rfl

/-- A draw of the warp's seed leaves its threads and its entries. -/
theorem Warp.ite_srseed (x : Warp) (c : Prop) [Decidable c] (v : BitVec 64) :
    let y := if c then { x with srseed := v } else x
    y.threads = x.threads ∧ y.red = x.red ∧ y.redLate = x.redLate := by
  dsimp only
  split <;> exact ⟨rfl, rfl, rfl⟩

theorem Warp.sameBut_red {x w : Warp} (h : Warp.sameBut x w) : x.red = w.red ∧ x.redLate = w.redLate :=
  ⟨(congrArg Warp.red h : _), (congrArg Warp.redLate h : _)⟩

theorem beforeMove_threads (s : State) (i : Issue) (u : Usage) (g : BitVec 4) (a : Access) (stoch : Bool) :
    (beforeMove (s.ctx i) u g a stoch).threads = (marked (s.ctx i) u g (readsDead s i u)).threads :=
  (Warp.ite_srseed ..).1.trans (Warp.threads_empties u _ _)

theorem beforeMove_red (s : State) (i : Issue) (u : Usage) (g : BitVec 4) (a : Access) (stoch : Bool) :
    (beforeMove (s.ctx i) u g a stoch).red = (s.warp i.warp).red ∧ (beforeMove (s.ctx i) u g a stoch).redLate = (s.warp i.warp).redLate := by
  have kept (ls : List Nat) := Warp.sameBut_red (Warp.sameBut_trans (Warp.empties_same u ls _) (marked_same (s.ctx i) u g (readsDead s i u)))
  exact ⟨(Warp.ite_srseed ..).2.1.trans (kept _).1, (Warp.ite_srseed ..).2.2.trans (kept _).2⟩

/-- An issue changes threads' PCs only by moving its group on. -/
theorem globalWarp_pc {s : State} {i : Issue} (h : Group s i) (u : Usage) (g : BitVec 4) (a : Access) (len : Nat) (stoch : Bool) (l : Nat)
    (hl : l < (s.warp i.warp).threads.length) : ((globalWarp (s.ctx i) u g a len stoch).thread l).pc = lanePc s i len l := by
  have threads := beforeMove_threads s i u g a stoch
  rw [globalWarp_eq, ctx_i, Warp.advance_thread h _ len l (threads ▸ length_marked ..) (fun k hk => ?_) hl]
  rw [Warp.thread_of_threads threads, thread_marked h u g _ k hk]
  split <;> exact ⟨rfl, rfl⟩

theorem globalWarp_red (s : State) (i : Issue) (u : Usage) (g : BitVec 4) (a : Access) (len : Nat) (stoch : Bool) :
    (globalWarp (s.ctx i) u g a len stoch).red = (s.warp i.warp).red ∧
      (globalWarp (s.ctx i) u g a len stoch).redLate = (s.warp i.warp).redLate := by
  have moved := Warp.sameBut_red (Warp.advance_same (beforeMove (s.ctx i) u g a stoch) i.lanes len)
  have before := beforeMove_red s i u g a stoch
  exact ⟨moved.1.trans before.1, moved.2.trans before.2⟩

/-- A global access that passes its checks and is performed completes. -/
theorem globalInstr_done {s : State} {i : Issue} {g : BitVec 4} {u : Usage} {a : Access} {brec len : Nat} {rules : Ctx → Check}
    {args : Ctx → List LaneArg} {zero : Ctx → List Nat} {stoch : Bool} {t : State} (h : Group s i) (hc : laneChecks u g rules (s.ctx i) = .go)
    (ht : let b := a.filled s (s.ctx i) brec (args (s.ctx i)) (zero (s.ctx i))
      (s.setWarp i.warp (globalWarp (s.ctx i) u g b len stoch)).access b = .done t) :
    globalInstr s g u a brec len rules args zero stoch = .next t.endIssue := by
  rw [globalInstr, issueOut_go h.on hc]
  dsimp only at ht ⊢
  rw [ctx_wid, ht]

/-- The group has moved on by `len` words, its issue is over, and no byte of memory has changed. -/
def MovedQuietly (s t : State) (i : Issue) (len : Nat) : Prop :=
  t.mem = s.mem ∧ t.issue = none ∧ ∀ l, l < (s.warp i.warp).threads.length → ((t.warp i.warp).thread l).pc = lanePc s i len l

theorem movedQuietly_of {s t : State} {i : Issue} (h : Group s i) {u : Usage} {g : BitVec 4} {a : Access} {len : Nat} {stoch : Bool}
    (ht : State.PcsKept (s.setWarp i.warp (globalWarp (s.ctx i) u g a len stoch)) t) : MovedQuietly s t.endIssue i len := by
  refine ⟨ht.mem, rfl, fun l hl => (ht.pc i.warp l).trans ?_⟩
  rw [warp_setWarp_same]
  exact globalWarp_pc h u g a len stoch l hl

theorem exec_stg (w : WordM) (s : State) : exec (.stg w) s = globalInstr s w.guard (useOf (.stg w)) (accessM w .store 0 [] []) w.brec.toNat 1
    (globalRules s w.guard w.brec.toNat w.index.toNat w.ofs (2 ^ w.size.toNat)) (argsM w true) (fun _ => []) false := rfl

/-- An atomic and the two reductions are one global access, of their own kind. -/
theorem exec_atomic {w : WordMA} {kind : AccKind} {ins : Instr}
    (h : (kind = .atomic ∧ ins = .atom w) ∨ (kind = .red ∧ ins = .red w) ∨ (kind = .redOrd ∧ ins = .redOrd w)) (s : State) :
    exec ins s = globalInstr s w.guard (useOf ins) (accessMA w kind 0 []) w.brec.toNat 2
      (globalRules s w.guard w.brec.toNat w.index.toNat w.ofs (2 ^ w.size.toNat)) (argsMA w)
      (fun c => if w.ret = 1 then c.helpers w.guard else []) true := by
  rcases h with ⟨rfl, rfl⟩ | ⟨rfl, rfl⟩ | ⟨rfl, rfl⟩ <;> rfl

/-! ### The statement -/

/-- Settles O21: what each access comes to once it may go ahead, and for ordered reductions what the buffer then holds. -/
theorem globalWritesIssue : Obligations.GlobalWritesIssue := by
  intro s i h c moved
  refine ⟨fun w => ?_, fun w kind ins hkind => ?_⟩
  · intro a hc hgo
    obtain ⟨t, hacc, hkept⟩ := access_writes hgo rfl rfl
    exact ⟨_, (exec_stg w s).trans (globalInstr_done h hc hacc), movedQuietly_of h hkept⟩
  · intro zero a s1 hc hgo
    have hw : a.writes = true := by
      rcases hkind with ⟨rfl, -⟩ | ⟨rfl, -⟩ | ⟨rfl, -⟩ <;> rfl
    obtain ⟨t, hacc, hkept⟩ := access_writes hgo rfl hw
    refine ⟨_, (exec_atomic hkind s).trans (globalInstr_done h hc hacc), movedQuietly_of h hkept, fun hk ok => ?_⟩
    have done : t = s1.acted a := AccOut.done.inj (hacc.symm.trans (access_of_ok hgo rfl ok))
    have members : ∀ x ∈ a.lanes, x.helper = false := by
      intro x hx
      obtain ⟨l, -, rfl⟩ := List.mem_map.mp hx
      rfl
    have red := acted_red (s := s1) (a := a) hk members ok
    have issued : s1.warp a.wid = globalWarp c (useOf ins) w.guard a 2 true := warp_setWarp_same ..
    obtain ⟨hred, hlate⟩ : (globalWarp c (useOf ins) w.guard a 2 true).red = c.w.red ∧
        (globalWarp c (useOf ins) w.guard a 2 true).redLate = c.w.redLate := globalWarp_red s i ..
    dsimp only at red
    rw [issued, hred, hlate, ← done] at red
    exact red

end Sys2Proof.Machine
end

section
/-!
PROOF. Packets at their targets (R87, R218, R365 to R367): how an answer goes back, what an addition to a target counter comes to, then each
event of the statement O49.
-/
namespace Sys2Proof.Machine

/-! ### Answers (R201, R214) -/

/-- Packet `id` has been taken out and an answer of a kind with some bytes goes back from node `n` over the way that the packet came. -/
def AnsweredBy (id n : Nat) (p : Packet) (s t : State) (kind : PacketKind) (bs : List Byte) : Prop :=
  t.mem = s.mem ∧ ∃ q, q.kind = kind ∧ q.payload = bs ∧ q.place = .atRouter n ∧ q.route = backRoute p.back ∧ q.id = s.fresh ∧
    t.packets = s.packets.filter (fun x => x.id != id) ++ [q]

/-- A reply that sets its payload, and otherwise only `since` and `ret`. -/
theorem replyTo_answers (s : State) (p : Packet) (n : Nat) (kind : PacketKind) (bs : List Byte) {f : Packet → Packet}
    (h : ∀ q, ∃ since ret, f q = { q with payload := bs, since := since, ret := ret }) : AnsweredBy p.id n p s (s.replyTo p n kind f) kind bs := by
  obtain ⟨since, ret, hf⟩ := h (p.reply s.fresh n kind)
  refine ⟨rfl, f (p.reply s.fresh n kind), ?_, ?_, ?_, ?_, ?_, rfl⟩ <;> rw [hf] <;> rfl

theorem packetStep_ok (p : Packet) (n win asid : Nat) (write : Bool) (s : State) (ps : List (Nat × Nat × Nat))
    (k : State → List (Nat × Nat × Nat) → State) : packetStep p n win asid write (.ok s ps) k = k s ps := rfl

/-- What the addition to a packet's target counter comes to: with none the answer goes at once; otherwise it goes once the counter has
gained the bytes (R87, R214). -/
theorem targetAdd_answers (s : State) (p : Packet) (n : Nat) (kind : PacketKind) (bs : List Byte) :
    (p.tcen = false → AnsweredBy p.id n p s (s.targetAdd p n kind bs) kind bs) ∧
    (∀ c va t ps, p.tcen = true → s.targetWindow p n p.tcwin p.tcofs 16 = some (c, va) → s.ctrUpdate c va (ctrAdd p.len) = .ok t ps →
      AnsweredBy p.id n p t (s.targetAdd p n kind bs) kind bs) := by
  unfold State.targetAdd
  dsimp only
  refine ⟨fun off => ?_, fun c va t ps on hwin hadd => ?_⟩
  · rw [if_neg (by simp [off])]
    exact replyTo_answers s p n kind bs fun q => ⟨_, _, rfl⟩
  · rw [if_pos on, hwin]
    dsimp only
    rw [hadd, packetStep_ok]
    exact replyTo_answers t p n kind bs fun q => ⟨_, _, rfl⟩

/-- The target counter of a packet, if it has one, admits the addition; `t` is the machine after that check. -/
def CounterAdmits (p : Packet) (n : Nat) (s t : State) : Prop := (p.tcen = false ∧ t = s) ∨
  ∃ c va ps, p.tcen = true ∧ s.targetWindow p n p.tcwin p.tcofs 16 = some (c, va) ∧ (s.engResolve c .counter [(va, 16)]).1 = .ok t ps

theorem checkTarget_admits {p : Packet} {n : Nat} {s t : State} (h : CounterAdmits p n s t) (k : State → State) : s.checkTarget p n k = k t := by
  unfold State.checkTarget
  rcases h with ⟨off, rfl⟩ | ⟨c, va, ps, on, hwin, hok⟩
  · rw [if_neg (by simp [off])]
  · rw [if_pos on, hwin]
    dsimp only
    rw [hok, packetStep_ok]

theorem State.atTarget_id {s : State} {id : Nat} {kind : PacketKind} {p : Packet} {n : Nat} (h : s.atTarget id kind = some (p, n)) : p.id = id := by
  unfold State.atTarget at h
  split at h
  · next x hx =>
    split at h
    · split at h
      · cases h; exact State.packet?_id hx
      · cases h
    · cases h
  · cases h

/-! ### `PUT_PACKET_AT_TARGET` (R87, R365) -/

theorem exec_putPacketAtTarget (id : Nat) (s : State) : exec (.putPacketAtTarget id) s = execPutPacketAtTarget id s := rfl

theorem putPacket_again {s : State} {id : Nat} {p : Packet} {n : Nat} (h : s.atTarget id .putData = some (p, n)) (hr : p.ret = true) :
    exec (.putPacketAtTarget id) s = .next (s.targetAdd p n .completion []) := by
  rw [exec_putPacketAtTarget, execPutPacketAtTarget, h]
  exact congrArg _ (if_pos hr)

theorem putPacket_writes {s : State} {id : Nat} {p : Packet} {n : Nat} {c : EngSite} {va : Nat} {s1 s2 s3 : State} {ps1 ps : List (Nat × Nat × Nat)}
    (h : s.atTarget id .putData = some (p, n)) (hr : p.ret = false) (hwin : s.targetWindow p n p.win p.ofs p.payload.length = some (c, va))
    (hpage : (s.engResolve c .write [(va, p.payload.length)]).1 = .ok s1 ps1) (hctr : CounterAdmits p n s1 s2)
    (hacc : s2.engAccess c .write [(va, p.payload.length)] = .ok s3 ps) :
    let done : Packet := { p with ret := true, since := none }
    exec (.putPacketAtTarget id) s = .next (((s3.engWrite c .write ps p.payload).setPacket done).targetAdd done n .completion []) := by
  rw [exec_putPacketAtTarget, execPutPacketAtTarget, h]
  dsimp only
  rw [if_neg (by simp [hr]), hwin]
  dsimp only
  rw [hpage, packetStep_ok, checkTarget_admits hctr, hacc, packetStep_ok]

/-! ### `GET_REQUEST_AT_TARGET` (R366) -/

theorem getRequest_reads {s : State} {id : Nat} {p : Packet} {n : Nat} {c : EngSite} {va : Nat} {s1 : State} {ps : List (Nat × Nat × Nat)}
    (h : s.atTarget id .getRequest = some (p, n)) (hwin : s.targetWindow p n p.win p.ofs p.len = some (c, va))
    (hacc : s.engAccess c .read [(va, p.len)] = .ok s1 ps) :
    ∃ t, exec (.getRequestAtTarget id) s = .next t ∧ AnsweredBy id n p s1 t .getData (s1.engBytes ps) := by
  obtain rfl := State.atTarget_id h
  refine ⟨_, ?_, replyTo_answers s1 p n .getData (s1.engBytes ps) fun q => ⟨none, q.ret, rfl⟩⟩
  show execGetRequestAtTarget p.id s = _
  rw [execGetRequestAtTarget, h]
  dsimp only
  rw [hwin]
  dsimp only
  rw [hacc, packetStep_ok]

/-! ### `RATOM_AT_TARGET` (R87, R366, R367) -/

theorem exec_ratomAtTarget (id : Nat) (s : State) : exec (.ratomAtTarget id) s = execRatomAtTarget id s := rfl

theorem ratom_again {s : State} {id : Nat} {p : Packet} {n : Nat} (h : s.atTarget id .ratomReq = some (p, n)) (hp : p.payload ≠ []) :
    exec (.ratomAtTarget id) s = .next (s.targetAdd p n .ratomResult p.payload) := by
  rw [exec_ratomAtTarget, execRatomAtTarget, h]
  exact congrArg _ (if_pos (by simpa using hp))

/-- What a `ratom` writes at its words, if its operation writes at all. -/
def State.ratomWrite (s : State) (c : EngSite) (p : Packet) (ps : List (Nat × Nat × Nat)) : State :=
  match p.op.new (valueOf (s.engBytes ps)) with
  | some v => s.engWrite c .ratom ps (bytesOf p.len v)
  | none => s

theorem ratom_performs {s : State} {id : Nat} {p : Packet} {n : Nat} {c : EngSite} {va : Nat} {s1 s2 s3 : State} {ps1 ps : List (Nat × Nat × Nat)}
    (h : s.atTarget id .ratomReq = some (p, n)) (hp : p.payload = []) (hwin : s.targetWindow p n p.win p.ofs p.len = some (c, va))
    (hpage : (s.engResolve c .ratom [(va, p.len)]).1 = .ok s1 ps1) (hctr : CounterAdmits p n s1 s2)
    (hacc : s2.engAccess c .ratom [(va, p.len)] = .ok s3 ps) :
    let done : Packet := { p with payload := s3.engBytes ps, since := none }
    exec (.ratomAtTarget id) s =
      .next ((((s3.ratomWrite c p ps).farSeen c ps).setPacket done).targetAdd done n .ratomResult (s3.engBytes ps)) := by
  rw [exec_ratomAtTarget, execRatomAtTarget, h]
  dsimp only
  rw [if_neg (by simp [hp]), hwin]
  dsimp only
  rw [hpage, packetStep_ok, checkTarget_admits hctr, hacc, packetStep_ok]
  rfl

/-! ### Windows that do not admit the bytes (R207, R365) -/

/-- The events of requests at their target, with the bytes that each asks its window for. -/
def RequestEvent (id : Nat) (p : Packet) (ev : Instr) (kind : PacketKind) (size : Nat) : Prop :=
  (ev = .putPacketAtTarget id ∧ kind = .putData ∧ size = p.payload.length ∧ p.ret = false) ∨
    (ev = .getRequestAtTarget id ∧ kind = .getRequest ∧ size = p.len) ∨
    (ev = .ratomAtTarget id ∧ kind = .ratomReq ∧ size = p.len ∧ p.payload = [])

theorem request_refused {s : State} {id : Nat} {p : Packet} {n : Nat} {ev : Instr} {kind : PacketKind} {size : Nat}
    (hev : RequestEvent id p ev kind size) (h : s.atTarget id kind = some (p, n)) (hwin : s.targetWindow p n p.win p.ofs size = none) :
    exec ev s = .next (s.dropWith n 0x32 p) := by
  rcases hev with ⟨rfl, rfl, rfl, hr⟩ | ⟨rfl, rfl, rfl⟩ | ⟨rfl, rfl, rfl, hp⟩
  · rw [exec_putPacketAtTarget, execPutPacketAtTarget, h]
    dsimp only
    rw [if_neg (by simp [hr]), hwin]
  · show execGetRequestAtTarget id s = _
    rw [execGetRequestAtTarget, h]
    dsimp only
    rw [hwin]
  · rw [exec_ratomAtTarget, execRatomAtTarget, h]
    dsimp only
    rw [if_neg (by simp [hp]), hwin]

/-! ### Notify counters (R217, R218) -/

@[simp] theorem State.evalHeads_reg (s : State) (r : RegName) (i : Nat) : s.evalHeads.reg r i = s.reg r i := rfl

theorem State.reg_setW1c_same (s : State) (r : RegName) (i b : Nat) : (s.setW1c r i b).reg r i = setBits (s.reg r i) b b 1 :=
  NMap.getD_set_same ..

/-- An enabled counter of the partition gains what a `notify` adds, and saturates. -/
theorem notifyAdd_accepted {s : State} {island counter part : Nat} (inc : Nat)
    (h : bit (s.reg .islNctr (nctrIx island counter)) 47 = true ∧ bits (s.reg .islNctr (nctrIx island counter)) 46 40 = part) :
    ∃ t, s.notifyAdd island counter inc part = (t, true) ∧ t.mem = s.mem ∧ t.packets = s.packets ∧
      bits (t.reg .islNctr (nctrIx island counter)) 31 0 = min (2 ^ 32 - 1) (bits (s.reg .islNctr (nctrIx island counter)) 31 0 + inc) := by
  unfold State.notifyAdd
  dsimp only
  rw [if_pos (by simpa using h)]
  refine ⟨_, rfl, ?_⟩
  split
  · next fits =>
    refine ⟨rfl, rfl, ?_⟩
    rw [State.evalHeads_reg, State.reg_setReg_same, bits_setBits]
    omega
  · next full =>
    refine ⟨rfl, rfl, ?_⟩
    rw [State.evalHeads_reg, State.reg_setW1c_same, bits_setBits_below _ _ (by decide) (by decide), State.reg_setReg_same, bits_setBits]
    omega

/-- A refused addition is counted. -/
theorem notifyAdd_refused {s : State} {island counter part : Nat} (inc : Nat)
    (h : ¬ (bit (s.reg .islNctr (nctrIx island counter)) 47 = true ∧ bits (s.reg .islNctr (nctrIx island counter)) 46 40 = part)) :
    ∃ t, s.notifyAdd island counter inc part = (t, false) ∧ State.Counted s t := by
  unfold State.notifyAdd
  dsimp only
  rw [if_neg (by simpa using h)]
  exact ⟨_, rfl, islCount_counted ..⟩

theorem notifyAddition_next {s : State} {id : Nat} {p : Packet} {n : Nat} (h : s.atTarget id .notify = some (p, n)) (hn : n < 24) {t : State}
    {taken : Bool} (ht : s.notifyAdd n p.ofs p.len p.part = (t, taken)) :
    exec (.notifyAddition id) s = .next (if taken then t.dropPacket id else t.dropWith n 0x32 p) := by
  show execNotifyAddition id s = _
  rw [execNotifyAddition, h]
  dsimp only
  rw [if_neg (by omega), ht]

/-- The three fields of a counter that a host's write decides lie apart. -/
theorem nctrWord_fields (v : Nat) {sat : Nat} (h : sat < 2) :
    let x := bits v 31 0 + sat * 2 ^ 32 + bits v 47 40 * 2 ^ 40
    bits x 31 0 = bits v 31 0 ∧ bits x 47 40 = bits v 47 40 ∧ bit x 32 = decide (sat = 1) := by
  dsimp only [bit]
  rw [Nat.testBit_eq_decide_div_mod_eq]
  simp only [bits]
  refine ⟨by omega, by omega, ?_⟩
  congr 1
  rw [eq_iff_iff]
  omega

/-- A bit that stands unless it is cleared. -/
theorem keptBit_eq (a : Nat) (cleared : Bool) (n : Nat) : decide ((if cleared then 0 else bits a n n) = 1) = (bit a n && !cleared) := by
  cases cleared with
  | true => simp
  | false => simp [bit, bits, Nat.testBit_eq_decide_div_mod_eq]

theorem islNctrWrite_fields (s : State) (island counter v : Nat) :
    let ix := nctrIx island counter
    ∃ t, exec (.islNctrWrite island counter v) s = .next t ∧ t.mem = s.mem ∧ bits (t.reg .islNctr ix) 31 0 = bits v 31 0 ∧
      bits (t.reg .islNctr ix) 47 40 = bits v 47 40 ∧
      bit (t.reg .islNctr ix) 32 = (bit (s.reg .islNctr ix) 32 && !s.clears .islNctr ix 32 v) := by
  intro ix
  let sat := if s.clears .islNctr ix 32 v then 0 else bits (s.reg .islNctr ix) 32 32
  have small : sat < 2 := by
    dsimp only [sat]
    split
    · decide
    · exact Nat.mod_lt _ (by decide)
  obtain ⟨hvalue, hpart, hsat⟩ := nctrWord_fields v small
  refine ⟨(s.setReg .islNctr ix (bits v 31 0 + sat * 2 ^ 32 + bits v 47 40 * 2 ^ 40)).evalHeads, rfl, rfl, ?_⟩
  rw [State.evalHeads_reg, State.reg_setReg_same]
  exact ⟨hvalue, hpart, hsat.trans (keptBit_eq ..)⟩

/-! ### The statement -/

/-- Settles O49, event by event, from what each comes to where its accesses are admitted and where they are not. -/
theorem packetsAtTargets : Obligations.PacketsAtTargets := by
  intro s id p n answered added admits
  refine ⟨fun h hr => ?_, fun c va s1 ps1 s2 s3 ps h hr hwin hpage hctr hacc => ?_, fun c va s1 ps => getRequest_reads, fun h hp => ?_,
    fun c va s1 ps1 s2 s3 ps h hp hwin hpage hctr hacc => ?_, fun ev kind size hev h hwin => ?_, fun h hn => ⟨fun takes => ?_, fun refuses => ?_⟩,
    islNctrWrite_fields s⟩
  · obtain rfl := State.atTarget_id h
    exact ⟨_, putPacket_again h hr, targetAdd_answers ..⟩
  · obtain rfl := State.atTarget_id h
    exact ⟨_, putPacket_writes h hr hwin hpage hctr hacc, targetAdd_answers _ { p with ret := true, since := none } n _ _⟩
  · obtain rfl := State.atTarget_id h
    exact ⟨_, ratom_again h hp, targetAdd_answers ..⟩
  · obtain rfl := State.atTarget_id h
    exact ⟨_, ratom_performs h hp hwin hpage hctr hacc, targetAdd_answers _ { p with payload := s3.engBytes ps, since := none } n _ _⟩
  · obtain ⟨hmem, q, hpackets, hkind, hcls, -⟩ := dropWith_notice s n 0x32 p
    exact ⟨_, q, request_refused hev h hwin, hmem, hpackets, hkind, hcls⟩
  · obtain ⟨t, ht, hmem, hpackets, hvalue⟩ := notifyAdd_accepted p.len takes
    exact ⟨_, notifyAddition_next h hn ht, hmem, congrArg (List.filter _) hpackets, hvalue⟩
  · obtain rfl := State.atTarget_id h
    obtain ⟨t, ht, counted⟩ := notifyAdd_refused p.len refuses
    obtain ⟨hmem, q, hpackets, hkind, hcls, -⟩ := dropWith_notice t n 0x32 p
    exact ⟨_, q, notifyAddition_next h hn ht, hmem.trans counted.mem, counted.packets ▸ hpackets, hkind, hcls⟩

end Sys2Proof.Machine
end

section
/-!
PROOF. Late results (R95, R99, R376, R377): what the registers of a warp, its lanes' flags and states and its log are once a result is written.
-/
namespace Sys2Proof.Machine

/-! ### v registers and flags of late results (R95, R61) -/

/-- A v register after a list of writes: the last write of it stands, full and not dead (R95, R98). -/
def lateReg (writes : List (Nat × Nat × BitVec 32)) (l r : Nat) (v : VReg) : VReg :=
  match (writes.filter fun x => x.1 == l && x.2.1 == r).getLast? with
  | some x => ⟨x.2.2, true, false⟩
  | none => v

/-- A warp with the results and flags of a late result written. -/
def Warp.lateWritten (w : Warp) (writes : List (Nat × Nat × BitVec 32)) (flags : List (Nat × BitVec 32)) : Warp :=
  flags.foldl (fun w x => w.setFlags x.1 x.2) (writes.foldl (fun w x => w.writeV x.1 x.2.1 x.2.2) w)

/-- The first write of a list stands until a later one of the same register. -/
theorem lateReg_cons (x : Nat × Nat × BitVec 32) (writes : List (Nat × Nat × BitVec 32)) (l r : Nat) (v : VReg) :
    lateReg (x :: writes) l r v = lateReg writes l r (if x.1 = l ∧ x.2.1 = r then ⟨x.2.2, true, false⟩ else v) := by
  unfold lateReg
  by_cases h : x.1 = l ∧ x.2.1 = r
  · have taken : (x.1 == l && x.2.1 == r) = true := by rw [h.1, h.2, beq_self_eq_true, beq_self_eq_true, Bool.and_self]
    rw [List.filter_cons, if_pos taken, List.getLast?_cons, if_pos h]
    cases (writes.filter fun x => x.1 == l && x.2.1 == r).getLast? <;> rfl
  · have passed : ¬ (x.1 == l && x.2.1 == r) = true := by rwa [Bool.and_eq_true, beq_iff_eq, beq_iff_eq]
    rw [List.filter_cons, if_neg passed, if_neg h]

theorem Warp.vreg_lateWrites {l r : Nat} (hl : l < 32) (writes : List (Nat × Nat × BitVec 32)) : ∀ w : Warp, (∀ x ∈ writes, x.1 < 32) →
    (writes.foldl (fun w x => w.writeV x.1 x.2.1 x.2.2) w).vreg l r = lateReg writes l r (w.vreg l r) := by
  induction writes with
  | nil => exact fun _ _ => rfl
  | cons x writes ih =>
    intro w h
    rw [List.foldl_cons, ih _ fun y hy => h y (List.mem_cons_of_mem _ hy), Warp.vreg_writeV _ _ _ _ _ _ (h x List.mem_cons_self) hl, lateReg_cons]

theorem Warp.vreg_lateWritten (w : Warp) {l r : Nat} (hl : l < 32) {writes : List (Nat × Nat × BitVec 32)} (h : ∀ x ∈ writes, x.1 < 32)
    (flags : List (Nat × BitVec 32)) : (w.lateWritten writes flags).vreg l r = lateReg writes l r (w.vreg l r) :=
  (Warp.vreg_of_v (Warp.foldl_v _ (fun _ _ => Warp.v_setFlags ..) flags _) l r).trans (Warp.vreg_lateWrites hl writes w h)

theorem Warp.length_flags (flags : List (Nat × BitVec 32)) (w : Warp) :
    (flags.foldl (fun w x => w.setFlags x.1 x.2) w).threads.length = w.threads.length :=
  List.foldlRecOn (motive := fun x : Warp => x.threads.length = w.threads.length) flags _ rfl fun _ hx _ _ => (Warp.length_setFlags ..).trans hx

/-- Each lane gathers the flags set in it (R104). -/
theorem Warp.thread_flags {l : Nat} (flags : List (Nat × BitVec 32)) : ∀ w : Warp, l < w.threads.length →
    (flags.foldl (fun w x => w.setFlags x.1 x.2) w).thread l =
      { w.thread l with lstat := (flags.filter fun x => x.1 == l).foldl (fun f x => f ||| x.2) (w.thread l).lstat } := by
  induction flags with
  | nil => exact fun _ _ => rfl
  | cons x flags ih =>
    intro w hl
    rw [List.foldl_cons, ih _ (by rwa [Warp.length_setFlags]), Warp.thread_setFlags _ _ _ _ hl]
    by_cases h : x.1 = l <;> simp [h]

theorem Warp.threads_lateWrites (w : Warp) (writes : List (Nat × Nat × BitVec 32)) :
    (writes.foldl (fun w x => w.writeV x.1 x.2.1 x.2.2) w).threads = w.threads :=
  Warp.foldl_threads _ (fun _ _ => Warp.threads_writeV ..) writes w

theorem Warp.length_lateWritten (w : Warp) (writes : List (Nat × Nat × BitVec 32)) (flags : List (Nat × BitVec 32)) :
    (w.lateWritten writes flags).threads.length = w.threads.length := by
  rw [Warp.lateWritten, Warp.length_flags, Warp.threads_lateWrites]

theorem Warp.thread_lateWritten (w : Warp) (writes : List (Nat × Nat × BitVec 32)) (flags : List (Nat × BitVec 32)) {l : Nat}
    (hl : l < w.threads.length) : (w.lateWritten writes flags).thread l =
      { w.thread l with lstat := (flags.filter fun x => x.1 == l).foldl (fun f x => f ||| x.2) (w.thread l).lstat } := by
  rw [Warp.lateWritten, Warp.thread_flags _ _ (by rwa [Warp.threads_lateWrites]), Warp.thread_of_threads (w.threads_lateWrites writes)]

theorem Warp.lateWritten_same (w : Warp) (writes : List (Nat × Nat × BitVec 32)) (flags : List (Nat × BitVec 32)) :
    Warp.sameBut (w.lateWritten writes flags) w :=
  Warp.sameBut_trans (Warp.foldl_same _ (fun _ _ => Warp.setFlags_same ..) flags _)
    (Warp.foldl_same _ (fun _ _ => Warp.writeV_same ..) writes w)

/-- Warps that agree but for v registers and threads have the same s and b registers and the same log. -/
theorem Warp.sameBut_kept {x w : Warp} (h : Warp.sameBut x w) : x.s = w.s ∧ x.b = w.b ∧ x.log = w.log :=
  ⟨(congrArg Warp.s h : _), (congrArg Warp.b h : _), (congrArg Warp.log h : _)⟩

/-! ### The end of a replay (R376, R377) -/

/-- A change of listed lanes that is the same made twice, each lane listed any number of times. -/
theorem Warp.thread_modThreads_idem {f : Thread → Thread} (hf : ∀ t, f (f t) = f t) {l : Nat} (ls : List Nat) : ∀ w : Warp,
    l < w.threads.length → (w.modThreads ls f).thread l = if l ∈ ls then f (w.thread l) else w.thread l := by
  induction ls with
  | nil => exact fun _ _ => rfl
  | cons k ls ih =>
    intro w hl
    have first : (w.modThread k f).thread l = if k = l then f (w.thread l) else w.thread l := by
      rw [Warp.modThread, Warp.thread_setThread]
      by_cases e : k = l
      · subst e; simp [hl]
      · simp [e]
    refine (ih (w.modThread k f) (by rwa [Warp.modThread, Warp.length_setThread])).trans ?_
    rw [first]
    by_cases e : k = l
    · subst e; simp [hf]
    · simp [e, Ne.symm e]

/-- The end of a replay of entry `k` in lanes `ls` makes lane `l` Active: the entry parked it, and no entry left parks it. -/
def Warp.Unparks (w : Warp) (k : Nat) (ls : List Nat) (l : Nat) : Prop :=
  (w.thread l).st = .parked ∧ l ∈ ls ∧ (∃ e ∈ w.log, e.num = k ∧ e.parksLane l = true) ∧ ∀ e ∈ (w.endReplay k ls).log, e.parksLane l = false

/-- The lanes that the end of a replay makes Active. -/
def Warp.unparked (w : Warp) (k : Nat) (ls : List Nat) : List Nat :=
  ls.filter fun l => (w.thread l).st == .parked && (w.log.any fun e => e.num == k && e.parksLane l) &&
    !(w.endReplay k ls).log.any fun e => e.parksLane l

theorem Warp.mem_unparked {w : Warp} {k l : Nat} {ls : List Nat} : l ∈ w.unparked k ls ↔ w.Unparks k ls l := by
  simp [Warp.unparked, Warp.Unparks, and_assoc, and_left_comm (a := l ∈ ls)]

theorem Warp.endReplay_eq (w : Warp) (k : Nat) (ls : List Nat) : w.endReplay k ls =
    { w.modThreads (w.unparked k ls) (fun t => { t with st := .active }) with log := (w.endReplay k ls).log } := rfl

/-- The end of a replay changes threads and the log only. -/
theorem Warp.endReplay_kept (w : Warp) (k : Nat) (ls : List Nat) :
    { w.endReplay k ls with threads := w.threads, log := w.log } = w := by
  rw [Warp.endReplay_eq, Warp.modThreads, Warp.each_eq]

theorem Warp.length_endReplay (w : Warp) (k : Nat) (ls : List Nat) : (w.endReplay k ls).threads.length = w.threads.length :=
  Warp.length_each _ _ w

theorem Warp.thread_endReplay (w : Warp) (k : Nat) (ls : List Nat) {l : Nat} (hl : l < w.threads.length) [Decidable (w.Unparks k ls l)] :
    (w.endReplay k ls).thread l = if w.Unparks k ls l then { w.thread l with st := .active } else w.thread l :=
  (Warp.thread_modThreads_idem (f := fun t => { t with st := .active }) (fun _ => rfl) (w.unparked k ls) w hl).trans
    (ite_congr (propext Warp.mem_unparked) (fun _ => rfl) fun _ => rfl)

/-! ### A warp that receives a result (R95, R99) -/

/-- What a result writes once for its warp: the s register of a scalar load, the b register of an `ldrec` (R325). -/
def Pend.scalarOut (p : Pend) : ScalarOut :=
  match p.kind with
  | .scalarLoad => { s := p.lanes.head?.map fun x => (p.dst, BitVec.ofNat 64 (p.value x)) }
  | .ldrec => { b := some (p.dst, p.brec) }
  | _ => {}

/-- A warp with every register and flag of a result written. -/
def Warp.resultWritten (w : Warp) (p : Pend) : Warp := p.scalarOut.write (w.lateWritten p.results p.flags)

/-- A warp that has received a result of its GEN: the registers are written, and the replay it belongs to has ended in its lanes. -/
def Warp.receive (w : Warp) (p : Pend) : Warp := p.entry.elim (w.resultWritten p) fun k => (w.resultWritten p).endReplay k p.laneSet

/-- The write of a scalar result leaves v registers, threads and the log. -/
theorem ScalarOut.write_kept (o : ScalarOut) (w : Warp) : (o.write w).v = w.v ∧ (o.write w).threads = w.threads ∧ (o.write w).log = w.log :=
  ⟨(congrArg Warp.v (o.write_same w) : _), o.threads_write w, (congrArg Warp.log (o.write_same w) : _)⟩

theorem Warp.resultWritten_log (w : Warp) (p : Pend) : (w.resultWritten p).log = w.log := by
  obtain ⟨-, -, written⟩ := Warp.sameBut_kept (w.lateWritten_same p.results p.flags)
  obtain ⟨-, -, scalar⟩ := p.scalarOut.write_kept (w.lateWritten p.results p.flags)
  exact scalar.trans written

/-- The end of a replay leaves every register. -/
theorem Warp.receive_regs (w : Warp) (p : Pend) :
    (w.receive p).v = (w.resultWritten p).v ∧ (w.receive p).s = (w.resultWritten p).s ∧ (w.receive p).b = (w.resultWritten p).b ∧
      (w.receive p).threads.length = (w.resultWritten p).threads.length := by
  unfold Warp.receive
  cases p.entry with
  | none => exact ⟨rfl, rfl, rfl, rfl⟩
  | some k =>
    have kept := (w.resultWritten p).endReplay_kept k p.laneSet
    exact ⟨(congrArg Warp.v kept : _), (congrArg Warp.s kept : _), (congrArg Warp.b kept : _), Warp.length_endReplay ..⟩

theorem Warp.vreg_receive (w : Warp) (p : Pend) {l r : Nat} (hl : l < 32) (h : ∀ x ∈ p.results, x.1 < 32) :
    (w.receive p).vreg l r = lateReg p.results l r (w.vreg l r) := by
  obtain ⟨hv, -, -, -⟩ := w.receive_regs p
  obtain ⟨scalar, -, -⟩ := p.scalarOut.write_kept (w.lateWritten p.results p.flags)
  rw [Warp.vreg_of_v (hv.trans scalar), Warp.vreg_lateWritten w hl h]

theorem Warp.sreg_receive (w : Warp) (p : Pend) (r : Nat) : (w.receive p).sreg r =
    p.lanes.head?.elim (w.sreg r) fun x => if p.kind = .scalarLoad ∧ r = p.dst then BitVec.ofNat 64 (p.value x) else w.sreg r := by
  obtain ⟨-, hs, -, -⟩ := w.receive_regs p
  obtain ⟨written, -, -⟩ := Warp.sameBut_kept (w.lateWritten_same p.results p.flags)
  have before : (w.lateWritten p.results p.flags).sreg r = w.sreg r := by rw [Warp.sreg, written, Warp.sreg]
  rw [Warp.sreg, hs]
  refine (ScalarOut.sreg_write p.scalarOut _ r).trans ?_
  rw [before, Pend.scalarOut]
  cases p.lanes.head? <;> cases p.kind <;> simp [eq_comm]

theorem Warp.bufRec_receive (w : Warp) (p : Pend) (r : Nat) :
    (w.receive p).bufRec r = if p.kind = .ldrec ∧ r = p.dst then p.brec else w.bufRec r := by
  obtain ⟨-, -, hb, -⟩ := w.receive_regs p
  obtain ⟨-, written, -⟩ := Warp.sameBut_kept (w.lateWritten_same p.results p.flags)
  have before : (w.lateWritten p.results p.flags).bufRec r = w.bufRec r := by rw [Warp.bufRec, written, Warp.bufRec]
  rw [Warp.bufRec, hb]
  refine (ScalarOut.bufRec_write p.scalarOut _ r).trans ?_
  rw [before, Pend.scalarOut]
  cases p.kind <;> simp [eq_comm]

theorem Warp.length_receive (w : Warp) (p : Pend) : (w.receive p).threads.length = w.threads.length := by
  obtain ⟨-, -, -, hlen⟩ := w.receive_regs p
  rw [hlen, Warp.resultWritten, ScalarOut.threads_write, Warp.length_lateWritten]

theorem Warp.thread_resultWritten (w : Warp) (p : Pend) {l : Nat} (hl : l < w.threads.length) : (w.resultWritten p).thread l =
    { w.thread l with lstat := (p.flags.filter fun x => x.1 == l).foldl (fun f x => f ||| x.2) (w.thread l).lstat } :=
  (Warp.thread_of_threads (ScalarOut.threads_write ..) l).trans (w.thread_lateWritten p.results p.flags hl)

/-- A lane gathers its flags, and is Active again where the replay freed it (R376, R377). -/
theorem Warp.thread_receive (w : Warp) (p : Pend) {l : Nat} (hl : l < w.threads.length) : (w.receive p).thread l =
    { w.thread l with
      lstat := (p.flags.filter fun x => x.1 == l).foldl (fun f x => f ||| x.2) (w.thread l).lstat
      st := if (w.thread l).st = .parked ∧ l ∈ p.laneSet ∧ (∃ k, p.entry = some k ∧ ∃ e ∈ w.log, e.num = k ∧ e.parksLane l = true) ∧
          ∀ e ∈ (w.receive p).log, e.parksLane l = false then .active else (w.thread l).st } := by
  have written := w.thread_resultWritten p hl
  unfold Warp.receive
  cases p.entry with
  | none =>
    refine written.trans ?_
    simp
  | some k =>
    classical
    have short : l < (w.resultWritten p).threads.length := by
      rwa [Warp.resultWritten, ScalarOut.threads_write, Warp.length_lateWritten]
    refine (Warp.thread_endReplay _ k p.laneSet short).trans ?_
    rw [Warp.Unparks, written, Warp.resultWritten_log]
    simp only [Option.some.injEq, exists_eq_left', Option.elim]
    split <;> rfl

/-! ### Returns (R95, R99) -/

/-- A result with a stale GEN only leaves the pending list (R99). -/
theorem finish_stale {s : State} {p : Pend} (h : (s.warp p.warp).gen.toNat ≠ p.gen) : s.finish p = s.dropPend p.id :=
  if_pos (by simpa [State.warp] using h)

theorem lateWrite_warp (s : State) (wid : Nat) (writes : List (Nat × Nat × BitVec 32)) (flags : List (Nat × BitVec 32)) :
    (s.lateWrite wid writes flags).warp wid = (s.warp wid).lateWritten writes flags := NMap.getD_set_same ..

/-- A result of its warp's GEN is received by the warp (R95), its flags noted as set in this core clock (R5). -/
theorem finish_fresh {s : State} {p : Pend} (h : (s.warp p.warp).gen.toNat = p.gen) : ∃ now,
    s.finish p = ({ s.dropPend p.id with now := now }.setWarp p.warp ((s.warp p.warp).lateWritten p.results p.flags)).setWarp p.warp
      ((s.warp p.warp).receive p) := by
  have going : ¬ (((s.dropPend p.id).warp p.warp).gen.toNat != p.gen) = true := by simpa [State.warp] using h
  refine ⟨_, (if_neg going).trans (congrArg (State.setWarp _ p.warp) ?_)⟩
  rw [lateWrite_warp]
  unfold Warp.receive Warp.resultWritten Pend.scalarOut
  cases p.kind with
  | scalarLoad => cases p.lanes.head? <;> cases p.entry <;> rfl
  | _ => cases p.entry <;> rfl

/-- What a finished result changes of the machine: the pending list, its warp where the GEN is the warp's own, and the flags of this core clock. -/
theorem finish_machine (s : State) (p : Pend) :
    { s.finish p with warps := s.warps, pend := s.pend, now := s.now } = s ∧ (s.finish p).pend = s.pend.filter (fun q => q.id != p.id) ∧
      ∀ k, k ≠ p.warp ∨ (s.warp p.warp).gen.toNat ≠ p.gen → (s.finish p).warp k = s.warp k := by
  by_cases h : (s.warp p.warp).gen.toNat = p.gen
  · obtain ⟨now, e⟩ := finish_fresh h
    rw [e]
    refine ⟨rfl, rfl, fun k hk => ?_⟩
    have other : p.warp ≠ k := (hk.resolve_right (not_not_intro h)).symm
    rw [warp_setWarp, if_neg other, warp_setWarp, if_neg other]
    rfl
  · rw [finish_stale h]
    exact ⟨rfl, rfl, fun _ _ => rfl⟩

theorem finish_warp {s : State} {p : Pend} (h : (s.warp p.warp).gen.toNat = p.gen) : (s.finish p).warp p.warp = (s.warp p.warp).receive p := by
  obtain ⟨now, e⟩ := finish_fresh h
  rw [e, warp_setWarp_same]

/-- The event returns the results of the listed kinds (R95). -/
def ReturnsKinds (ev : Instr) (id : Nat) (kinds : List PendKind) : Prop :=
  (ev = .loadReturn id ∧ kinds = [.load, .loadWait, .scalarLoad, .atomic]) ∨ (ev = .divideReturn id ∧ kinds = [.divide]) ∨
  (ev = .specialFunctionReturn id ∧ kinds = [.special]) ∨ (ev = .accrdReturn id ∧ kinds = [.accrd]) ∨
  (ev = .keymapReturn id ∧ kinds = [.keymap]) ∨ (ev = .ldrecComplete id ∧ kinds = [.ldrec])

theorem exec_returns {ev : Instr} {id : Nat} {kinds : List PendKind} (h : ReturnsKinds ev id kinds) (s : State) :
    exec ev s = returnOf kinds id s := by
  rcases h with ⟨rfl, rfl⟩ | ⟨rfl, rfl⟩ | ⟨rfl, rfl⟩ | ⟨rfl, rfl⟩ | ⟨rfl, rfl⟩ | ⟨rfl, rfl⟩ <;> rfl

/-- A result whose answers are in and whose time has come is finished. -/
theorem return_finishes {s : State} {ev : Instr} {id : Nat} {kinds : List PendKind} {p : Pend} (hev : ReturnsKinds ev id kinds)
    (h : s.pend.find? (fun p => p.id == id && kinds.contains p.kind) = some p) (answered : p.waiting = []) (due : p.due ≤ s.clk) :
    exec ev s = .next (s.finish p) := by
  have ripe : p.due? s = true := by simp [Pend.due?, answered, due]
  simp only [exec_returns hev, returnOf, h, ripe, if_true]

end Sys2Proof.Machine
end

section
/-!
PROOF. Waits that end (R83, R216, R323, R343; logs 20 and 136): what a warp-stopping fault leaves, then each event and the statement O38.
-/
namespace Sys2Proof.Machine

/-! ### A warp-stopping fault (R378, R380) -/

/-- Fields added up at their low bits, as `pack` adds them. -/
def fieldSum (a : Nat) (fs : List (Nat × Nat)) : Nat := fs.foldl (fun a f => a + f.1 * 2 ^ f.2) a

theorem fieldSum_nil (a : Nat) : fieldSum a [] = a := rfl

theorem fieldSum_cons (a v k : Nat) (fs : List (Nat × Nat)) : fieldSum a ((v, k) :: fs) = fieldSum (a + v * 2 ^ k) fs := by
  rw [fieldSum, List.foldl_cons, fieldSum]

theorem bits_pack (fs : List (Nat × Nat)) {hi lo : Nat} (h : hi < 64) (hl : lo ≤ hi) :
    bits (pack fs).toNat hi lo = bits (fieldSum 0 fs) hi lo := by
  rw [pack, BitVec.toNat_ofNat, bits_of_mod _ h hl, fieldSum]

theorem bits_headSum (core warpNo grid part : Nat) {cls kind : Nat} (hc : cls < 256) (hk : kind < 256) :
    let x := 0 + cls * 2 ^ 0 + kind * 2 ^ 8 + core * 2 ^ 16 + warpNo * 2 ^ 24 + grid * 2 ^ 32 + part * 2 ^ 48
    bits x 7 0 = cls ∧ bits x 15 8 = kind := by
  simp only [bits]
  omega

/-- The two lowest bytes of a record's first dword hold its class and its kind (R380). The sum is rewritten field by field: the kernel cannot
compare the two sides by computing powers of two. -/
theorem bits_recordHead (core warpNo grid part : Nat) {cls kind : Nat} (hc : cls < 256) (hk : kind < 256) :
    let x := pack [(cls, 0), (kind, 8), (core, 16), (warpNo, 24), (grid, 32), (part, 48)]
    bits x.toNat 7 0 = cls ∧ bits x.toNat 15 8 = kind := by
  dsimp only
  rw [bits_pack _ (by decide) (by decide), bits_pack _ (by decide) (by decide), fieldSum_cons, fieldSum_cons, fieldSum_cons, fieldSum_cons,
    fieldSum_cons, fieldSum_cons, fieldSum_nil]
  exact bits_headSum core warpNo grid part hc hk

theorem warpRecord_class (s : State) (w : Warp) {cls kind : Nat} (lanes : Nat) (pc : PC) (ovl a b f : Nat) (hc : cls < 256) (hk : kind < 256) :
    recBits (warpRecord s w cls kind lanes pc ovl a b f) 0 7 0 = cls ∧ recBits (warpRecord s w cls kind lanes pc ovl a b f) 0 15 8 = kind :=
  bits_recordHead _ _ _ _ hc hk

/-- A posted record is the island's latest, buffered or waiting, and its posting sets PTIME and SEQ only (R379, R380). -/
theorem post_latest (s : State) (island : Nat) (r : List Word) : ∃ q,
    (((s.post island r).isl island).onchip ++ ((s.post island r).isl island).waitPost).getLast? = some q ∧ q.getD 0 0 = r.getD 0 0 := by
  rw [State.post, State.modIsl, State.isl_setIsl, if_pos rfl]
  split
  · next room =>
    rw [Bool.and_eq_true, List.isEmpty_iff] at room
    refine ⟨(r.set 5 (BitVec.ofNat 64 (s.isl island).ptime)).set 7 (BitVec.ofNat 64 ((s.isl island).seqNo % 2 ^ 32)), ?_, by cases r <;> rfl⟩
    simp [Island.posted, room.2]
  · exact ⟨r, by simp, rfl⟩

/-- Taking a fault changes no memory and no pending result. -/
theorem stopWarp_kept (s : State) (wid cls lanes : Nat) (pc : PC) (ovl a b : Nat) :
    let t := s.stopWarp wid cls lanes pc ovl a b
    t.mem = s.mem ∧ t.pend = s.pend := ⟨rfl, rfl⟩

/-- The warp stops with every register, thread and log entry as it stood (R378). -/
theorem stopWarp_warp (s : State) (wid cls lanes : Nat) (pc : PC) (ovl a b : Nat) : ∃ trap, (s.stopWarp wid cls lanes pc ovl a b).warp wid =
    { s.warp wid with stopped := true, restored := false, stopTrap := trap } := ⟨_, NMap.getD_set_same ..⟩

/-- A fault ends or holds a grid that nothing had ended before, with the fault's class (R378). -/
theorem stopGrid_class (s : State) {gid : Nat} (cls : Nat) (h : (s.grid gid).endCode = 0) : ((s.stopGrid gid cls).grid gid).endClass = cls := by
  have ended : (s.stopGrid gid cls).grid gid = _ := State.grid_setGrid s gid gid _
  rw [ended, if_pos rfl]
  dsimp only
  rw [if_neg (by simp [h])]

theorem stopWarp_stopped (s : State) (wid : Nat) {cls : Nat} (lanes : Nat) (pc : PC) (ovl a b : Nat) (hc : cls < 256) :
    Stopped s (s.stopWarp wid cls lanes pc ovl a b) wid cls := by
  obtain ⟨trap, hw⟩ := stopWarp_warp s wid cls lanes pc ovl a b
  obtain ⟨hcls, hkind⟩ := warpRecord_class s (s.warp wid) lanes pc ovl a b 0 hc (kind := 2) (by decide)
  obtain ⟨q, latest, same⟩ := post_latest s (s.block (s.warp wid).block).island (warpRecord s (s.warp wid) cls 2 lanes pc ovl a b 0)
  refine ⟨by rw [hw], fun h => stopGrid_class _ cls h, q, latest, ?_⟩
  rw [recBits, same, recBits, same]
  exact ⟨hcls, hkind⟩

/-- The fault may be taken after steps that leave the warp in its block and its grid as it was, and a step after it may change the warp otherwise. -/
theorem Stopped.around {s u t : State} {wid cls : Nat} (h : Stopped u t wid cls) (hblock : (u.warp wid).block = (s.warp wid).block)
    (hblocks : u.blocks = s.blocks) (hgrids : u.grids = s.grids) {f : Warp → Warp} (hf : ∀ w, (f w).stopped = w.stopped) :
    Stopped s (t.modWarp wid f) wid cls := by
  have place : u.block (u.warp wid).block = s.block (s.warp wid).block := by rw [hblock, State.block, hblocks, State.block]
  have grid (g : Nat) : u.grid g = s.grid g := by rw [State.grid, hgrids, State.grid]
  simp only [Stopped, place, grid] at h
  obtain ⟨stopped, ended, latest⟩ := h
  exact ⟨by rw [State.modWarp, warp_setWarp_same, hf]; exact stopped, ended, latest⟩

/-! ### `SLEEP_WAKE` (R343) -/

theorem exec_sleepWake (w l : Nat) (s : State) : exec (.sleepWake w l) s = execSleepWake w l s := rfl

theorem sleepWake_wakes {s : State} {w l k : Nat} (h : ((s.warp w).thread l).wake = some k) (hk : k ≤ s.itime (s.block (s.warp w).block).island) :
    exec (.sleepWake w l) s = .next (s.setWarp w ((s.warp w).modThread l fun t => { t with wake := none })) := by
  simp only [exec_sleepWake, execSleepWake, h, hk, if_true]

/-! ### `ONCE_WAIT_TIMEOUT` (R83, R323; log 20) -/

/-- A warp whose `ldg.wait` has timed out keeps the load as an entry of its log, or where it `replays` one, in that entry. -/
def Warp.keepLoad (w : Warp) (replays : Option LogEntry) (e : LogEntry) : Warp :=
  if replays.isNone then { w with log := w.log ++ [e] }
  else { w with log := w.log.map fun x => if x.num = e.num then { x with going := x.going.filter fun l => !e.lanes.contains l } else x }

/-- The entry of a warp's log that a record replays. -/
def Warp.replayed (w : Warp) (p : Pend) : Option LogEntry := w.log.find? fun e => p.entry == some e.num

theorem Warp.entry_of_replayed {w : Warp} {p : Pend} {e : LogEntry} (h : w.replayed p = some e) : p.entry = some e.num :=
  beq_iff_eq.mp (List.find?_some (p := fun e : LogEntry => p.entry == some e.num) h)

/-- The number of the entry that keeps the load. -/
def Warp.keptNum (w : Warp) (p : Pend) : Nat := ((w.replayed p).map fun e => e.num).getD p.id

/-- The lanes of a record's `ldg.wait` that still wait: their records and their requests are dropped, and the load is kept in the warp's log. -/
def State.keepWait (s : State) (p : Pend) : State :=
  let ids := (s.stillWaiting p).map fun q => q.id
  { s with
    pend := s.pend.filter fun q => !ids.contains q.id
    msgs := s.msgs.filter fun m => !(m.asker.any fun k => ids.contains k) }.modWarp p.warp fun w =>
      w.keepLoad ((s.warp p.warp).replayed p) { p.gather (s.stillWaiting p) with num := (s.warp p.warp).keptNum p }

theorem exec_onceWaitTimeout (id : Nat) (s : State) : exec (.onceWaitTimeout id) s = execOnceWaitTimeout id s := rfl

/-- The wait of a `ldg.wait` has run out: its load is kept, then its warp stops (R323; log 20). -/
theorem onceWaitTimeout_next {s : State} {id : Nat} {p : Pend} (h : s.pend.find? (fun p => p.id == id && p.kind == .loadWait) = some p)
    (hgen : (s.warp p.warp).gen.toNat = p.gen) (mine : id ∈ (s.stillWaiting p).map fun q => q.id)
    (late : p.issueTime + 65536 ≤ s.itime (s.block (s.warp p.warp).block).island) :
    ∃ lanes info, exec (.onceWaitTimeout id) s = .next (((s.keepWait p).stopWarp p.warp 0x14 lanes p.pc p.ovl info 0).modWarp p.warp fun w =>
      { w with stopReplay := some ((s.warp p.warp).keptNum p) }) := by
  have expired : (!((s.stillWaiting p).any fun q => q.id == id) ||
      decide (s.itime (s.block (s.warp p.warp).block).island < p.issueTime + 65536)) = false := by
    simpa [and_comm] using And.intro late mine
  have fresh : ((s.warp p.warp).gen.toNat != p.gen) = false := by simpa using hgen
  simp only [exec_onceWaitTimeout, execOnceWaitTimeout, h, expired, fresh, Bool.false_eq_true, if_false]
  exact ⟨_, _, rfl⟩

theorem Warp.keepLoad_kept (w : Warp) (replays : Option LogEntry) (e : LogEntry) : { w.keepLoad replays e with log := w.log } = w := by
  unfold Warp.keepLoad
  split <;> rfl

theorem keepWait_warp (s : State) (p : Pend) : (s.keepWait p).warp p.warp =
    (s.warp p.warp).keepLoad ((s.warp p.warp).replayed p) { p.gather (s.stillWaiting p) with num := (s.warp p.warp).keptNum p } :=
  NMap.getD_set_same ..

theorem onceWaitTimeout_stops {s : State} {id : Nat} {p : Pend} (h : s.pend.find? (fun p => p.id == id && p.kind == .loadWait) = some p)
    (hgen : (s.warp p.warp).gen.toNat = p.gen) (mine : id ∈ (s.stillWaiting p).map fun q => q.id)
    (late : p.issueTime + 65536 ≤ s.itime (s.block (s.warp p.warp).block).island) :
    ∃ t, exec (.onceWaitTimeout id) s = .next t ∧ t.mem = s.mem ∧ Stopped s t p.warp 0x14 ∧
      (t.warp p.warp).stopReplay = some ((s.warp p.warp).keptNum p) ∧
      (t.warp p.warp).log = ((s.keepWait p).warp p.warp).log ∧
      t.pend = s.pend.filter fun q => !((s.stillWaiting p).map fun q => q.id).contains q.id := by
  obtain ⟨lanes, info, next⟩ := onceWaitTimeout_next h hgen mine late
  obtain ⟨mem, pend⟩ := stopWarp_kept (s.keepWait p) p.warp 0x14 lanes p.pc p.ovl info 0
  obtain ⟨trap, hw⟩ := stopWarp_warp (s.keepWait p) p.warp 0x14 lanes p.pc p.ovl info 0
  have block : ((s.keepWait p).warp p.warp).block = (s.warp p.warp).block := by
    rw [keepWait_warp]; exact (congrArg Warp.block (Warp.keepLoad_kept ..) : _)
  refine ⟨_, next, mem, (stopWarp_stopped _ _ _ _ _ _ _ (by decide)).around block rfl rfl fun _ => rfl, ?_, ?_, pend⟩
  · rw [State.modWarp, warp_setWarp_same]
  · rw [State.modWarp, warp_setWarp_same, hw]

/-- A load that is no replay becomes an entry of its own number. -/
theorem keepWait_first (s : State) {p : Pend} (h : p.entry = none) : (s.warp p.warp).keptNum p = p.id ∧
    ((s.keepWait p).warp p.warp).log = (s.warp p.warp).log ++ [p.gather (s.stillWaiting p)] := by
  have none' : (s.warp p.warp).replayed p = none := by simp [Warp.replayed, h]
  have num : (s.warp p.warp).keptNum p = p.id := by rw [Warp.keptNum, none']; rfl
  refine ⟨num, ?_⟩
  rw [keepWait_warp, none', num]
  rfl

/-- A load that is a replay stays in its entry. -/
theorem keepWait_again (s : State) {p : Pend} {k : Nat} (h : p.entry = some k) (hk : k ∈ (s.warp p.warp).log.map fun e => e.num) :
    (s.warp p.warp).keptNum p = k ∧
      ((s.keepWait p).warp p.warp).log.map (fun e => e.num) = (s.warp p.warp).log.map fun e => e.num := by
  obtain ⟨x, hx, num⟩ := List.mem_map.mp hk
  have own : (p.entry == some x.num) = true := by rw [h, num, beq_self_eq_true]
  obtain ⟨e, replayed⟩ : ∃ e, (s.warp p.warp).replayed p = some e :=
    Option.isSome_iff_exists.mp (List.find?_isSome.mpr ⟨x, hx, own⟩)
  have named : e.num = k := (Option.some.inj (h.symm.trans (Warp.entry_of_replayed replayed))).symm
  refine ⟨by rw [Warp.keptNum, replayed]; exact named, ?_⟩
  rw [keepWait_warp, replayed, Warp.keepLoad, if_neg (by simp), List.map_map]
  refine List.map_congr_left fun x _ => ?_
  dsimp only [Function.comp]
  split <;> rfl

/-! ### `WAITARR_RELEASE` (R155, R216; log 136) -/

theorem exec_waitarrRelease (id : Nat) (s : State) : exec (.waitarrRelease id) s = execWaitarrRelease id s := rfl

/-- A wait is over: it leaves the list. -/
def State.dropWait (s : State) (id : Nat) : State := { s with waits := s.waits.filter fun y => y.id != id }

/-- A wait whose translation was removed becomes an entry that is replayed (log 136). -/
theorem waitarrRelease_stale {s : State} {id : Nat} {x : WaitArr} (h : s.waits.find? (fun x => x.id == id) = some x) (stale : x.stale = true)
    (room : s.logTaken x.warp < 16) (running : s.boot.starting = false) :
    exec (.waitarrRelease id) s = .next ((s.dropWait id).modWarp x.warp fun w => { w with log := w.log ++ [{ x.entry with replay := true }] }) := by
  have full : ¬ 16 ≤ s.logTaken x.warp := by omega
  simp only [exec_waitarrRelease, execWaitarrRelease, h, stale, full, running, decide_false, Bool.or_self, Bool.false_eq_true, if_true, if_false]
  rfl

/-- Nothing of a wait's group is on its way, and no core holds its counter exclusively. -/
def State.waitClear (s : State) (x : WaitArr) : Prop :=
  (∀ l ∈ x.lanes, s.outstanding x.warp l = []) ∧ s.holders (s.block (s.warp x.warp).block).island (wordsOf x.pa 16) = []

/-- A counter that is reached or overflowed ends a wait that goes by a translation still there. -/
theorem waitarrRelease_current {s : State} {id : Nat} {x : WaitArr} (h : s.waits.find? (fun x => x.id == id) = some x) (current : x.stale = false)
    (clear : s.waitClear x) : let b := s.block (s.warp x.warp).block
    (ctrState (s.readMem x.pa 16) = 1 → exec (.waitarrRelease id) s =
      .next (((((s.dropWait id).modWarp x.warp fun w => w.advance x.lanes 1).dropRel b.island b.core).islCount b.island 9 1).gaugeSee b.island 0x04
        b.core (some (s.grid b.grid).part) (s.itime b.island - x.since))) ∧
    (ctrState (s.readMem x.pa 16) = 2 → exec (.waitarrRelease id) s =
      .next ((s.dropWait id).stopWarp x.warp 0x34 0 x.pc (s.ovlOf b.island b.core x.pc.slot) 0 0)) := by
  obtain ⟨quiet, free⟩ := clear
  have mine : (x.lanes.any fun l => (s.outstanding x.warp l).any fun m => overlaps m.words (wordsOf x.pa 16)) = false :=
    List.any_eq_false.mpr fun l hl => by rw [quiet l hl]; exact Bool.false_ne_true
  refine ⟨fun reached => ?_, fun full => ?_⟩
  · simp only [exec_waitarrRelease, execWaitarrRelease, h, current, mine, free, reached]
    rfl
  · simp only [exec_waitarrRelease, execWaitarrRelease, h, current, mine, free, full]
    rfl

theorem bit_iff (v n : Nat) : bit v n = true ↔ bits v n n = 1 := by
  rw [bit, Nat.testBit_eq_decide_div_mod_eq, decide_eq_true_iff, bits, Nat.add_sub_cancel_left, Nat.pow_one]

theorem ctrState_reached {v : Nat} (h : bits v 126 126 = 0) (h' : bits v 63 63 = 1 ∨ bits v 127 127 = 1 ∧ bits v 111 64 ≤ bits v 47 0) :
    ctrState v = 1 := by
  rw [← bit_iff, ← bit_iff] at h'
  have no : ¬ bit v 126 = true := by rw [bit_iff]; omega
  rw [ctrState, if_neg no, if_pos (by simpa using h')]

theorem ctrState_overflowed {v : Nat} (h : bits v 126 126 = 1) : ctrState v = 2 := if_pos ((bit_iff v 126).mpr h)

/-! ### The statement -/

/-- Settles O38: a result that returns is received by its warp, and each wait that ends is the one step its event takes. -/
theorem resultsReturn : Obligations.ResultsReturn := by
  refine ⟨fun s id ev kinds p hev h answered due lanes => ?_, fun s => ⟨fun w l k h hk => sleepWake_wakes h hk, fun id p h hgen => ?_,
    fun id x h stale room running => ?_, fun id x h current quiet free => ⟨fun no reached => ?_, fun full => ?_⟩⟩⟩
  · obtain ⟨rfl, -⟩ : p.id = id ∧ p.kind ∈ kinds := by simpa using List.find?_some h
    obtain ⟨rest, pend, others⟩ := finish_machine s p
    refine ⟨_, return_finishes hev h answered due, rest, pend, others, fun hgen => ?_⟩
    rw [finish_warp hgen]
    exact ⟨fun l r hl => Warp.vreg_receive _ p hl lanes, fun r => (Warp.sreg_receive _ p r).trans (by cases p.lanes.head? <;> rfl),
      Warp.bufRec_receive _ p, Warp.length_receive _ p, fun l hl => Warp.thread_receive _ p hl⟩
  · intro qs mine late
    obtain ⟨t, next, mem, stopped, replay, log, pend⟩ := onceWaitTimeout_stops h hgen mine late
    refine ⟨t, next, mem, stopped, fun first => ?_, fun k again hk => ?_, pend⟩
    · obtain ⟨num, added⟩ := keepWait_first s first
      exact ⟨replay.trans (congrArg some num), log.trans added⟩
    · obtain ⟨num, same⟩ := keepWait_again s again hk
      exact ⟨replay.trans (congrArg some num), (congrArg _ log).trans same⟩
  · exact ⟨_, waitarrRelease_stale h stale room running, rfl, rfl, warp_setWarp_same ..⟩
  · obtain ⟨next, -⟩ := waitarrRelease_current h current ⟨quiet, free⟩
    refine ⟨_, next (ctrState_reached no reached), ?_⟩
    have counted := portEvent_counted
      (((s.dropWait id).modWarp x.warp fun w => w.advance x.lanes 1).dropRel (s.block (s.warp x.warp).block).island (s.block (s.warp x.warp).block).core)
    exact ⟨(counted ..).mem, (congrArg State.waits (counted ..).rest : _), ((counted ..).warpsKept.warp x.warp).trans (warp_setWarp_same ..)⟩
  · obtain ⟨-, next⟩ := waitarrRelease_current h current ⟨quiet, free⟩
    obtain ⟨mem, -⟩ := stopWarp_kept (s.dropWait id) x.warp 0x34 0 x.pc _ 0 0
    exact ⟨_, next (ctrState_overflowed full), mem, stopWarp_stopped (s.dropWait id) x.warp 0 x.pc _ 0 0 (by decide)⟩

end Sys2Proof.Machine
end

section
/-!
PROOF. Local loads and stores (R109 to R114, R122, R128, R320 to R324): what a touch of memory leaves of the warps, what the source side of an issue
leaves of its warp, the state that a local load or store leaves before its lanes are switched off, then the statement O18.
-/
namespace Sys2Proof.Machine

/-! ### Values written to memory -/

/-- A signed offset is read the same as a field of a word and as a bit vector (R46, R109). -/
theorem sext_toNat {n : Nat} (x : BitVec n) : sext n x.toNat = x.toInt := by
  rw [sext, Nat.mod_eq_of_lt x.isLt, BitVec.toInt_eq_toNat_cond]

/-- The bytes just written upwards from an address read back. -/
theorem Memory.readN_writeN (m : List Host.Cell) (a : Nat) (bs : List Byte) : Memory.readN (Memory.writeN m a bs) a bs.length = bs := by
  rw [Memory.readN_eq]
  refine List.ext_getElem (by simp) fun k hk hk' => ?_
  simp [Memory.read_writeN, hk']

/-- A value just written reads back, cut to its bytes (R3). -/
theorem State.readMem_writeMem_same (s : State) (a n v : Nat) : (s.writeMem a n v).readMem a n = v % 2 ^ (8 * n) := by
  have bytes := Memory.readN_writeN s.mem a (bytesOf n v)
  rw [bytesOf_length] at bytes
  rw [State.readMem, State.writeMem, bytes, valueOf_bytesOf, Nat.pow_mul]

/-! ### Writes of several lanes, one after another -/

/-- The store of one lane: the value's low bytes at its address, nothing where it has none. -/
def State.storeLane (cell : Nat → Option Nat) (n : Nat) (val : Nat → Nat) (s : State) (l : Nat) : State :=
  (cell l).elim s fun p => s.writeMem p n (val l)

section
variable {cell : Nat → Option Nat} {n : Nat} {val : Nat → Nat}

theorem storeLane_some {l p : Nat} (h : cell l = some p) (s : State) : s.storeLane cell n val l = s.writeMem p n (val l) := by
  rw [State.storeLane, h]; rfl

theorem storeLane_none {l : Nat} (h : cell l = none) (s : State) : s.storeLane cell n val l = s := by
  rw [State.storeLane, h]; rfl

/-- Stores of lanes change memory only. -/
theorem storeLanes_frame (ls : List Nat) (s : State) : { ls.foldl (State.storeLane cell n val) s with mem := s.mem } = s := by
  refine List.foldlRecOn (motive := fun t : State => { t with mem := s.mem } = s) ls _ rfl fun t ht l _ => ?_
  cases h : cell l with
  | none => rw [storeLane_none h]; exact ht
  | some p => rw [storeLane_some h]; exact ht

/-- A byte outside every lane's address reads as before. -/
theorem read_storeLanes_out {a : Nat} {ls : List Nat} (out : ∀ l p, l ∈ ls → cell l = some p → a < p ∨ p + n ≤ a) (s : State) :
    Memory.read (ls.foldl (State.storeLane cell n val) s).mem a = Memory.read s.mem a := by
  refine List.foldlRecOn (motive := fun t : State => Memory.read t.mem a = Memory.read s.mem a) ls _ rfl fun t ht l hl => ?_
  cases h : cell l with
  | none => rw [storeLane_none h]; exact ht
  | some p =>
    rw [storeLane_some h, ← ht]
    exact Memory.read_writeN_out _ _ _ _ (by rw [bytesOf_length]; exact out l p hl h)

/-- A lane whose bytes no other lane's meet finds its own there after all have stored. -/
theorem readMem_storeLanes {l p : Nat} (hc : cell l = some p) (ls : List Nat) : ∀ s : State,
    (∀ k q, k ∈ ls → cell k = some q → k ≠ l → q + n ≤ p ∨ p + n ≤ q) → l ∈ ls ∨ s.readMem p n = val l % 2 ^ (8 * n) →
    (ls.foldl (State.storeLane cell n val) s).readMem p n = val l % 2 ^ (8 * n) := by
  induction ls with
  | nil => exact fun s _ h => h.resolve_left List.not_mem_nil
  | cons k ls ih =>
    intro s apart h
    refine ih _ (fun j q hj => apart j q (List.mem_cons_of_mem k hj)) ?_
    by_cases hk : k = l
    · subst hk
      rw [storeLane_some hc]
      exact .inr (s.readMem_writeMem_same p n (val k))
    · refine h.imp (fun h => (List.mem_cons.mp h).resolve_left (Ne.symm hk)) fun kept => ?_
      cases hq : cell k with
      | none => rw [storeLane_none hq]; exact kept
      | some q =>
        rw [storeLane_some hq, State.readMem_writeMem_out _ _ _ _ _ _ (apart k q List.mem_cons_self hq hk).symm]
        exact kept

end

/-! ### What a touch of memory leaves of the warps (R43) -/

theorem touch_frame (s : State) (ws : List Nat) : { s.touch ws with warps := s.warps } = s := by
  unfold State.touch
  dsimp only
  split <;> rfl

/-- A warp stands as it did, or its spin detector starts anew. -/
theorem touch_warp (s : State) (ws : List Nat) (k : Nat) : (s.touch ws).warp k = s.warp k ∨ (s.touch ws).warp k = (s.warp k).spinReset := by
  unfold State.touch
  dsimp only
  split
  · rw [State.warp, NMap.getD, find_mapEntries _ (fun e => by split <;> rfl), State.warp, NMap.getD]
    cases NMap.find? s.warps k with
    | none => exact .inl rfl
    | some x =>
      rw [Option.map_some, Option.getD_some, Option.getD_some]
      split
      · exact .inr rfl
      · exact .inl rfl
  · exact .inl rfl

theorem touch_warp_kept (s : State) (ws : List Nat) (k : Nat) : Warp.sameBut ((s.touch ws).warp k) (s.warp k) ∧
    ((s.touch ws).warp k).v = (s.warp k).v ∧ ((s.touch ws).warp k).threads = (s.warp k).threads := by
  rcases touch_warp s ws k with h | h <;> rw [h]
  · exact ⟨rfl, rfl, rfl⟩
  · exact ⟨rfl, rfl, rfl⟩

/-! ### The warp of an issue before and after its group moves on -/

/-- Where no lane has a result at issue, a register only takes its last-use mark (R98). -/
theorem laneReg_unwritten (s : State) (i : Issue) (g : BitVec 4) (u : Usage) (l r : Nat) : laneReg s i g u (fun _ => {}) (fun _ => {}) l r =
    if i.lanes.contains l || i.helpers.contains l then markedV u r ((s.warp i.warp).vreg l r) else (s.warp i.warp).vreg l r := by
  simp [laneReg, wroteV]

/-- The source side of an issue marks registers and flags dead reads (R98). -/
theorem vreg_sourced {s : State} {i : Issue} (h : Group s i) (u : Usage) (g : BitVec 4) {l : Nat} (r : Nat) (hl : l < 32) :
    ((s.ctx i).sourced u g).vreg l r = laneReg s i g u (fun _ => {}) (fun _ => {}) l r :=
  (vreg_marked h u g (readsDead s i u) l r hl).trans (laneReg_unwritten s i g u l r).symm

/-- A warp whose threads are those of the source side moves its group on, and no thread changes its state. -/
theorem advance_sourced_thread {s : State} {i : Issue} (h : Group s i) {u : Usage} {g : BitVec 4} {x : Warp}
    (hx : x.threads = ((s.ctx i).sourced u g).threads) {l : Nat} (hl : l < (s.warp i.warp).threads.length) :
    ((x.advance i.lanes 1).thread l).pc = lanePc s i 1 l ∧ ((x.advance i.lanes 1).thread l).st = ((s.warp i.warp).thread l).st := by
  have kept (k : Nat) (hk : k < (s.warp i.warp).threads.length) :
      (x.thread k).st = ((s.warp i.warp).thread k).st ∧ (x.thread k).pc = ((s.warp i.warp).thread k).pc := by
    rw [Warp.thread_of_threads hx, show (s.ctx i).sourced u g = marked (s.ctx i) u g (readsDead s i u) from rfl, thread_marked h u g _ k hk]
    split <;> exact ⟨rfl, rfl⟩
  rw [Warp.advance_thread h x 1 l (hx ▸ length_marked (s.ctx i) u g (readsDead s i u)) kept hl]
  exact ⟨rfl, (kept l hl).1⟩

theorem watchWords_kept (w : Warp) (ws : List Nat) : (w.watchWords ws).v = w.v ∧ (w.watchWords ws).threads = w.threads := by
  unfold Warp.watchWords
  split <;> exact ⟨rfl, rfl⟩

/-- Registers of several lanes become empty (R95). -/
theorem vreg_emptyLanes {ls : List Nat} (lt : ∀ l ∈ ls, l < 32) (nd : ls.Nodup) (dst n : Nat) (w : Warp) {l : Nat} (r : Nat) (hl : l < 32) :
    (ls.foldl (fun x l => x.emptyV l dst n) w).vreg l r =
      if ls.contains l && dst ≤ r && r < dst + n then { w.vreg l r with full := false } else w.vreg l r := by
  rw [Warp.vreg_lanes _ (fun _ r x => if dst ≤ r ∧ r < dst + n then { x with full := false } else x) ls ?_ nd w l r hl]
  · by_cases hm : l ∈ ls <;> simp [hm]
  · intro w k hk l' r' hl'
    rw [Warp.vreg_emptyV _ _ _ _ _ _ (lt k hk) hl']
    by_cases e : k = l' <;> simp [e]

/-! ### A local load -/

/-- Where a lane's access goes, if its address lies in the space (R109, R111 to R114). -/
def State.cellOf (s : State) (w : WordM) (sp : Space) (c : Ctx) (l : Nat) : Option Nat :=
  s.localCell c sp l (localAddr c w.index.toNat w.ofs (2 ^ w.size.toNat) l) (2 ^ w.size.toNat)

theorem localValue_some {s : State} {w : WordM} {sp : Space} {c : Ctx} {l p : Nat} (h : s.cellOf w sp c l = some p) :
    localValue w sp s c l (readV c.w l w.index.toNat 1) =
      if localAddr c w.index.toNat w.ofs (2 ^ w.size.toNat) l % (2 ^ w.size.toNat : Nat) = 0 then s.readMem p (2 ^ w.size.toNat) else 0 := by
  rw [State.cellOf, localAddr] at h
  simp only [localValue, h, localAddr]
  rfl

theorem localValue_none {s : State} {w : WordM} {sp : Space} {c : Ctx} {l : Nat} (h : s.cellOf w sp c l = none) :
    localValue w sp s c l (readV c.w l w.index.toNat 1) = 0 := by
  rw [State.cellOf, localAddr] at h
  simp only [localValue, h]

/-- The members whose address lies in the space. -/
def State.inSpace (s : State) (w : WordM) (sp : Space) (c : Ctx) : List Nat := (c.members w.guard).filter fun l => (s.cellOf w sp c l).isSome

/-- The members whose address leaves the space. -/
def State.outOfSpace (s : State) (w : WordM) (sp : Space) (c : Ctx) : List Nat := (c.members w.guard).filter fun l => (s.cellOf w sp c l).isNone

/-- The lanes to which a local load returns a value: members inside the space, and following helpers (R31). -/
def State.loadLanes (s : State) (w : WordM) (sp : Space) (c : Ctx) : List Nat := s.inSpace w sp c ++ c.helpers w.guard

/-- The value of a lane: zero for a helper whose dead index would trap (R31). -/
def State.loadVal (s : State) (w : WordM) (sp : Space) (c : Ctx) (l : Nat) : Nat :=
  if (c.helpers w.guard).contains l && c.poisoned (useLoad w false) l then 0 else localValue w sp s c l (readV c.w l w.index.toNat 1)

/-- The warp of a local load before its group moves on: the destinations are empty. -/
def State.loadEmptied (s : State) (w : WordM) (sp : Space) (c : Ctx) : Warp :=
  (s.loadLanes w sp c).foldl (fun x l => x.emptyV l w.data.toNat (sizeRegs w.size.toNat)) (c.sourced (useLoad w false) w.guard)

/-- The warp of a local load. -/
def State.loadWarp (s : State) (w : WordM) (sp : Space) (c : Ctx) : Warp :=
  let n := 2 ^ w.size.toNat
  let reads (l : Nat) : Bool :=
    !c.poisoned (useLoad w false) l && (s.cellOf w sp c l).isSome && localAddr c w.index.toNat w.ofs n l % (n : Nat) == 0
  ((s.loadEmptied w sp c).advance c.i.lanes 1).watchWords
    ((s.inSpace w sp c ++ (c.helpers w.guard).filter reads).flatMap fun l => wordsOf ((s.cellOf w sp c l).getD 0) n)

/-- The record of a local load: the values read at its issue, due when the farthest of them returns (R122; log 93). -/
def State.loadRecord (s : State) (w : WordM) (sp : Space) (c : Ctx) : Pend :=
  let n := 2 ^ w.size.toNat
  let lanes := s.loadLanes w sp c
  { c.noPend .load w.data.toNat n s.fresh (useLoad w false) lanes with
    lanes := [], writes := lanes.flatMap fun l => valueRegs l w.data.toNat n (s.loadVal w sp c l)
    due := s.clk + ((s.inSpace w sp c).map fun l => localLatency c sp ((s.cellOf w sp c l).getD 0)).foldl max 24
    issueTime := s.itime c.b.island }

/-- The state of a local load before lanes are switched off. -/
def State.loadIssued (s : State) (w : WordM) (sp : Space) (c : Ctx) : State :=
  let t := s.setWarp c.wid (s.loadWarp w sp c)
  let t := if (s.loadLanes w sp c).isEmpty then t else { t with fresh := s.fresh + 1, pend := s.pend ++ [s.loadRecord w sp c] }
  if (s.inSpace w sp c).isEmpty then t else t.acquired c w.order.toNat w.scope.toNat

/-- A local load that passes its checks completes. -/
theorem localLoad_next {s : State} {i : Issue} {w : WordM} (sp : Space) (h : Group s i)
    (hc : laneChecks (useLoad w false) w.guard (localRules s w.guard w.index.toNat w.ofs (2 ^ w.size.toNat) 0) (s.ctx i) = .go) :
    localLoad w sp s =
      .next ((s.loadIssued w sp (s.ctx i)).switchOff i.warp (s.outOfSpace w sp (s.ctx i)) 0x20 i.pc (s.ctx i).ovl).endIssue := by
  rw [localLoad, issueOut_go h.on hc]
  rfl

/-- What an acquire of a local load leaves but for its record and its warp (R128). -/
def State.loadAcquired (s : State) (w : WordM) (sp : Space) (c : Ctx) : State :=
  if s.inSpace w sp c = [] ∨ dropsRel w.order.toNat w.scope.toNat = false then s else s.dropRel c.b.island c.b.core

/-- An access that some lane makes acquires where its order and scope say so (R128). -/
theorem ite_acquired (s : State) (c : Ctx) (ls : List Nat) (order scope : Nat) : (if ls.isEmpty then s else s.acquired c order scope) =
    if ls = [] ∨ dropsRel order scope = false then s else s.dropRel c.b.island c.b.core := by
  unfold State.acquired
  cases ls <;> cases dropsRel order scope <;> rfl

/-- Of the machine a local load changes its warp, the list of records and, where it acquires, the core's REL words. -/
theorem loadIssued_eq (s : State) (w : WordM) (sp : Space) (c : Ctx) : s.loadIssued w sp c = { s.loadAcquired w sp c with
    warps := (s.setWarp c.wid (s.loadWarp w sp c)).warps
    pend := if s.loadLanes w sp c = [] then s.pend else s.pend ++ [s.loadRecord w sp c]
    fresh := if s.loadLanes w sp c = [] then s.fresh else s.fresh + 1 } := by
  unfold State.loadIssued State.loadAcquired
  dsimp only
  rw [ite_acquired]
  simp only [List.isEmpty_iff]
  by_cases acquires : s.inSpace w sp c = [] ∨ dropsRel w.order.toNat w.scope.toNat = false
  · simp only [if_pos acquires]
    split <;> rfl
  · simp only [if_neg acquires]
    split <;> rfl

theorem loadIssued_warp (s : State) (w : WordM) (sp : Space) (c : Ctx) (k : Nat) :
    (s.loadIssued w sp c).warp k = if c.wid = k then s.loadWarp w sp c else s.warp k := by
  rw [loadIssued_eq, ← warp_setWarp]
  rfl

theorem loadIssued_warp_same (s : State) (w : WordM) (sp : Space) (c : Ctx) : (s.loadIssued w sp c).warp c.wid = s.loadWarp w sp c :=
  (loadIssued_warp s w sp c c.wid).trans (if_pos rfl)

theorem loadIssued_warp_ne (s : State) (w : WordM) (sp : Space) (c : Ctx) {k : Nat} (hk : k ≠ c.wid) :
    (s.loadIssued w sp c).warp k = s.warp k :=
  (loadIssued_warp s w sp c k).trans (if_neg hk.symm)

theorem loadIssued_frame (s : State) (w : WordM) (sp : Space) (c : Ctx) :
    { s.loadIssued w sp c with warps := s.warps, pend := s.pend, fresh := s.fresh } = s.loadAcquired w sp c := by
  rw [loadIssued_eq, State.loadAcquired]
  split <;> rfl

/-- The record is due no earlier than a scratchpad access (R122). -/
theorem loadRecord_due (s : State) (w : WordM) (sp : Space) (c : Ctx) : s.clk + 24 ≤ (s.loadRecord w sp c).due :=
  Nat.add_le_add_left (List.foldlRecOn _ max (Nat.le_refl 24) fun m h k _ => Nat.le_trans h (Nat.le_max_left m k)) s.clk

section
variable {s : State} {i : Issue} (h : Group s i) (w : WordM) (sp : Space)
include h

theorem loadLanes_lt : ∀ l ∈ s.loadLanes w sp (s.ctx i), l < 32 := by
  intro l hl
  rcases List.mem_append.mp hl with hl | hl
  · exact (h.lanes l (members_mem (List.mem_filter.mp hl).1)).1
  · exact (h.helpers l (helpers_mem hl)).1

theorem loadLanes_nodup : (s.loadLanes w sp (s.ctx i)).Nodup :=
  List.nodup_append.mpr ⟨(h.once.filter _).filter _, h.onceH.filter _, fun _ hl k hk e =>
    h.apart k (helpers_mem hk) (e ▸ members_mem (List.mem_filter.mp hl).1)⟩

theorem vreg_loadWarp {l : Nat} (r : Nat) (hl : l < 32) : (s.loadWarp w sp (s.ctx i)).vreg l r =
    let x := laneReg s i w.guard (useLoad w false) (fun _ => {}) (fun _ => {}) l r
    if (s.loadLanes w sp (s.ctx i)).contains l && w.data.toNat ≤ r && r < w.data.toNat + sizeRegs w.size.toNat then { x with full := false }
    else x := by
  have emptied : (s.loadWarp w sp (s.ctx i)).v = (s.loadEmptied w sp (s.ctx i)).v := (watchWords_kept _ _).1.trans (Warp.v_advance _ _ _)
  rw [Warp.vreg_of_v emptied, State.loadEmptied, vreg_emptyLanes (loadLanes_lt h w sp) (loadLanes_nodup h w sp) _ _ _ r hl,
    vreg_sourced h _ _ r hl]

theorem thread_loadWarp {l : Nat} (hl : l < (s.warp i.warp).threads.length) :
    ((s.loadWarp w sp (s.ctx i)).thread l).pc = lanePc s i 1 l ∧
      ((s.loadWarp w sp (s.ctx i)).thread l).st = ((s.warp i.warp).thread l).st := by
  have moved : (s.loadWarp w sp (s.ctx i)).threads = ((s.loadEmptied w sp (s.ctx i)).advance i.lanes 1).threads := (watchWords_kept _ _).2
  rw [Warp.thread_of_threads moved]
  exact advance_sourced_thread h (Warp.foldl_threads _ (fun x k => x.threads_emptyV _ k _) _ _) hl

end

/-- Local loads are one form, each of its space (R320). -/
theorem exec_localLoad {w : WordM} {ins : Instr} {sp : Space}
    (h : (ins = .ldl w ∧ sp = .slice) ∨ (ins = .lds w ∧ sp = .scratch) ∨ (ins = .ldc w ∧ sp = .cluster) ∨ (ins = .ldbm w ∧ sp = .berm))
    (s : State) : exec ins s = localLoad w sp s ∧ useOf ins = useLoad w false := by
  rcases h with ⟨rfl, rfl⟩ | ⟨rfl, rfl⟩ | ⟨rfl, rfl⟩ | ⟨rfl, rfl⟩ <;> exact ⟨rfl, rfl⟩

/-! ### A local store -/

/-- The warp of a local store. -/
def Ctx.storeWarp (c : Ctx) (w : WordM) : Warp := (c.sourced (useStore w false) w.guard).advance c.i.lanes 1

/-- Memory after a local store: its lanes one after another. -/
def State.storesDone (s : State) (w : WordM) (sp : Space) (c : Ctx) : State :=
  (c.members w.guard).foldl (State.storeLane (s.cellOf w sp c) (2 ^ w.size.toNat) fun l => readV c.w l w.data.toNat (sizeRegs w.size.toNat)) s

/-- The words that a local store writes. -/
def State.storeWords (s : State) (w : WordM) (sp : Space) (c : Ctx) : List Nat :=
  (c.members w.guard).flatMap fun l => (s.cellOf w sp c l).elim [] fun p => wordsOf p (2 ^ w.size.toNat)

/-- The state of a local store before lanes are switched off. -/
def State.storeIssued (s : State) (w : WordM) (sp : Space) (c : Ctx) : State :=
  ((s.storesDone w sp c).setWarp c.wid (c.storeWarp w)).touch (s.storeWords w sp c)

/-- A local store that passes its checks completes. -/
theorem localStore_next {s : State} {i : Issue} {w : WordM} (sp : Space) (h : Group s i)
    (hc : laneChecks (useStore w false) w.guard (localRules s w.guard w.index.toNat w.ofs (2 ^ w.size.toNat) w.order.toNat) (s.ctx i) = .go) :
    localStore w sp s =
      .next ((s.storeIssued w sp (s.ctx i)).switchOff i.warp (s.outOfSpace w sp (s.ctx i)) 0x20 i.pc (s.ctx i).ovl).endIssue := by
  rw [localStore, issueOut_go h.on hc]
  unfold State.storeIssued State.storesDone State.storeWords
  dsimp only
  congr 5
  · congr 1
    funext t l
    unfold State.storeLane State.cellOf
    generalize s.localCell (s.ctx i) sp l _ _ = p
    cases p <;> rfl
  · funext l
    unfold State.cellOf
    generalize s.localCell (s.ctx i) sp l _ _ = p
    cases p <;> rfl

theorem storeIssued_mem (s : State) (w : WordM) (sp : Space) (c : Ctx) : (s.storeIssued w sp c).mem = (s.storesDone w sp c).mem :=
  (congrArg State.mem (touch_frame _ _) : _)

theorem storesDone_warp (s : State) (w : WordM) (sp : Space) (c : Ctx) (k : Nat) : (s.storesDone w sp c).warp k = s.warp k := by
  have warps : (s.storesDone w sp c).warps = s.warps := (congrArg State.warps (storeLanes_frame _ s) : _)
  rw [State.warp, warps, State.warp]

/-- A local store changes memory and warps only. -/
theorem storeIssued_frame (s : State) (w : WordM) (sp : Space) (c : Ctx) :
    { s.storeIssued w sp c with mem := s.mem, warps := s.warps } = s := by
  have touched := touch_frame ((s.storesDone w sp c).setWarp c.wid (c.storeWarp w)) (s.storeWords w sp c)
  have stored : { s.storesDone w sp c with mem := s.mem } = s := storeLanes_frame _ s
  exact (congrArg (fun t : State => { t with mem := s.mem, warps := s.warps }) touched).trans
    (congrArg (fun t : State => { t with warps := s.warps }) stored)

/-- The issuing warp is as the issue left it, but for its spin detector. -/
theorem storeIssued_warp_same (s : State) (w : WordM) (sp : Space) (c : Ctx) :
    ((s.storeIssued w sp c).warp c.wid).v = (c.storeWarp w).v ∧ ((s.storeIssued w sp c).warp c.wid).threads = (c.storeWarp w).threads := by
  have kept := touch_warp_kept ((s.storesDone w sp c).setWarp c.wid (c.storeWarp w)) (s.storeWords w sp c) c.wid
  rw [warp_setWarp_same] at kept
  exact kept.2

/-- Every other warp is as it was, but for its spin detector. -/
theorem storeIssued_warp_ne (s : State) (w : WordM) (sp : Space) (c : Ctx) {k : Nat} (hk : k ≠ c.wid) :
    Warp.sameBut ((s.storeIssued w sp c).warp k) (s.warp k) ∧ ((s.storeIssued w sp c).warp k).v = (s.warp k).v ∧
      ((s.storeIssued w sp c).warp k).threads = (s.warp k).threads := by
  have kept := touch_warp_kept ((s.storesDone w sp c).setWarp c.wid (c.storeWarp w)) (s.storeWords w sp c) k
  rwa [warp_setWarp, if_neg hk.symm, storesDone_warp] at kept

/-- Local stores are one form, each of its space (R320). -/
theorem exec_localStore {w : WordM} {ins : Instr} {sp : Space}
    (h : (ins = .stl w ∧ sp = .slice) ∨ (ins = .sts w ∧ sp = .scratch) ∨ (ins = .stc w ∧ sp = .cluster) ∨ (ins = .stbm w ∧ sp = .berm))
    (s : State) : exec ins s = localStore w sp s ∧ useOf ins = useStore w false := by
  rcases h with ⟨rfl, rfl⟩ | ⟨rfl, rfl⟩ | ⟨rfl, rfl⟩ | ⟨rfl, rfl⟩ <;> exact ⟨rfl, rfl⟩

/-! ### The statement -/

/-- Settles O18: a load's warp and record, and a store's memory and warps, each as its issue leaves them. -/
theorem localLoadsStores : Obligations.LocalLoadsStores := by
  refine ⟨fun s i w ins sp h hins => ?_, fun s i w ins sp h hins => ?_⟩
  · obtain ⟨exec_eq, use_eq⟩ := exec_localLoad hins s
    rw [exec_eq, use_eq, ← sext_toNat w.ofs]
    intro c u n addr cell inside out lanes val after hc
    have same : (s.loadIssued w sp c).warp i.warp = s.loadWarp w sp c := loadIssued_warp_same s w sp c
    refine ⟨s.loadIssued w sp c, localLoad_next sp h hc, fun l r hl => ?_, fun l hl => ?_, ?_, loadIssued_frame s w sp c, fun k hk => ?_⟩
    · rw [same]
      exact vreg_loadWarp h w sp r hl
    · rw [same]
      exact thread_loadWarp h w sp hl
    · rw [loadIssued_eq]
      split
      · next idle => exact if_pos idle
      · next busy =>
        have vals : val = s.loadVal w sp c := by
          funext l
          have place : cell l = s.cellOf w sp c l := rfl
          cases hp : s.cellOf w sp c l with
          | none => simp only [val, place, hp, State.loadVal, localValue_none hp]; rfl
          | some p => simp only [val, place, hp, State.loadVal, localValue_some hp]; rfl
        exact ⟨s.loadRecord w sp c, if_neg busy, rfl, rfl, rfl, rfl, loadRecord_due s w sp c, by rw [vals]; rfl⟩
    · exact loadIssued_warp_ne s w sp c hk
  · obtain ⟨exec_eq, use_eq⟩ := exec_localStore hins s
    rw [exec_eq, use_eq, ← sext_toNat w.ofs]
    intro c u n cell mem hc
    obtain ⟨regs, threads⟩ : ((s.storeIssued w sp c).warp i.warp).v = (c.storeWarp w).v ∧
        ((s.storeIssued w sp c).warp i.warp).threads = (c.storeWarp w).threads := storeIssued_warp_same s w sp c
    refine ⟨s.storeIssued w sp c, localStore_next sp h hc, fun l p hl hp apart => ?_, fun a out => ?_, fun l r hl => ?_, fun l hl => ?_,
      fun k hk => storeIssued_warp_ne s w sp c hk, storeIssued_frame s w sp c⟩
    · rw [State.readMem, storeIssued_mem]
      exact readMem_storeLanes (val := fun l => readV c.w l w.data.toNat (sizeRegs w.size.toNat)) hp mem s apart (.inl hl)
    · rw [storeIssued_mem]
      exact read_storeLanes_out out s
    · rw [Warp.vreg_of_v (regs.trans (Warp.v_advance _ _ _))]
      exact vreg_sourced h _ _ r hl
    · rw [Warp.thread_of_threads threads]
      exact advance_sourced_thread h rfl hl

end Sys2Proof.Machine
end

section
/-!
PROOF. Starts and their stages (R173, R175, R402, R404 to R407): how a start begins, what each stage of it makes of the panel, then the statement O57.
-/
namespace Sys2Proof

/-- A read of a map that keeps the entries of some keys. -/
theorem NMap.find_filterKeys {α : Type} (m : NMap α) (p : Nat → Bool) (k : Nat) :
    NMap.find? (m.filter fun e => p e.1) k = if p k then NMap.find? m k else none := by
  induction m with
  | nil => simp
  | cons e m ih =>
    obtain ⟨j, a⟩ := e
    rw [List.filter_cons]
    by_cases h : j = k
    · subst h
      cases hj : p j <;> simp [hj, NMap.find?, ih]
    · cases hj : p j <;> simp [NMap.find?, ih, h]

/-- A read of a map that lists one entry for each of the first numbers. -/
theorem NMap.find_mapRange {α : Type} {f : Nat → Nat × α} (h : ∀ n, (f n).1 = n) {n N : Nat} (hn : n < N) :
    NMap.find? ((List.range N).map f) n = some (f n).2 := by
  have found : ∀ l : List Nat, n ∈ l → NMap.find? (l.map f) n = some (f n).2 := by
    intro l
    induction l with
    | nil => exact fun hl => nomatch hl
    | cons j l ih =>
      intro hl
      rw [List.map_cons, NMap.find?, h j]
      split
      · next e => rw [e]
      · next ne => exact ih ((List.mem_cons.mp hl).resolve_left fun e => ne e.symm)
  exact found _ (List.mem_range.mpr hn)

namespace Machine

/-- Outside the cleared range memory reads as before. -/
theorem Memory.read_clear_out (m : List Host.Cell) {a n x : Nat} (h : x < a ∨ a + n ≤ x) :
    Memory.read (Memory.clear m a n) x = Memory.read m x := by
  have out : (!(decide (a ≤ x) && decide (x < a + n))) = true := by
    rw [Bool.not_eq_true', Bool.and_eq_false_iff, decide_eq_false_iff_not, decide_eq_false_iff_not]
    omega
  rw [Memory.read, Memory.clear, NMap.getD, NMap.find_filterKeys m (fun k => !(decide (a ≤ k) && decide (k < a + n))), if_pos out]
  rfl

/-! ### The beginning of a start (R404, R405) -/

/-- In `t` a start of a kind has just begun, with nothing of `s` at work; the saved results of stage 2 are those of `s`. -/
def State.Begun (s t : State) (kind : Nat) : Prop :=
  t.boot.starting = true ∧ t.boot.stage = 0 ∧ t.boot.kind = kind ∧ t.boot.fail = false ∧ t.grids = [] ∧ t.warps = [] ∧ t.blocks = [] ∧
    t.packets = [] ∧ t.msgs = [] ∧ t.boot.meas = [] ∧ t.boot.keys = [] ∧ t.boot.saved = s.boot.saved

/-- Memory with the gauges' memories cleared. -/
def clearedGauges (m : List Host.Cell) : List Host.Cell := (List.range 25).foldl (fun m g => Memory.clear m (gaugeAddr g 0) (2 ^ 18)) m

theorem clearGauges_eq (s : State) : s.clearGauges = { s with mem := clearedGauges s.mem } := by
  have each : ∀ (l : List Nat) (x : State), l.foldl (fun s g => s.clearMem (gaugeAddr g 0) (2 ^ 18)) x =
      { x with mem := l.foldl (fun m g => Memory.clear m (gaugeAddr g 0) (2 ^ 18)) x.mem } := by
    intro l
    induction l with
    | nil => exact fun _ => rfl
    | cons g l ih => exact fun x => ih _
  exact each _ s

theorem read_clearedGauges (m : List Host.Cell) {x : Nat} (h : ∀ g, g < 25 → x < gaugeAddr g 0 ∨ gaugeAddr g 0 + 2 ^ 18 ≤ x) :
    Memory.read (clearedGauges m) x = Memory.read m x :=
  List.foldlRecOn (motive := fun m' => Memory.read m' x = Memory.read m x) _ _ rfl fun m' hm g hg =>
    (Memory.read_clear_out m' (h g (List.mem_range.mp hg))).trans hm

/-- What memory, the command bits of this clock and the ROM's image hold does not matter to a start that has just begun. -/
theorem State.Begun.withMem {s t : State} {kind : Nat} (h : State.Begun s t kind) (m : List Host.Cell) : State.Begun s { t with mem := m } kind := h

theorem State.Begun.command {s t : State} {kind : Nat} (h : State.Begun s t kind) (r : RegName) (i b : Nat) :
    State.Begun s (t.command r i b) kind := h

theorem State.Begun.withImage {s t : State} {kind : Nat} (h : State.Begun s t kind) (image : List Byte) :
    State.Begun s { t with boot := { t.boot with image := image } } kind := h

theorem beginStart_begun (s : State) (kind : Nat) : State.Begun s (s.beginStart kind) kind := by
  unfold State.beginStart
  dsimp only
  split
  · rw [clearGauges_eq]
    exact ⟨rfl, rfl, rfl, rfl, rfl, rfl, rfl, rfl, rfl, rfl, rfl, rfl⟩
  · exact ⟨rfl, rfl, rfl, rfl, rfl, rfl, rfl, rfl, rfl, rfl, rfl, rfl⟩

theorem beginStart_warm_mem (s : State) : (s.beginStart 1).mem = s.mem := rfl

theorem beginStart_cold_mem (s : State) : (s.beginStart 0).mem = clearedGauges s.mem := by
  rw [State.beginStart, if_pos rfl, clearGauges_eq]

/-- A cold start wins over a warm one that has begun in the same core clock (R405). -/
def State.ColdWins (s : State) : Prop := s.boot.kind = 1 ∧ s.boot.stage = 0 ∧ s.boot.begun = s.clk

theorem mayBegin_cold (s : State) : s.mayBegin 0 = true ↔ s.boot.starting = false ∨ s.ColdWins := by
  simp [State.mayBegin, State.ColdWins, and_assoc]

theorem mayBegin_warm (s : State) : s.mayBegin 1 = true ↔ s.boot.starting = false := by simp [State.mayBegin]

theorem exec_startCold (s : State) : exec .startCold s = .next ((if s.mayBegin 0 then s.beginStart 0 else s).command .startCtl 0 1) := rfl
theorem exec_startWarm (s : State) : exec .startWarm s = .next ((if s.mayBegin 1 then s.beginStart 1 else s).command .startCtl 0 0) := rfl

/-- A start requested during another is ignored: its command bit alone reads 1. -/
theorem startDuringStart_ignored {s : State} (h : s.boot.starting = true) :
    exec .startWarm s = .next (s.command .startCtl 0 0) ∧ (¬ s.ColdWins → exec .startCold s = .next (s.command .startCtl 0 1)) := by
  refine ⟨?_, fun loses => ?_⟩
  · rw [exec_startWarm, if_neg (by simp [mayBegin_warm, h])]
  · rw [exec_startCold, if_neg (by simp [mayBegin_cold, h, loses])]

theorem startWarm_begins {s : State} (h : s.boot.starting = false) :
    ∃ t, exec .startWarm s = .next t ∧ State.Begun s t 1 ∧ t.mem = s.mem :=
  ⟨(s.beginStart 1).command .startCtl 0 0, by rw [exec_startWarm, if_pos ((mayBegin_warm s).mpr h)], (beginStart_begun s 1).command _ _ _,
    beginStart_warm_mem s⟩

theorem startCold_begins {s : State} (h : s.boot.starting = false ∨ s.ColdWins) : ∃ t, exec .startCold s = .next t ∧ State.Begun s t 0 ∧
    ∀ x, (∀ g, g < 25 → x < gaugeAddr g 0 ∨ gaugeAddr g 0 + 2 ^ 18 ≤ x) → Memory.read t.mem x = Memory.read s.mem x := by
  refine ⟨(s.beginStart 0).command .startCtl 0 1, by rw [exec_startCold, if_pos ((mayBegin_cold s).mpr h)], (beginStart_begun s 0).command _ _ _,
    fun x hx => ?_⟩
  rw [State.command_mem, beginStart_cold_mem, read_clearedGauges _ hx]

theorem powerOn_begins (s : State) : ∃ t, exec .powerOn s = .next t ∧ State.Begun s t 0 ∧ t.mem = [] := by
  have run : exec .powerOn s = .next { s.beginStart 0 with mem := [] } := rfl
  exact ⟨_, run, (beginStart_begun s 0).withMem [], rfl⟩

theorem firmwareRecovery_begins {s : State} (image : List Byte) (hs : s.boot.starting = true) (hf : s.boot.fail = true) (hk : s.boot.kind = 2) :
    ∃ t, exec (.firmwareRecovery image) s = .next t ∧ State.Begun s t 0 ∧ t.boot.image = image := by
  have run : exec (.firmwareRecovery image) s = execFirmwareRecovery image s := rfl
  rw [run, execFirmwareRecovery, if_pos (by simp [hs, hf, hk])]
  exact ⟨_, rfl, (beginStart_begun s 0).withImage image, rfl⟩

/-! ### Stage 0: the firmware (R402, R404) -/

/-- The image that stage 0 verifies: the one that a recovery gave, else the one it finds. -/
def State.firmware (s : State) (found : PanelFound) : List Byte := if s.boot.image = [] then found.image else s.boot.image

theorem stage0_next {s : State} (found : PanelFound) (hs : s.boot.starting = true) (h0 : s.boot.stage = 0) (hf : s.boot.fail = false) :
    exec (.stage0 found) s = .next (if firmwareOk (s.firmware found) then
      let t := { s with boot := { s.boot with stage := 1, imageValid := true, sites := found.sites, dead := found.dead } }.extendMeas 0
        (sha384 (s.firmware found))
      { t with boot := { t.boot with attKey := Config.attestationKey Config.deviceKey (t.meas 0) } }
    else { s with boot := { s.boot with fail := true, kind := 2, imageValid := false, image := [] } }) := by
  have run : exec (.stage0 found) s = execStage0 found s := rfl
  have image : (if s.boot.image.isEmpty then found.image else s.boot.image) = s.firmware found := by
    simp only [State.firmware, List.isEmpty_iff]
  rw [run, execStage0, image, if_neg (by simp [hs, h0, hf])]
  split <;> rfl

theorem meas_extendMeas_same (s : State) (n : Nat) (d : List Byte) : (s.extendMeas n d).meas n = sha384 (s.meas n ++ d) := NMap.getD_set_same ..

theorem stage0_verifies {s : State} (found : PanelFound) (hs : s.boot.starting = true) (h0 : s.boot.stage = 0) (hf : s.boot.fail = false) :
    ∃ t, exec (.stage0 found) s = .next t ∧ { t with boot := s.boot } = s ∧
      (firmwareOk (s.firmware found) = true →
        t.boot.stage = 1 ∧ t.boot.fail = false ∧ t.boot.sites = found.sites ∧ t.boot.dead = found.dead ∧
        t.meas 0 = sha384 (s.meas 0 ++ sha384 (s.firmware found)) ∧
        t.boot.attKey = Config.attestationKey Config.deviceKey (t.meas 0)) ∧
      (firmwareOk (s.firmware found) = false → t.boot.stage = 0 ∧ t.boot.fail = true ∧ t.boot.kind = 2) := by
  refine ⟨_, stage0_next found hs h0 hf, ?_⟩
  cases hok : firmwareOk (s.firmware found) with
  | false => exact ⟨rfl, nofun, fun _ => ⟨h0, rfl, rfl⟩⟩
  | true => exact ⟨rfl, fun _ => ⟨rfl, hf, rfl, rfl, meas_extendMeas_same .., rfl⟩, nofun⟩

/-! ### Stage 1: the clocks (R173, R404) -/

theorem State.Counted.boot {s t : State} (h : State.Counted s t) : t.boot = s.boot := (congrArg State.boot h.rest : _)
theorem State.Counted.islands {s t : State} (h : State.Counted s t) : t.islands = s.islands := (congrArg State.islands h.rest : _)
theorem State.Counted.cdItime {s t : State} (h : State.Counted s t) : t.cdItime = s.cdItime := (congrArg State.cdItime h.rest : _)

theorem gaugePeriod_counted (s : State) (g : Nat) : State.Counted s (s.gaugePeriod g) := by
  have last : ∀ (t : State) (f : Gauge → Gauge), State.Counted t (t.modGauge g f) := fun _ _ => ⟨rfl⟩
  unfold State.gaugePeriod
  refine .trans (List.foldlRecOn _ _ (.refl s) fun t ht p _ => ?_) (last _ _)
  dsimp only
  split
  · exact ht
  · exact ht.trans ⟨rfl⟩

/-- An island as stage 1 leaves it: in HOLD at its place in the start tree, or without power (R173). -/
def State.stage1Island (s : State) (tree : List (Nat × Nat × Nat)) (n : Nat) : Nat × Island :=
  let old := s.isl n
  let keep (x : Island) : Island := { x with holds := old.holds, placed := old.placed, seqNo := old.seqNo }
  match tree.find? fun (t : Nat × Nat × Nat) => t.1 == n with
  | some t =>
    let x := { keep (Island.start t.2.1 t.2.2 0) with inHold := true }
    (n, if s.boot.kind = 0 then x else { x with holds := min 0xFFFF (x.holds + 1) })
  | none => (n, { keep (Island.start 0 0 0) with lock := false, powered := false })

theorem stage1Island_key (s : State) (tree : List (Nat × Nat × Nat)) (n : Nat) : (s.stage1Island tree n).1 = n := by
  unfold State.stage1Island
  split <;> rfl

theorem stage1Island_clocks (s : State) (tree : List (Nat × Nat × Nat)) (n : Nat) :
    let x := (s.stage1Island tree n).2
    x.itime = 0 ∧ x.ptime = 0 ∧ (x.powered = true → x.inHold = true) ∧ (x.powered = true ↔ n ∈ tree.map Prod.fst) := by
  unfold State.stage1Island
  cases hf : tree.find? fun t => t.1 == n with
  | some t =>
    have there : n ∈ tree.map Prod.fst := List.mem_map.mpr ⟨t, List.mem_of_find?_eq_some hf, by simpa using List.find?_some hf⟩
    by_cases hk : s.boot.kind = 0 <;> simp [hk, there, Island.start]
  | none =>
    have away : n ∉ tree.map Prod.fst := fun h => by
      obtain ⟨t, ht, rfl⟩ := List.mem_map.mp h
      exact absurd (beq_self_eq_true t.1) (List.find?_eq_none.mp hf t ht)
    exact ⟨rfl, rfl, nofun, nofun, fun h => absurd h away⟩

/-- The panel as stage 1 sets its clocks, before the entries into HOLD are counted. -/
def State.stage1Clocks (s : State) : State :=
  { s with
    cdItime := 0
    samples := []
    boot := { s.boot with stage := 2 }
    islands := (List.range 24).map (s.stage1Island (stage1Tree s.boot.sites s.boot.dead)) }

theorem stage1_next {s : State} (hs : s.boot.starting = true) (h1 : s.boot.stage = 1) :
    ∃ t, exec .stage1 s = .next t ∧ State.Counted s.stage1Clocks t := by
  have run : exec .stage1 s = execStage1 s := rfl
  refine ⟨(stage1Tree s.boot.sites s.boot.dead).foldl (fun s t => s.gaugeSee t.1 0x30 0 none 1) (s.stage1Clocks.gaugePeriod 24), ?_, ?_⟩
  · rw [run, execStage1, if_neg (by simp [hs, h1])]
    rfl
  · exact List.foldlRecOn _ _ (gaugePeriod_counted _ 24) fun t ht x _ => ht.trans (gaugeSee_counted t x.1 0x30 0 none 1)

theorem isl_stage1Clocks (s : State) {n : Nat} (hn : n < 24) :
    s.stage1Clocks.isl n = (s.stage1Island (stage1Tree s.boot.sites s.boot.dead) n).2 := by
  rw [State.isl, NMap.getD, State.stage1Clocks, NMap.find_mapRange (stage1Island_key s _) hn]
  rfl

theorem stage1_holds {s : State} (hs : s.boot.starting = true) (h1 : s.boot.stage = 1) :
    ∃ t, exec .stage1 s = .next t ∧ t.boot.stage = 2 ∧ t.cdItime = 0 ∧ t.mem = s.mem ∧
      ∀ n, n < 24 → (t.isl n).itime = 0 ∧ (t.isl n).ptime = 0 ∧ ((t.isl n).powered = true → (t.isl n).inHold = true) ∧
        ((t.isl n).powered = true ↔ n ∈ (stage1Tree s.boot.sites s.boot.dead).map Prod.fst) := by
  obtain ⟨t, run, counted⟩ := stage1_next hs h1
  refine ⟨t, run, by rw [counted.boot]; rfl, by rw [counted.cdItime]; rfl, by rw [counted.mem]; rfl, fun n hn => ?_⟩
  have island : t.isl n = s.stage1Clocks.isl n := by rw [State.isl, counted.islands, State.isl]
  rw [island, isl_stage1Clocks s hn]
  exact stage1Island_clocks s _ n

/-! ### Stage 2: the islands that pass (R406, R407) -/

/-- From `s` to `t` memory, the stage of the start and FAIL are as they were, and a REPLACE_REQUEST stands. -/
structure State.Tested (s t : State) : Prop where
  mem : t.mem = s.mem
  stage : t.boot.stage = s.boot.stage
  fail : t.boot.fail = s.boot.fail
  replace : s.boot.replace = true → t.boot.replace = true

theorem State.Tested.refl (s : State) : State.Tested s s := ⟨rfl, rfl, rfl, id⟩

theorem State.Tested.trans {s t u : State} (h : State.Tested s t) (h' : State.Tested t u) : State.Tested s u :=
  ⟨h'.mem.trans h.mem, h'.stage.trans h.stage, h'.fail.trans h.fail, h'.replace ∘ h.replace⟩

theorem State.Counted.tested {s t : State} (h : State.Counted s t) : State.Tested s t :=
  ⟨h.mem, by rw [h.boot], by rw [h.boot], by rw [h.boot]; exact id⟩

theorem requestReplace_tested (s : State) : State.Tested s s.requestReplace := ⟨rfl, rfl, rfl, fun _ => rfl⟩

/-- One island's result noted: REDO, the list of results and HBM_ERR.SAVED (R406). -/
def State.resultNoted (s : State) (r : SiteResult) : State :=
  let x := stage2Site s r
  (List.range 8).foldl (fun s k => s.setReg .hbmErr (eightIx r.site k) (if x.1 then 0 else 2 ^ 48)) { s with boot := { s.boot with
    redo := if x.1 then setBits s.boot.redo r.site r.site 1 else s.boot.redo
    results := s.boot.results ++ [x.2.1] } }

theorem resultNoted_tested (s : State) (r : SiteResult) : State.Tested s (s.resultNoted r) := by
  unfold State.resultNoted
  refine List.foldlRecOn _ _ ?_ fun t ht k _ => ht.trans ⟨rfl, rfl, rfl, id⟩
  exact ⟨rfl, rfl, rfl, id⟩

theorem stage2One_eq (s : State) (r : SiteResult) : s.stage2One r =
    if r.pass then
      { s.resultNoted r with boot := { (s.resultNoted r).boot with
        saved := NMap.set (s.resultNoted r).boot.saved r.site (stage2Site s r).2.2 } }.extendMeas 1
          ((stage2Site s r).2.2.drop ((stage2Site s r).2.2.length - 48))
    else (s.resultNoted r).requestReplace := rfl

theorem stage2One_tested (s : State) (r : SiteResult) : State.Tested s (s.stage2One r) := by
  rw [stage2One_eq]
  refine (resultNoted_tested s r).trans ?_
  generalize s.resultNoted r = t
  split
  · exact ⟨rfl, rfl, rfl, id⟩
  · exact requestReplace_tested t

theorem mapPorts_tested (s : State) (f : Nat → Nat → Port → Port) : State.Tested s (s.mapPorts f) :=
  List.foldlRecOn _ _ (show State.Tested s { s with ports := _ } from ⟨rfl, rfl, rfl, id⟩) fun t ht _ _ => ht.trans (gaugeSee_counted t ..).tested

/-- The results of the powered islands, in ascending order. -/
def State.testResults (s : State) (results : List SiteResult) : List SiteResult :=
  (List.range 24).filterMap fun n => if (s.isl n).powered then results.find? fun r => r.site == n else none

/-- A populated site that the start tree misses (R409). -/
def State.siteMissed (s : State) : Bool := s.boot.sites.any fun n => n < 24 && !(s.isl n).powered

/-- The routers of the powered islands hold the topology key (R401); a site that is missed asks for a replacement. -/
def State.stage2Keyed (s : State) : State :=
  let t := { s with boot := { s.boot with keyed := 24 :: (List.range 24).filter fun n => (s.isl n).powered } }
  if s.siteMissed then t.requestReplace else t

/-- The panel once the islands' tests are done, before their number is judged. -/
def State.stage2Done (s : State) (results : List SiteResult) : State :=
  let mine := s.testResults results
  let pass (n : Nat) : Bool := mine.any fun r => r.site == n && r.pass
  (mine.foldl State.stage2One s.stage2Keyed).mapPorts fun n p _ => Port.trained n p (if n < 24 && !pass n then 0 else portKind pass n p)

theorem stage2_next {s : State} (results : List SiteResult) (hs : s.boot.starting = true) (h2 : s.boot.stage = 2) (hf : s.boot.fail = false) :
    exec (.stage2 results) s = .next (
      let t := s.stage2Done results
      if ((s.testResults results).filter fun r => r.pass).length < 21 then { t with boot := { t.boot with fail := true } }.requestReplace
      else { t with boot := { t.boot with stage := 3 } }) := by
  have run : exec (.stage2 results) s = execStage2 results s := rfl
  rw [run, execStage2, if_neg (by simp [hs, h2, hf])]
  exact (apply_ite Host.Outcome.next _ _ _).symm

theorem stage2Keyed_tested (s : State) : State.Tested s s.stage2Keyed ∧ (s.siteMissed = true → s.stage2Keyed.boot.replace = true) := by
  unfold State.stage2Keyed
  dsimp only
  split
  · exact ⟨⟨rfl, rfl, rfl, fun _ => rfl⟩, fun _ => rfl⟩
  · next h => exact ⟨⟨rfl, rfl, rfl, id⟩, fun missed => absurd missed h⟩

theorem stage2Done_tested (s : State) (results : List SiteResult) : State.Tested s.stage2Keyed (s.stage2Done results) := by
  unfold State.stage2Done
  refine .trans (List.foldlRecOn _ _ (.refl _) fun t ht r _ => ?_) (mapPorts_tested _ _)
  exact ht.trans (stage2One_tested t r)

/-- The results that pass, counted by island. -/
theorem testResults_passing (s : State) (results : List SiteResult) :
    ((s.testResults results).filter fun r => r.pass).length =
      ((List.range 24).filter fun n => (s.isl n).powered && (results.find? fun r => r.site == n).any fun r => r.pass).length := by
  rw [← List.countP_eq_length_filter, ← List.countP_eq_length_filter, State.testResults, List.countP_filterMap]
  congr 1
  funext n
  cases (s.isl n).powered with
  | false => rfl
  | true => cases results.find? fun r => r.site == n <;> rfl

theorem siteMissed_iff (s : State) : s.siteMissed = true ↔ ∃ n ∈ s.boot.sites, n < 24 ∧ (s.isl n).powered = false := by
  simp [State.siteMissed]

theorem stage2_judges {s : State} (results : List SiteResult) (hs : s.boot.starting = true) (h2 : s.boot.stage = 2) (hf : s.boot.fail = false) :
    let k := ((List.range 24).filter fun n => (s.isl n).powered && (results.find? fun r => r.site == n).any fun r => r.pass).length
    ∃ t, exec (.stage2 results) s = .next t ∧ t.mem = s.mem ∧ (21 ≤ k → t.boot.stage = 3 ∧ t.boot.fail = false) ∧
      (k < 21 → t.boot.stage = 2 ∧ t.boot.fail = true ∧ t.boot.replace = true) ∧
      ((∃ n ∈ s.boot.sites, n < 24 ∧ (s.isl n).powered = false) → t.boot.replace = true) := by
  intro k
  obtain ⟨keyed, missed⟩ := stage2Keyed_tested s
  have done := keyed.trans (stage2Done_tested s results)
  refine ⟨_, stage2_next results hs h2 hf, ?_⟩
  rw [testResults_passing, ← siteMissed_iff]
  by_cases hk : k < 21
  · rw [if_pos hk]
    exact ⟨done.mem, fun h => absurd hk (by omega), fun _ => ⟨done.stage.trans h2, rfl, rfl⟩, fun _ => rfl⟩
  · rw [if_neg hk]
    exact ⟨done.mem, fun _ => ⟨rfl, done.fail.trans hf⟩, fun h => absurd h hk, fun h => (stage2Done_tested s results).replace (missed h)⟩

/-! ### Stage 3: the first table (R175) -/

theorem treeFlit_update (s : State) (n k : Nat) : (s.treeFlit n k).update = s.update := by
  unfold State.treeFlit
  dsimp only
  split <;> rfl

/-- The update in progress once a table is sent, with the TVER after the last one. -/
theorem sendTable_update (s : State) (t : Topology) (fencing : Bool) :
    ∃ u, (s.sendTable t fencing).update = some u ∧ u.table.tver = s.boot.lastTver + 1 := by
  let first : Topology := { t with tver := s.boot.lastTver + 1 }
  have asked : ∃ nodes, (s.askRouters ⟨first, first.signed, [], [], none, fencing, false⟩).update =
      some ⟨first, first.signed, nodes, [], none, fencing, false⟩ :=
    ⟨_, List.foldlRecOn (motive := fun x : State => x.update = _) _ _ rfl fun x hx n _ => (treeFlit_update x n 4).trans hx⟩
  obtain ⟨nodes, h⟩ := asked
  exact ⟨_, h, rfl⟩

theorem stage3_sends {s : State} (hs : s.boot.starting = true) (h3 : s.boot.stage = 3) (hv : s.topo.tver = 0) (hu : s.update = none) :
    ∃ t u, exec .stage3 s = .next t ∧ t.update = some u ∧ u.table.tver = s.boot.lastTver + 1 ∧ t.mem = s.mem := by
  have run : exec .stage3 s = .next (s.sendTable s.firstTable false) := by
    have run : exec .stage3 s = execStage3 s := rfl
    rw [run, execStage3, if_neg (by simp [hs, h3]), if_neg (by simp [hv]), if_neg (by simp [hu])]
  obtain ⟨u, sent, tver⟩ := sendTable_update s s.firstTable false
  exact ⟨_, u, run, sent, tver, (sendTable_tableSent s _ false).mem⟩

/-! ### Full function (R404) -/

/-- From `s` to `t` the panel comes no farther from full function: the start and the table in force are as they were, no island has entered HOLD,
and where PLAIN was clear it is. -/
structure State.NoFarther (s t : State) : Prop where
  boot : t.boot = s.boot
  topo : t.topo = s.topo
  hold : ∀ n, (s.isl n).inHold = false → (t.isl n).inHold = false
  plain : ∀ n, n < 24 → s.reg .islCohmode n = 0 → t.reg .islCohmode n = 0

theorem State.NoFarther.refl (s : State) : State.NoFarther s s := ⟨rfl, rfl, fun _ => id, fun _ _ => id⟩

theorem State.NoFarther.trans {s t u : State} (h : State.NoFarther s t) (h' : State.NoFarther t u) : State.NoFarther s u :=
  ⟨h'.boot.trans h.boot, h'.topo.trans h.topo, fun n hn => h'.hold n (h.hold n hn), fun n hn hr => h'.plain n hn (h.plain n hn hr)⟩

theorem State.NoFarther.foldl {α : Type} {f : State → α → State} {xs : List α} (h : ∀ t, ∀ a ∈ xs, State.NoFarther t (f t a)) (s : State) :
    State.NoFarther s (xs.foldl f s) := List.foldlRecOn _ _ (.refl s) fun t ht a ha => ht.trans (h t a ha)

/-- A write of a register other than ISL_COHMODE. -/
theorem setReg_noFarther (s : State) {r : RegName} {i : Nat} (v : Nat) (hr : r ≠ .islCohmode) (hi : i < 2 ^ 40) :
    State.NoFarther s (s.setReg r i v) :=
  ⟨rfl, rfl, fun _ => id, fun n hn h => by rwa [State.reg_setReg _ _ _ _ _ _ hi (by omega), if_neg fun e => hr e.1]⟩

theorem State.NoFarther.ite {s t u : State} {c : Prop} [Decidable c] (ht : State.NoFarther s t) (hu : State.NoFarther s u) :
    State.NoFarther s (if c then t else u) := by
  split
  · exact ht
  · exact hu

theorem setGauge_noFarther (s : State) (g : Nat) (x : Gauge) : State.NoFarther s (s.setGauge g x) := ⟨rfl, rfl, fun _ => id, fun _ _ => id⟩

theorem offer_noFarther (s : State) {g n : Nat} (hg : g < 24) (hn : n < 16) (code unit : Nat) (part : Option Nat) (payload : Nat) :
    State.NoFarther s (s.offer g code unit part payload n) := by
  have counted := setGauge_noFarther s g
  unfold State.offer
  refine .ite (.ite (counted _) (.ite ?_ ?_)) (.refl s)
  · exact (counted _).trans (setReg_noFarther _ _ (by decide) (by unfold gaugeIx; omega))
  · exact (counted _).trans (setGauge_noFarther _ g _)

theorem gaugeSee_noFarther (s : State) {g code : Nat} (hg : g < 24) (hc : code < 256) (unit : Nat) (part : Option Nat) (payload : Nat) :
    State.NoFarther s (s.gaugeSee g code unit part payload) := by
  unfold State.gaugeSee
  refine .ite (.trans (.ite ?_ (.refl s)) (.foldl (fun t n hn => ?_) _)) (.refl s)
  · exact setReg_noFarther s _ (by decide) (by omega)
  · exact offer_noFarther t hg (List.mem_range.mp hn) code unit part payload

theorem gaugePeriod_noFarther (s : State) {g : Nat} (hg : g < 24) : State.NoFarther s (s.gaugePeriod g) := by
  refine .trans (.foldl (fun t p hp => ?_) s) (setGauge_noFarther _ g _)
  have := List.mem_range.mp hp
  exact .ite (.refl t) (setReg_noFarther t _ (by decide) (by unfold gaugeIx; omega))

theorem budgetBoundary_noFarther (s : State) (island : Nat) : State.NoFarther s (s.budgetBoundary island) := by
  unfold State.budgetBoundary
  refine .foldl (fun t p _ => .ite (.refl t) ?_) s
  exact ⟨rfl, rfl, fun _ => id, fun _ _ => id⟩

theorem boundaries_noFarther (island k : Nat) : ∀ s : State, State.NoFarther s (s.boundaries island k) := by
  induction k with
  | zero => exact .refl
  | succ k ih =>
    intro s
    unfold State.boundaries
    exact (budgetBoundary_noFarther s island).trans (ih _)

/-- A change of an island that does not put it in HOLD. -/
theorem modIsl_noFarther (s : State) (n : Nat) {f : Island → Island} (h : ∀ x, x.inHold = false → (f x).inHold = false) :
    State.NoFarther s (s.modIsl n f) := by
  refine ⟨rfl, rfl, fun k hk => ?_, fun _ _ => id⟩
  rw [State.modIsl, State.isl_setIsl]
  split
  · next e => subst e; exact h _ hk
  · exact hk

/-- The clocks of an island that leaves HOLD, once the boundaries it has missed have passed (R171, R220). -/
def State.relocked (s : State) (n : Nat) : State :=
  s.modIsl n fun x =>
    { x with
      inHold := false, lock := true, orphan := false, reference := true, ptime := s.cdItime, half := false
      itime := max x.itime s.cdItime, fast := decide (s.cdItime < x.itime) }

theorem relocked_leaves (s : State) (n : Nat) : State.NoFarther s (s.relocked n) ∧ ((s.relocked n).isl n).inHold = false := by
  refine ⟨modIsl_noFarther s n fun _ _ => rfl, ?_⟩
  rw [State.relocked, State.modIsl, State.isl_setIsl, if_pos rfl]

theorem leaveHold_eq (s : State) (n : Nat) : s.leaveHold n =
    let b := s.boundaries n (s.cdItime / 1000000 - s.itime n / 1000000)
    ((if b.itime n / 1000000 < b.cdItime / 1000000 then b.gaugePeriod n else b).relocked n).gaugeSee n 0x30 0 none 0 := rfl

theorem leaveHold_leaves (s : State) {n : Nat} (hn : n < 24) : State.NoFarther s (s.leaveHold n) ∧ ((s.leaveHold n).isl n).inHold = false := by
  have passed := boundaries_noFarther n (s.cdItime / 1000000 - s.itime n / 1000000) s
  rw [leaveHold_eq]
  generalize s.boundaries n _ = b at passed ⊢
  have period : State.NoFarther b (if b.itime n / 1000000 < b.cdItime / 1000000 then b.gaugePeriod n else b) :=
    .ite (gaugePeriod_noFarther b hn) (.refl b)
  dsimp only
  generalize ite (b.itime n / 1000000 < b.cdItime / 1000000) (b.gaugePeriod n) b = p at period ⊢
  obtain ⟨near, left⟩ := relocked_leaves p n
  have seen := gaugeSee_noFarther (p.relocked n) hn (show 0x30 < 256 by decide) 0 none 0
  exact ⟨((passed.trans period).trans near).trans seen, seen.hold n left⟩

/-- What full function does to one island: PLAIN falls and HOLD is left, or the power goes (R404). -/
def State.freeIsland (s : State) (n : Nat) : State :=
  let s := s.setReg .islCohmode n 0
  if s.topo.live n then s.leaveHold n else s.modIsl n fun x => { x with powered := false }

/-- PLAIN of an island is clear, and it is not in HOLD where the table has it live. -/
def State.Freed (s : State) (n : Nat) : Prop := s.reg .islCohmode n = 0 ∧ (s.topo.live n = true → (s.isl n).inHold = false)

theorem State.NoFarther.freed {s t : State} (h : State.NoFarther s t) {n : Nat} (hn : n < 24) (hf : s.Freed n) : t.Freed n := by
  obtain ⟨plain, left⟩ := hf
  exact ⟨h.plain n hn plain, fun live => h.hold n (left (h.topo ▸ live))⟩

theorem clearPlain_noFarther (s : State) {n : Nat} (hn : n < 24) : State.NoFarther s (s.setReg .islCohmode n 0) := by
  refine ⟨rfl, rfl, fun _ => id, fun k hk h => ?_⟩
  rw [State.reg_setReg _ _ _ _ _ _ (by omega) (by omega)]
  split
  · rfl
  · exact h

theorem freeIsland_frees (s : State) {n : Nat} (hn : n < 24) : State.NoFarther s (s.freeIsland n) ∧ (s.freeIsland n).Freed n := by
  have plain := State.reg_setReg_same s .islCohmode n 0
  unfold State.freeIsland
  dsimp only
  split
  · obtain ⟨near, left⟩ := leaveHold_leaves (s.setReg .islCohmode n 0) hn
    exact ⟨(clearPlain_noFarther s hn).trans near, near.plain n hn plain, fun _ => left⟩
  · next dead =>
    have near := modIsl_noFarther (s.setReg .islCohmode n 0) n (f := fun x => { x with powered := false }) fun _ h => h
    exact ⟨(clearPlain_noFarther s hn).trans near, near.plain n hn plain, fun live => absurd live dead⟩

theorem freeIslands_frees (l : List Nat) (hl : ∀ n ∈ l, n < 24) : ∀ s : State,
    State.NoFarther s (l.foldl State.freeIsland s) ∧ ∀ n ∈ l, (l.foldl State.freeIsland s).Freed n := by
  induction l with
  | nil => exact fun s => ⟨.refl s, nofun⟩
  | cons k l ih =>
    intro s
    obtain ⟨first, freed⟩ := freeIsland_frees s (hl k List.mem_cons_self)
    obtain ⟨others, each⟩ := ih (fun n h => hl n (List.mem_cons_of_mem _ h)) (s.freeIsland k)
    refine ⟨first.trans others, fun n hn => ?_⟩
    obtain rfl | hn := List.mem_cons.mp hn
    · exact others.freed (hl n List.mem_cons_self) freed
    · exact each n hn

/-- The start's own update and the events of its gauges leave their registers at reset values (log 107). -/
def State.resetCounts (s : State) : State := 
  { s.setTupd 31 0 0 with regs := (s.setTupd 31 0 0).regs.filter fun e => e.1 / 2 ^ 40 != regCode .tgpScnt }

theorem resetCounts_noFarther (s : State) : State.NoFarther s s.resetCounts := by
  have tupd : State.NoFarther s (s.setTupd 31 0 0) := setReg_noFarther s _ (by decide) (by decide)
  refine tupd.trans ⟨rfl, rfl, fun _ => id, fun n hn h => ?_⟩
  have kept : (regKey .islCohmode n / 2 ^ 40 != regCode .tgpScnt) = true := by
    have : regKey .islCohmode n / 2 ^ 40 = 12 := by simp only [regKey, regCode]; omega
    rw [this]; rfl
  rw [State.reg, NMap.getD, State.resetCounts, NMap.find_filterKeys _ (fun k => k / 2 ^ 40 != regCode .tgpScnt), if_pos kept]
  exact h

/-- The records that TAIL has passed are read, and the queue's head is served (R180). -/
def State.readQueue (s : State) (q : Nat) : State :=
  (s.enqueueFrom q (s.qHead q) ((s.reg .lkpQtail q + s.qSize q - s.qHead q % s.qSize q) % s.qSize q)).serveQueue q

theorem enqueueFrom_noFarther (q k : Nat) : ∀ (s : State) (ix : Nat), State.NoFarther s (s.enqueueFrom q ix k) := by
  induction k with
  | zero => exact fun s _ => .refl s
  | succ k ih =>
    intro s ix
    rw [State.enqueueFrom]
    refine .trans ?_ (ih _ _)
    exact ⟨rfl, rfl, fun _ => id, fun _ _ => id⟩

theorem refuseHead_noFarther (s : State) {q : Nat} (hq : q < 64) (cause : Nat) : State.NoFarther s (s.refuseHead q cause) := by
  unfold State.refuseHead State.popHead
  refine .trans ?_ (setReg_noFarther _ _ (by decide) (by omega))
  exact ⟨rfl, rfl, fun _ => id, fun _ _ => id⟩

theorem serveHead_noFarther {q : Nat} (hq : q < 64) (k : Nat) : ∀ s : State, State.NoFarther s (s.serveHead q k) := by
  induction k with
  | zero => exact .refl
  | succ k ih =>
    intro s
    rw [State.serveHead]
    split
    · exact .ite (.refl s) ((refuseHead_noFarther s hq _).trans (ih _))
    · exact .refl s

theorem readQueue_noFarther (s : State) {q : Nat} (hq : q < 64) : State.NoFarther s (s.readQueue q) :=
  ((enqueueFrom_noFarther q _ s _).trans (serveHead_noFarther hq _ _)).trans ⟨rfl, rfl, fun _ => id, fun _ _ => id⟩

theorem State.TableSent.noFarther {s t : State} (h : State.TableSent s t) : State.NoFarther s t where
  boot := h.boot
  topo := (congrArg State.topo h.rest : _)
  hold n hn := by rwa [State.isl, show t.islands = s.islands from (congrArg State.islands h.rest : _)]
  plain n hn hr := (h.reg .islCohmode n (by decide) (by omega)).trans hr

theorem fullFunction_eq (s : State) : s.fullFunction =
    ((List.range 64).foldl State.readQueue
      ((List.range 24).foldl State.freeIsland { s with boot := { s.boot with starting := false } }).resetCounts).stageOwn := rfl

theorem fullFunction_frees (s : State) : s.fullFunction.boot.starting = false ∧
    ∀ n, n < 24 → s.fullFunction.reg .islCohmode n = 0 ∧ (s.topo.live n = true → (s.fullFunction.isl n).inHold = false) := by
  obtain ⟨toIslands, freed⟩ := freeIslands_frees (List.range 24) (fun n => List.mem_range.mp) { s with boot := { s.boot with starting := false } }
  have rest : State.NoFarther _ s.fullFunction := fullFunction_eq s ▸ ((resetCounts_noFarther _).trans
    (.foldl (fun t q hq => readQueue_noFarther t (List.mem_range.mp hq)) _)).trans (stageOwn_tableSent _).noFarther
  have all := toIslands.trans rest
  refine ⟨by rw [all.boot], fun n hn => ?_⟩
  obtain ⟨plain, left⟩ := rest.freed hn (freed n (List.mem_range.mpr hn))
  exact ⟨plain, fun live => left (by rwa [all.topo])⟩

theorem stage3_finishes {s : State} (hs : s.boot.starting = true) (h3 : s.boot.stage = 3) (hv : s.topo.tver ≠ 0) :
    exec .stage3 s = .next s.fullFunction := by
  have run : exec .stage3 s = execStage3 s := rfl
  rw [run, execStage3, if_neg (by simp [hs, h3]), if_pos (by simpa using hv)]

/-! ### The statement -/

/-- Settles O57: how each start begins, then what each stage leaves, in their order. -/
theorem startsAndStages : Obligations.StartsAndStages := by
  intro s begun
  refine ⟨powerOn_begins s, startDuringStart_ignored, startWarm_begins, startCold_begins,
    fun image sites dead => stage0_verifies ⟨image, sites, dead⟩, firmwareRecovery_begins, stage1_holds, stage2_judges,
    fun hs h3 => ⟨stage3_sends hs h3, fun hv => ?_⟩⟩
  obtain ⟨ended, freed⟩ := fullFunction_frees s
  exact ⟨_, stage3_finishes hs h3 hv, ended, freed⟩

end Machine
end Sys2Proof
end
